-- ==== Sys2Proof/Config.lean ====
section
/-! DEFINITION. What the spec leaves open or names by an outside standard: free values without a body. -/

namespace Sys2Proof.Config

/-- The `n`-th free value: a random number the spec asks for (first PSN, IV salt, valley identity: R53, R77, R459),
a number the part picks where the spec does not say which (a free index, slot, frame or page), or another value the
spec leaves open. Nothing constrains it. Log entry 3. -/
opaque freeValue : Nat → Nat

/-- The event number ([7:0] of a logbook event code, Table 15-3) of the model's event name `k`: the spec lists the
codes of the logbook's own records only (Table 15-4). Log entry 4. -/
opaque eventNumber : Nat → Nat

/-- The severity (Table 15-2) of the model's event name `k`, where the spec states none. Log entry 4. -/
opaque severity : Nat → Nat

/-- The detail bytes of an event that Table 15-4 does not list, from the model's event name and the numbers the model
keeps of it: the spec gives no layout. Log entry 4. -/
opaque detailBytes : Nat → List Nat → Bytes

/-- What the I3C target answers to GETPID, GETBCR and GETDCR, and to GETSTATUS (by whether an in-band interrupt is
pending): R393 names the commands and gives no values. Log entry 73. -/
opaque i3cPid : Bytes
opaque i3cBcr : Byte
opaque i3cDcr : Byte
opaque i3cStatus : Bool → Bytes

/-- The anchor key of R270, which nothing returns: each part has its own. Log entry 5. -/
opaque anchorKey : Bytes

/-- The hash of destination connection number and path number behind the UDP source port (R46). Log entry 3. -/
opaque flowHash : Nat → Nat → Nat

/-- The digest of RANGE_GIB, BUDGET_GIB, UDP_PORT and JUMBO that HELLO carries (R305): the spec names no function.
Log entry 3. -/
opaque teamDigest : Nat → Nat → Nat → Nat → Nat

/-- The rail of the rail table that feeds VDD_CORE: R345 asks for one and leaves its number to the board. Log entry 51. -/
opaque coreRail : Nat

/-- What a command names of objects (1), regions (2), chain queues (3), topos (4), connections (5), key slots (6) and roots (7), from its
opcode and parameters, where the spec gives the parameters no layout (R396). Log entry 111. -/
opaque cmdTargets : Nat → Bytes → List (Nat × Nat)

/-- The reductions of the activation count by one RFM and by one refresh, which JESD79-5 states (R178). Log entry 52. -/
opaque rfmByRfm : Nat
opaque rfmByRefresh : Nat

end Sys2Proof.Config
end

