-- ==== Sys2Proof/Syntax.lean ====
section
/-! DEFINITION. The commands the block takes: one constructor per row of the spec's opcode table, with the operands
that the event brings from outside the block (a received packet, a reading, an answer of the media or of the twin). -/

namespace Sys2Proof

/-- One TMT extension header (R51): type, its length in words, bits [15:0] of word 0, the words that follow. -/
structure Ext where
  ty : Nat
  len : Nat
  lo : BitVec 16 := 0
  ws : List (BitVec 32) := []
  deriving DecidableEq, Repr

/-- A TMT packet as it stands on the wire with its encapsulation (R45 to R51, Table 3-1). -/
structure Pkt where
  /-- ingress or egress sub-port, 4 × port + first lane ÷ 2 (R404) -/
  sub : Nat := 0
  /-- MAC address of the part's end: destination of a received frame, source of a sent one (R42) -/
  mac : Nat := 0
  /-- the host's network address, an IPv6 one from 2^32 up, and the UDP source port (step 4 of Table 3-5) -/
  src : Nat := 0
  sport : Nat := 0
  /-- the part's network address, and the UDP destination port (R45) -/
  dst : Nat := 0
  dport : Nat := 47620
  /-- IPv4 DF bit, TTL or hop limit, IPv6 flow label and UDP checksum, as the part sets them (R46) -/
  df : Bool := false
  ttl : Nat := 64
  flow : Nat := 0
  udpSum : Nat := 0
  /-- PCP of the 802.1Q tag, if the frame has one; DSCP of the IP header (R47) -/
  pcp : Option Nat := none
  dscp : Nat := 0
  ty : Nat := 0
  /-- flags of Table 3-2 -/
  first : Bool := false
  last : Bool := false
  ackReq : Bool := false
  poison : Bool := false
  mgmt : Bool := false
  seald : Bool := false
  check : Bool := false
  unseq : Bool := false
  path : Nat := 0
  extLen : Nat := 0
  conn : Nat := 0
  psn : Nat := 0
  msn : Nat := 0
  off : Nat := 0
  mlen : Nat := 0
  exts : List Ext := []
  payload : Bytes := []
  /-- the message check of R74, when Check-present is set -/
  chk : Bytes := []
  /-- the GCM tag of R72, when Sealed is set -/
  tag : Bytes := []
  deriving DecidableEq, Repr

/-- Why an arriving frame is dropped at ingress (R43, R45, R46, R49, Table 3-3). -/
inductive DropWhy where
  | twoTags | fragment | options | ipChecksum | udpChecksum | zeroUdpV6 | version | reservedType
  deriving DecidableEq, Repr

/-- Causes that end a work request in failure (R114). The causes that the step itself finds (validation, invalid
opcode, poison, CHECK mismatch) are found by WORK_REQUEST_START and WORK_REQUEST_COMPLETE. -/
inductive ChainCause where
  | nak (code : Nat) | checkMismatch | landingNak (code : Nat) | sourcePoisoned | connectionLost | budgetFull
  | invalidOpcode | contextNotOwned | storage | invocations
  deriving DecidableEq, Repr

/-- Camp scheduler ports (Table 6-3). -/
inductive CampPort where
  | bivouac | ropeApply | egress (sub : Nat) | demand | mover | maint
  deriving DecidableEq, Repr

/-- What the SPD and the mode registers of one DIMM say (Table 6-1, R178): MRDIMM or RDIMM, x8 or x4, die density in Gb,
package ranks, dies of a 3DS stack (1 for none), capacity in GiB, speed grade in MT/s, serial number, whether it supports
RFM and whether MR58 requires it, with its RFM threshold and maximum. -/
structure DimmSpd where
  mr : Bool := false
  x8 : Bool := false
  gbit : Nat := 16
  pkg : Nat := 1
  height : Nat := 1
  gib : Nat := 16
  mts : Nat := 4800
  serial : Nat := 0
  rfm : Bool := false
  rfmReq : Bool := false
  rfmAt : Nat := 0
  rfmMax : Nat := 0
  deriving DecidableEq, Repr

/-- What a training stage of a camp channel found (Table 6-6). -/
inductive TrainResult where
  /-- T1: the DIMMs found on the channel, as their SPD describes them -/
  | t1 (dimms : List DimmSpd)
  | t2 (dimm : Nat) | t3 (dimm : Nat) | t4 (group : Nat)
  | t5 (group : Nat) (ok : Bool)
  /-- hard post-package repair of one row on the pending list (R192): passed or not -/
  | ppr (bank row : Nat) (ok : Bool)
  | t6
  deriving DecidableEq, Repr

/-- Decode level at which a valley codeword was delivered (Table 7-4). -/
inductive DecodeLevel where
  | l0 | l1 | l2 | l3 | l4 | failed
  deriving DecidableEq, Repr

/-- What Read ID and the parameter page say of a NAND die (R195, Table 7-1): ONFI manufacturer and model, TLC pages per
block, planes, capacity in GiB, bytes of a page and of its spare area, whether its cells are TLC. -/
structure NandDev where
  maker : Nat := 0
  model : Nat := 0
  pages : Nat := 384
  planes : Nat := 2
  gib : Nat := 64
  page : Nat := 16384
  spare : Nat := 2048
  tlc : Bool := true
  deriving DecidableEq, Repr

/-- A device profile (R195, Table 7-1a): manufacturer and model, the SLC-mode prefix, the read-retry table, whether suspend is
allowed, the baseline read time in µs, TLC and SLC-mode program throughput in MB/s, block erase time in µs, and the rated
erase cycles. -/
structure NandProfile where
  maker : Nat := 0
  model : Nat := 0
  slcPrefix : Nat := 0
  retry : List Nat := [1]
  suspend : Bool := false
  readUs : Nat := 50
  progMbs : Nat := 250
  slcMbs : Nat := 400
  eraseUs : Nat := 20000
  rated : Nat := 1000
  deriving DecidableEq, Repr

/-- What V1 and V2 of the valley scan found on a channel (R196, R222): its rate in MT/s, chip enables, dies for each of them,
and the die at each die position, none where it did not answer Read ID. -/
structure NandChan where
  mts : Nat := 2400
  ces : Nat := 1
  perCe : Nat := 1
  dies : List (Option NandDev) := []
  deriving DecidableEq, Repr

/-- A page that the read-verify pass reads (R209): one that a VLOC names, or page `n` of an SLC-mode block. -/
inductive VerifyPage where
  | tlc (vloc : Nat) | slc (block n : Nat)
  deriving DecidableEq, Repr

/-- Areas CS_COMMIT can commit (Table 7-10). -/
inductive CairnArea where
  | bank (n : Nat) | config (copy : Nat) | flush (image : Nat)
  deriving DecidableEq, Repr

/-- What CS_BANK_VERIFY reads of a firmware bank (Table 10-5): header fields, image digest as computed over the image,
public key, signature, and whether the margin read passed. -/
structure BankImage where
  marginOk : Bool := true
  keyIndex : Nat := 0
  secVersion : Nat := 0
  build : Nat := 0
  headerDigest : Bytes := []
  header : Bytes := []
  image : Bytes := []
  pubKey : Bytes := []
  signature : Bytes := []
  deriving DecidableEq, Repr

/-- SRAM stores of Table 8-10. -/
inductive SramStore where
  | summit (set way : Nat) | transCache (group : Nat) | transReserve (group : Nat) | ingress | egress (conn path psn line : Nat)
  | guide (g : Nat) | notifQueue (q : Nat) | chainQueue (q : Nat) | connCtx (conn : Nat) | stripe (n : Nat)
  | logRecord (seq : Nat) | keySlot (slot : Nat) | root (n : Nat)
  deriving DecidableEq, Repr

/-- The contents of HELLO (R305). -/
structure Hello where
  twinId : Nat := 0
  epoch : Nat := 0
  wasLead : Bool := false
  inSync : Bool := false
  serving : Bool := false
  clkLoss : Bool := false
  digest : Nat := 0
  deriving DecidableEq, Repr

/-- The rope header of a received frame (Table 11-3), with the instance it came on. -/
structure RopeHdr where
  inst : Nat := 0
  seq : Nat := 0
  ack : Nat := 0
  epoch : Nat := 0
  deriving DecidableEq, Repr

/-- The body of an order record (Tables 11-5 and 11-6). -/
inductive OrderBody where
  /-- Table 11-5: flags APPLY, WAIT, SINGLE_COPY; TMT type and atomic code; connection, MSN, region key, address,
  status, length, result digest, result bytes -/
  | operation (apply wait single : Bool) (ty aop conn msn key addr status len digest : Nat) (result : Bytes)
  /-- the mirrored command: opcode, tag, principal (4096 for management), numbers the Lead assigned, parameters -/
  | command (opcode tag principal : Nat) (nums : List Nat) (body : Bytes)
  | topo (topo marker : Nat)
  /-- event 1 trigger accepted (with the SEND's connection and MSN), 2 run started, 3 run ended, 4 queue error -/
  | chain (q ev conn msn : Nat)
  | partMsg (conn msn code qual detail : Nat) (isPush : Bool)
  | ivReserve (conn limit : Nat)
  | epochMark (tb : Nat)
  | handover (last : Nat)
  deriving DecidableEq, Repr

/-- One order record: its index and the Lead's release mark (Table 11-5). -/
structure OrderRec where
  idx : Nat
  release : Nat := 0
  body : OrderBody
  deriving DecidableEq, Repr

/-- The path a renewal or its acknowledgement came by: a rope frame, or a belay word of 32 bits (R324). -/
inductive LeaseSrc where
  | rope (h : RopeHdr) | belay (wd : BitVec 32)
  deriving DecidableEq, Repr

/-- A line fetch (roped) or repair fetch (published) (R338): object digest or slab, offset and length in bytes. -/
structure Fetch where
  published : Bool := false
  digest : Bytes := []
  slab : Nat := 0
  off : Nat := 0
  len : Nat := 0
  deriving DecidableEq, Repr

/-- The answer of FETCH_DATA: bytes with the partner's poisoned lines, or "not held". -/
inductive FetchAnswer where
  | notHeld | lines (data : Bytes) (poison : List Nat)
  deriving DecidableEq, Repr

/-- Contents of CONTROL frames (Table 11-4, R435) other than the return request, which is RETURN_REQUEST. -/
inductive Control where
  | titleBindings (slots : List Nat)
  /-- the mirrored tables at an order index, as the records that build them (R330) -/
  | stateTransfer (index : Nat) (tables : List OrderBody)
  /-- the joining twin's saved rope bitmap, by 1 MiB group; none where it has none (R331) -/
  | savedMap (groups : Option (List Nat))
  /-- published objects with their version digests (R336) -/
  | digestList (l : List (Nat × Bytes))
  | depart
  | catchupDone
  /-- the object check of the Second's own copy (R337); none where its verification failed -/
  | publishCheck (obj : Nat) (check : Option (BitVec 64))
  deriving DecidableEq, Repr

/-- What the end of a start stage found (Table 17-2). -/
inductive StageInfo where
  | s1 | s2 | s3 (sysOk sdOk : Bool)
  /-- stage 4: the banks as CS_BANK_VERIFY found them -/
  | s4 (a b : Option BankImage)
  | s5 | s6
  /-- stage 7: what the scan found on each channel, the device profiles that the cairn configuration holds, and the root
  copies whose CRC does not hold, as (channel, root sequence) -/
  | s7 (chs : List NandChan) (profs : List NandProfile) (badRoots : List (Nat × Nat))
  | s8 | s9 | s10 | s11
  deriving DecidableEq, Repr

/-- Parameters of a CRC (Table 10-6), or a preset number (Table 10-7). -/
inductive CrcPar where
  | preset (n : Nat)
  | explicit (width : Nat) (poly init xorout : BitVec 64) (refin refout : Bool)
  deriving DecidableEq, Repr

/-- A TAP operation (R503), or a write of the rail table over JTAG (R344). -/
inductive Jtag where
  | boundaryScan (release : Bool)
  | factory (auth : Bool)
  | railTable (off : Nat) (data : Bytes)
  deriving DecidableEq, Repr

/-- A function of the ladder (Table 14-9; class 8 is a core domain, 0 the whole device). -/
structure LadderFn where
  cls : Nat
  idx : Nat
  deriving DecidableEq, Repr

/-- The commands: the rows of the opcode table, in its order. -/
inductive Instr where
  /-- FAB_VCORE_REQ_WRITE (R25): A write of FAB_VCORE.REQ sets the requested core voltage, or sets RANGE_ERR when the value is above 46. -/
  | fabVcoreReqWrite (off : Nat) (data : Bytes)
  /-- AVS_STEP_ACK (R27): The regulator acknowledges an AVSBus step and the read-back reaches it, so the next step of at most 10 mV may be sent. -/
  | avsStepAck (mv : Nat)
  /-- AVS_ACK_TIMEOUT (R28): An AVSBus write goes 100 µs without acknowledge; the part retries, and after 3 retries holds its target and sets AVS_FAULT. -/
  | avsAckTimeout
  /-- AVS_READBACK (R28): A VDD_CORE read-back outside 0.60–0.88 V is handled by the sequencer as a rail fault. -/
  | avsReadback (mv : Nat)
  /-- SYS_REFCLK_LOSS (R30): Loss of SYS_REFCLK is detected; the timebase switches to the internal oscillator, CLK_LOSS is set and a Lead fences. -/
  | sysRefclkLoss
  /-- STALL_WDOG_SAMPLE (R35): Every 10 µs the stall watchdog samples each domain's handshakes and detects a stuck handshake past its threshold. -/
  | stallWdogSample (stuck : List (Nat × Nat))
  /-- PD_IDLE_GATE (R39): An automatically gated domain whose inputs have been idle for FAB_PD_IDLE.TIME powers off. -/
  | pdIdleGate (d : Nat)
  /-- PD_WAKE (R39): A gated domain finishes waking after a request and starts serving it. -/
  | pdWake (d : Nat)
  /-- PD_POWER_UP_GRANT (R40): A domain waiting under the inrush limit of 4 power-ups per 10 µs gets its turn and powers up. -/
  | pdPowerUpGrant (d : Nat)
  /-- HOST_LANE_LOSS (R44): Loss of a host lane is detected and the port degrades to a narrower mode, or the sub-port goes down. -/
  | hostLaneLoss (port : Nat) (lane : Nat) (narrowOk : Bool)
  /-- SUBPORT_LINK_UP (R44): Link training of a sub-port completes and the sub-port comes up in its mode. -/
  | subportLinkUp (sub : Nat)
  /-- FRAME_TRANSMIT (R21): An egress crossing starts sending a frame once the whole frame is held in the crossing FIFO. -/
  | frameTransmit (x : Nat)
  /-- READ_REQ (R95): A READ-REQ packet is received and handled by the receiver steps; the READ is validated and served from summit, camp or valley. -/
  | readReq (p : Pkt)
  /-- WRITE_REQ (R96): A WRITE-REQ chunk is received, placed by byte offset, and the WRITE is applied line by line once validated. -/
  | writeReq (p : Pkt)
  /-- WRITEP_REQ (R98): A WRITEP-REQ chunk of non-zero length is received; the WRITEP completes once its data is persistent and, for roped data, confirmed. -/
  | writepReq (p : Pkt)
  /-- FLUSH (R99): A zero-length WRITEP-REQ asks for the covered writes of its region to be made persistent. -/
  | flush (p : Pkt)
  /-- CAS64 (R100): A 64-bit compare-and-swap is performed indivisibly and the old value is returned. -/
  | cas64 (p : Pkt)
  /-- FADD64 (R100): A 64-bit fetch-and-add is performed indivisibly and the old value is returned. -/
  | fadd64 (p : Pkt)
  /-- CAS128 (R100): A 128-bit compare-and-swap is performed indivisibly and the old value is returned. -/
  | cas128 (p : Pkt)
  /-- SEND (R111): An untriggered SEND is written into notification queue SEND_NQ and completes SEND_QUEUED. -/
  | send (p : Pkt)
  /-- TRIGGERED_SEND (R112): A SEND with a trigger extension is checked against its tag, then starts a chain run or becomes a pending trigger. -/
  | triggeredSend (p : Pkt)
  /-- ACK (R58): A received ACK releases acknowledged packets, resets the retry count, restarts the retransmit timer and covers completions. -/
  | ack (p : Pkt)
  /-- NAK (R58): A received NAK releases packets and rewinds, waits, declares the path down or reports a terminated message, according to its code. -/
  | nak (p : Pkt)
  /-- MGMT (R392): A MGMT message with Management set delivers a command packet over TMT and completes when the command is accepted or refused. -/
  | mgmt (p : Pkt)
  /-- CONNECT (R77): A CONNECT to connection 0 is checked and answered with ACCEPT or REFUSE, binding a session slot where one applies. -/
  | connect (p : Pkt)
  /-- PATH_OPEN (R79): A PATH-OPEN is checked and answered with PATH-ACCEPT, opening or reopening path 1, 2 or 3. -/
  | pathOpen (p : Pkt)
  /-- CLOSE (R80): A CLOSE stops new messages on a connection and starts the 10 ms completion of its open messages. -/
  | close (p : Pkt)
  /-- CLOSED (R80): A CLOSED answer to the part's CLOSE is received and ends its resends. -/
  | closed (p : Pkt)
  /-- CLOSE_DRAIN_END (R80): The open messages of a closing connection complete, or 10 ms pass; the rest are abandoned, CLOSED is sent and the number is freed. -/
  | closeDrainEnd (conn : Nat)
  /-- CONTROL_RESEND (R80): An unanswered connection-control packet is resent after 1 ms, up to 8 times. -/
  | controlResend (conn : Nat)
  /-- RETRANSMIT_TIMER_EXPIRY (R59): A path's retransmit timer expires; the retry count rises and the path rewinds to its oldest unacknowledged PSN. -/
  | retransmitTimerExpiry (conn : Nat) (path : Nat)
  /-- CONN_NUMBER_FREE (R60): The 10 ms hold of a connection number in error ends and the number is freed. -/
  | connNumberFree (conn : Nat)
  /-- ACK_DELAY_EXPIRY (R56): ACK_US after the first packet accepted since the last ACK, the receiver sends an ACK on the path. -/
  | ackDelayExpiry (conn : Nat) (path : Nat)
  /-- COMPLETION_REPEAT (R56): An outstanding completion not carried for one retransmit period is sent again in an ACK on the next open path. -/
  | completionRepeat (conn : Nat)
  /-- RNR_WAIT_EXPIRY (R58): The wait named by a NAK RECEIVER_NOT_READY ends and the sender rewinds to the expected PSN. -/
  | rnrWaitExpiry (conn : Nat) (path : Nat)
  /-- MSN_RANGE_WAIT_EXPIRY (R58): After NAK MSN_RANGE, one retransmit period passes with no completion and the sender rewinds. -/
  | msnRangeWaitExpiry (conn : Nat) (path : Nat)
  /-- ZERO_WINDOW_PROBE (R64): While stopped by a zero window, the sender sends an ACK with Ack-request set every retransmit period. -/
  | zeroWindowProbe (conn : Nat)
  /-- WINDOW_RESTORE (R65): A window-reducing condition clears, and the part advertises the larger window in an ACK within 4 µs. -/
  | windowRestore (conn : Nat)
  /-- PFC_FRAME (R69): A received PFC frame stops egress of the paused priority at the next frame boundary. -/
  | pfcFrame (sub : Nat) (prio : Nat) (quanta : Nat)
  /-- PFC_PAUSE_EXPIRY (R69): The pause time of a received PFC frame runs out and egress of that priority resumes. -/
  | pfcPauseExpiry (sub : Nat) (prio : Nat)
  /-- PFC_REFRESH_TIMER (R67): Every half pause time the pause is refreshed while occupancy stays at or above XON. -/
  | pfcRefreshTimer (sub : Nat) (prio : Nat)
  /-- BUDGET_RESERVATION_MET (R97): A waiting bivouac budget reservation is met in order and its message or work request proceeds. -/
  | budgetReservationMet
  /-- BUDGET_WAIT_EXPIRY (R97): A reservation not met within BUDGET_WAIT_MS ends in NAK BUDGET_FULL, or its work request fails. -/
  | budgetWaitExpiry (id : Nat)
  /-- WORK_REQUEST_START (R113): The next work request of a run starts once the in-flight, FENCE and NOTIFY limits allow it. -/
  | workRequestStart (q : Nat)
  /-- WORK_REQUEST_COMPLETE (R113): A work request completes; when its END and every earlier one are done, the run ends and the next pending trigger may start. -/
  | workRequestComplete (q : Nat) (slot : Nat)
  /-- WORK_REQUEST_FAIL (R114): A work request fails; the run stops, the queue enters ERROR and discards its pending triggers, and CHAIN_ERROR is sent. -/
  | workRequestFail (q : Nat) (slot : Nat) (cause : ChainCause)
  /-- PROMOTION_UNIT_FILLED (R139): A promotion fills a 4 KiB unit, parked READs that need it resume, and the next unit is chosen or the slab becomes CLEAN. -/
  | promotionUnitFilled (slab : Nat) (lost : List Nat)
  /-- PARK_ENTRY_FREE (R141): A park-table entry frees and a request waiting at the operation engine may park. -/
  | parkEntryFree
  /-- VALLEY_DIRECT_TIMER (R142): The time left to a parked deadline-class READ falls to VDIRECT_US, and the READ is served valley-direct. -/
  | valleyDirectTimer (conn : Nat) (msn : Nat)
  /-- MOVER_JOB_START (R145): A data mover takes the highest-class waiting job, which may be a promotion, destage, prefetch, load, rebuild or chain job. -/
  | moverJobStart (m : Nat)
  /-- MOVER_UNIT_DONE (R146): A mover finishes a 4 KiB unit, records its progress offset, and is pre-empted by a higher-class job if one waits. -/
  | moverUnitDone (m : Nat)
  /-- DESTAGE_PROGRAM_DONE (R126): A destage page is programmed and verified; the slab becomes CLEAN, or DIRTY if a write arrived during the job. -/
  | destageProgramDone (slab : Nat)
  /-- DESTAGE_PROGRAM_FAIL (R126): A destage program fails and the job restarts on another page. -/
  | destageProgramFail (slab : Nat)
  /-- WALKER_EVICT (R147): The walker of a partition below 1,024 free frames visits the next slab and evicts it if it is a candidate. -/
  | walkerEvict (part : Nat)
  /-- SEGMENT_REBUILD_DONE (R156): A segment is rebuilt from checkpoint and journal and marked built; the requests parked on it proceed. -/
  | segmentRebuildDone (seg : Nat)
  /-- MARKER_LOG_TIMER (R124): At most once per second, a moving topo marker is logged in the table log. -/
  | markerLogTimer (topo : Nat)
  /-- DDR_COMMAND_ISSUE (R169): The scheduler of a subchannel issues the next DDR5 command from the highest rank that has an issuable one. -/
  | ddrCommandIssue (ch : Nat) (sub : Nat)
  /-- CAMP_READ_DONE (R232): A camp code word is read and decoded as clean, poisoned, corrected or uncorrectable. -/
  | campReadDone (cpa : Nat) (word : Bytes) (port : CampPort)
  /-- WHISTLE_LONG (R172): A whistle held for more than 100 µs is counted in WH_LONG and logged. -/
  | whistleLong (port : CampPort)
  /-- REFRESH_INTERVAL (R175): Each tREFI adds one interval to a rank's refresh debt, and the refresh becomes due at DUE_DEBT. -/
  | refreshInterval (ch : Nat) (rank : Nat)
  /-- MR4_POLL (R177): Every MR4_MS the part reads MR4 of every rank and applies the reported refresh rate. -/
  | mr4Poll (ch : Nat) (rank : Nat) (double : Bool)
  /-- DIMM_TEMP_POLL (R179): Every 32 ms a DIMM temperature is read, and the hot limit is applied or lifted. -/
  | dimmTempPoll (ch : Nat) (dimm : Nat) (tempC : Nat)
  /-- RFG_WINDOW_CLEAR (R180): Every WINDOW_MS all rockfall sampler counts clear. -/
  | rfgWindowClear
  /-- RFG_TOKEN (R181): Every TOKEN_US a throttle bucket gains a token, releasing a waiting activation. -/
  | rfgToken (b : Nat) (i : Nat)
  /-- RFG_HOLD_EXPIRY (R181): HOLD_MS after the last detection, a requester's throttle on a bank ends. -/
  | rfgHoldExpiry (b : Nat) (i : Nat)
  /-- CAMP_TRAIN_STAGE_DONE (R184): A training stage of a channel, DIMM or rank group completes or fails, and the next stage starts or a retry follows. -/
  | campTrainStageDone (ch : Nat) (res : TrainResult)
  /-- ZQ_TIMER (R186): Every ZQ_MS the part runs ZQ calibration on every rank. -/
  | zqTimer
  /-- DQSOSC_READ (R186): Every DQSOSC_MS the part reads the DQS oscillators, and drift beyond RETRAIN_PS starts write centring. -/
  | dqsoscRead (ch : Nat) (rank : Nat) (driftPs : Nat)
  /-- CENTRING_ESCALATION (R186): Write centring not finished within 10 ms has its remaining slices raised to rank 1. -/
  | centringEscalation (ch : Nat) (rank : Nat)
  /-- FRAME_MOVE_DONE (R191): A slab moved off a retired frame is installed in its new frame and its translation entry changes. -/
  | frameMoveDone (slab : Nat)
  /-- VALLEY_READ_DONE (R202): A NAND read returns; each codeword decodes at the lowest level that succeeds, or climbs. -/
  | valleyReadDone (vloc : Nat) (cw : Nat) (level : DecodeLevel) (bits : Nat)
  /-- VALLEY_PROGRAM_DONE (R211): A NAND program completes, and a status failure retires its block. -/
  | valleyProgramDone (vloc : Nat) (ok : Bool) (pct : Nat)
  /-- NAND_RESET_TIMEOUT (R212): A die does not complete Reset and Read Status within 10 ms after two tries. -/
  | nandResetTimeout (die : Nat)
  /-- VALLEY_ERASE_DONE (R219): A block erase completes and its erase-done record follows. -/
  | valleyEraseDone (block : Nat) (ok : Bool) (pct : Nat)
  /-- PROGRAM_WAIT_EXPIRY (R203): A program or erase that has waited 5 ms moves up to rank 2. -/
  | programWaitExpiry (die : Nat)
  /-- STRIPE_CLOSE_TIMER (R199): A stripe still open STRIPE_CLOSE_MS after its first data page is closed with pad pages. -/
  | stripeCloseTimer (stripe : Nat)
  /-- JOURNAL_PAGE_TIMER (R216): 500 µs after its first record, a journal page is programmed. -/
  | journalPageTimer
  /-- TABLE_LOG_PAGE_TIMER (R218): 500 µs after its first record, a table-log page is programmed. -/
  | tableLogPageTimer
  /-- LOGBOOK_PAGE_TIMER (R221): At least once a second, the partial logbook page is programmed again as a new copy. -/
  | logbookPageTimer
  /-- VERIFY_PASS_READ (R209): The read-verify pass reads the next valid page, and refreshes or rebuilds it when needed. -/
  | verifyPassRead (page : VerifyPage) (level : DecodeLevel) (bits : Nat)
  /-- CS_ERASE (R224): The cairn ROM service erases and verifies a sector. -/
  | csErase (sector : Nat) (tries : Nat)
  /-- CS_PROGRAM (R224): The cairn ROM service programs and verifies a 256-byte row. -/
  | csProgram (off : Nat) (data : Bytes) (tries : Nat)
  /-- CS_VERIFY (R224): The cairn ROM service margin-reads an extent and compares it with a SHA-384 digest. -/
  | csVerify (off : Nat) (len : Nat) (digest : Bytes) (readback : Bytes)
  /-- CS_COMMIT (R224): The cairn ROM service checks an area and programs its commit row. -/
  | csCommit (area : CairnArea) (crcOk : Bool)
  /-- CS_BANK_VERIFY (R295): The cairn ROM service margin-reads a firmware bank and checks its signature. -/
  | csBankVerify (bank : Nat) (img : BankImage)
  /-- CS_WEAR (R224): The cairn ROM service returns the erase counts and the spares left. -/
  | csWear
  /-- PITCH_LOG_FLUSH_TIMER (R227): The hourly pitch-log flush copies the rings into a cairn flush image. -/
  | pitchLogFlushTimer
  /-- LINE_REPAIR_DONE (R237): A repair source answers for an uncorrectable line; the line is written back, or poisoned when no source answers. -/
  | lineRepairDone (line : Nat) (data : Option Bytes)
  /-- FAULT_WINDOW_BUCKET (R244): The sliding fault-count windows advance by one bucket. -/
  | faultWindowBucket (hourly : Bool)
  /-- SCRUB_STEP (R246): The camp patrol scrub reads the next code word and writes back a corrected word or repairs an uncorrectable one. -/
  | scrubStep (word : Bytes)
  /-- SRAM_SCRUB_STEP (R248): The SRAM scrub reads a word and writes back a corrected word. -/
  | sramScrubStep (store : SramStore) (at_ : Nat) (bad : Nat)
  /-- SUMMIT_FILL_DONE (R258): A summit fill completes and the misses waiting on it are served. -/
  | summitFillDone (line : Nat)
  /-- DIRTY_EVICT_ADMITTED (R257): A dirty victim's write enters the write queue; the fill's read and the waiting requests proceed. -/
  | dirtyEvictAdmitted (line : Nat)
  /-- LOCK_WAYS_WRITE (R261): A write of SUM_CFG.LOCK_WAYS cleans and locks the new ways, or is ignored. -/
  | lockWaysWrite (off : Nat) (data : Bytes)
  /-- WAY_CLEAN_DONE (R266): A summit way's clean walk ends and the way's domain switches off. -/
  | wayCleanDone
  /-- CIPHER_REQUEST_DONE (R281): A cipher pipeline finishes a request; a failed title tag stops the sealed READ with CONTENT_INTEGRITY. -/
  | cipherRequestDone (ok : Bool)
  /-- KEY_DERIVATION_DONE (R276): A lost slot key is derived again and the request waiting on it proceeds. -/
  | keyDerivationDone (slot : Nat)
  /-- ROOT_REUNWRAP (R274): A root lost to an SRAM error is unwrapped again from its stored blob within 1 ms. -/
  | rootReunwrap (root : Nat)
  /-- KNOWN_ANSWER_TEST (R439): Every 10 s each cipher pipeline and check-value unit self-tests, and a failing one is taken out of use. -/
  | knownAnswerTest (isCvu : Bool) (unit : Nat) (pass : Bool)
  /-- HELLO (R305): A HELLO from the twin, on the rope or the belay wires, is weighed in the role decision of Table 11-1. -/
  | hello (hdr : Option RopeHdr) (h : Hello)
  /-- NEGOTIATE_TIMEOUT (R305): No HELLO is answered within NEGOTIATE_S, and the part opens single or waits. -/
  | negotiateTimeout
  /-- ORDER (R317): An ORDER frame of order records arrives at the Second and is queued for in-order application. -/
  | order (h : RopeHdr) (recs : List OrderRec)
  /-- OPERATION (R318): The Second applies an OPERATION record in index order, discarding the held request or applying the write or atomic. -/
  | operation
  /-- COMMAND (R318): The Second applies a mirrored COMMAND record to its tables. -/
  | command
  /-- TOPO (R318): The Second applies a TOPO record with a new step marker. -/
  | topo
  /-- CHAIN (R318): The Second applies a CHAIN record of a trigger, run start, run end or queue error. -/
  | chain
  /-- PART_MSG (R318): The Second records a PUSH or EVENT that the Lead is about to send. -/
  | partMsg
  /-- IV_RESERVE (R322): The Second records a new reserved invocation limit for sealed packets from the part. -/
  | ivReserve
  /-- EPOCH_MARK (R318): The Second records the Lead's periodic timebase mark. -/
  | epochMark
  /-- HANDOVER (R334): The returning twin applies records up to the old Lead's last index, takes the token and starts ordering. -/
  | handover
  /-- CONFIRM (R321): A CONFIRM frame advances the Second's applied index at the Lead, releasing the responses that waited. -/
  | confirm (h : RopeHdr) (idx : Nat)
  /-- RENEW (R323): A lease renewal reaches the Second on either path, which extends its expiry and answers with an acknowledgement. -/
  | renew (src : LeaseSrc) (seq : Nat)
  /-- RENEW_ACK (R323): An acknowledgement of a renewal reaches the Lead, which extends its lease end. -/
  | renewAck (src : LeaseSrc) (seq : Nat)
  /-- RENEWAL_TIMER (R323): Every 25 µs the Lead sends a renewal on every rope instance that is up and on BW_OUT. -/
  | renewalTimer
  /-- LEASE_END (R323): The Lead reaches its lease end with no later renewal acknowledged, and fences. -/
  | leaseEnd
  /-- LEASE_EXPIRY (R323): The Second reaches its expiry with no later renewal, and detects the loss of the Lead. -/
  | leaseExpiry
  /-- GUARD_END (R325): The 30 µs guard passes with no renewal, and the Second takes the token and runs the takeover. -/
  | guardEnd
  /-- FILL_REQ (R319): The Lead answers a rope fill request with FILL_DATA from its held payload. -/
  | fillReq (h : RopeHdr) (idxs : List Nat)
  /-- FILL_DATA (R319): The Second applies a filled payload and discards its own copy. -/
  | fillData (h : RopeHdr) (idx : Nat) (off : Nat) (data : Bytes)
  /-- FILL_WAIT_EXPIRY (R319): FILL_WAIT_US passes with the payload missing or mismatched, and the Second sends FILL_REQ. -/
  | fillWaitExpiry
  /-- FETCH_REQ (R338): The partner answers a line or repair fetch with lines and poison masks, or with not held. -/
  | fetchReq (h : RopeHdr) (f : Fetch)
  /-- FETCH_DATA (R338): The asking twin writes the fetched lines into the slab and relocates its valley page. -/
  | fetchData (h : RopeHdr) (f : Fetch) (ans : FetchAnswer)
  /-- REPAIR_TIMEOUT (R339): A repair fetch goes unanswered for REPAIR_MS, and the waiting requests are served with poisoned lines. -/
  | repairTimeout (slab : Nat)
  /-- CATCHUP (R331): The Second receives a catch-up slab and installs it when its applied index reaches the stamp. -/
  | catchup (h : RopeHdr) (slab : Nat) (data : Bytes) (poison : List Nat) (stamp : Nat)
  /-- CONTROL (R311): A CONTROL frame delivers title bindings, a state transfer or digest lists to the twin. -/
  | control (h : RopeHdr) (c : Control)
  /-- RETURN_REQUEST (R334): A return request from the preferred Lead sets the team RETURNING and starts the copy of unroped slabs. -/
  | returnRequest (h : RopeHdr)
  /-- ROPE_ACK (R316): A rope ACK frame releases rope frames up to its ack sequence. -/
  | ropeAck (h : RopeHdr)
  /-- ROPE_RETRANSMIT_TIMER (R316): A rope instance's 4 µs retransmit timer expires and go-back-N resends, bringing the instance down after 7 retries. -/
  | ropeRetransmitTimer (inst : Nat)
  /-- ROPE_INSTANCE_DOWN (R315): A rope instance goes down and its frames move to the other instance. -/
  | ropeInstanceDown (inst : Nat)
  /-- ROPE_INSTANCE_UP (R315): A rope instance comes up again. -/
  | ropeInstanceUp (inst : Nat)
  /-- HOLD_TIME_EXPIRY (R328): In ROPE_CUT, a roped WRITEP or FLUSH held for HOLD_MS completes with SINGLE_COPY. -/
  | holdTimeExpiry (idx : Nat)
  /-- LEAD_PATH_TIMEOUT (R308): No path to the Lead reopens within 10 ms, and the Lead declares the connection in error. -/
  | leadPathTimeout (conn : Nat)
  /-- EPOCH_MARK_TIMER (R329): Every 100 ms the Lead sends EPOCH_MARK, clears the older bitmap bits and saves the rope bitmap. -/
  | epochMarkTimer
  /-- RETURN_HOLDOFF (R332): The preferred Lead, Second and ROPED for HOLDOFF_S with RETURN_EN set, starts a return. -/
  | returnHoldoff
  /-- DEPARTURE (R436): A departure word from the twin is received; a Lead enters SINGLE, and a Second logs it. -/
  | departure (wd : BitVec 32)
  /-- PD0_POWER_UP (R344): PD0 powers up, the timebase starts, the sequence fuses load and the thermal monitor starts. -/
  | pd0PowerUp
  /-- VIN_GOOD (R348): PS_VIN_SENSE stays above the good threshold for VIN_GOOD_MS, and a pending start of the rails may begin. -/
  | vinGood
  /-- GROUP_DELAY_EXPIRY (R349): A rail group's DELAY_100US ends and its PS_EN outputs are driven high. -/
  | groupDelayExpiry
  /-- PS_PG_RISE (R349): A rail's power-good rises and its dwell begins. -/
  | psPgRise (rail : Nat)
  /-- DWELL_END (R349): A rail's power-good has held for its dwell; its group completes and the next group's delay starts. -/
  | dwellEnd (rail : Nat)
  /-- PG_TIMEOUT (R350): A rail does not reach good and hold its dwell within PG_TIMEOUT_MS, and the start stops with a rail fault. -/
  | pgTimeout (rail : Nat)
  /-- PS_PG_FALL (R351): A power-good falls; the fall is a chatter, or starts the loss timer. -/
  | psPgFall (rail : Nat)
  /-- PG_LOSS (R351): A power-good fall lasts more than PG_LOSS_US and is a rail fault. -/
  | pgLoss (rail : Nat)
  /-- MONITOR_READING (R346): The ADC reads a PS_MON channel; two successive readings outside the window are a monitor fault. -/
  | monitorReading (ch : Nat) (pinMv : Nat)
  /-- GRACE_EXPIRY (R353): An orderly shutdown not finished within GRACE_S starts a bivouac with cause 4. -/
  | graceExpiry
  /-- DISCHARGE_END (R354): Each rail of a shutdown group is discharged, or its DISCH_MS passes, and the next group is disabled. -/
  | dischargeEnd (rail : Nat) (timedOut : Bool)
  /-- BIV_STEP_TIMER (R354): At the end of a bivouac the shutdown steps to the next group every BIV_STEP_10US. -/
  | bivStepTimer
  /-- INPUT_COLLAPSE (R356): PS_VIN_SENSE falls below the collapse threshold, and the sequencer responds according to its state. -/
  | inputCollapse
  /-- BIVOUAC_STEP_DONE (R359): A bivouac step B1 to B6 completes and the next one begins. -/
  | bivouacStepDone
  /-- BIVOUAC_ENERGY_LOST (R357): A needed rail leaves its window during a bivouac, and every PS_EN is released at once. -/
  | bivouacEnergyLost
  /-- HOLDUP_FALL (R363): PS_HOLDUP_OK falls in service, and new reservations become write-through. -/
  | holdupFall
  /-- HOLDUP_RESTORED (R363): PS_HOLDUP_OK has been high again for 1 s and WRITE_THROUGH clears. -/
  | holdupRestored
  /-- HOLDUP_WAIT_EXPIRY (R362): PS_HOLDUP_OK is still low HOLDUP_WAIT_S after replay, and service does not open. -/
  | holdupWaitExpiry
  /-- BUTTON_RECOGNISED (R368): PS_BTN_N has been low for 50 ms and is recognised as a press. -/
  | buttonRecognised
  /-- SHORT_PRESS (R368): A press is released before BTN_LONG_S, and starts an orderly shutdown or the rails. -/
  | shortPress
  /-- LONG_PRESS (R368): A press is still held at BTN_LONG_S, and starts a bivouac or a reverse-order shutdown. -/
  | longPress
  /-- MANUAL_RESET (R369): PS_MRST_N is held low for 1 µs and a device reset starts. -/
  | manualReset
  /-- MANUAL_RESET_RELEASE (R369): PS_MRST_N rises and the part leaves reset to start at stage 4. -/
  | manualResetRelease
  /-- RESTART_DUE (R370): 1 s after discharge at the end of PWR_CYCLE, the rails are restarted. -/
  | restartDue
  /-- VDD_AON_LOW (R491): VDD_AON falls below 0.785 V and PD0 sends the departure word. -/
  | vddAonLow
  /-- THERMAL_SCAN (R374): Every 100 µs the monitor reads all 48 sensors, votes the zones and acts on the thresholds. -/
  | thermalScan (rd : List (Option Int))
  /-- GRACE_END (R379): The grace time ends with a zone still hot, and slowdown is enforced. -/
  | graceEnd
  /-- CEILING_STEP (R379): The thermal ceiling moves 10 mV down every 10 ms or up every 100 ms, and enforcement ends when it reaches REQ. -/
  | ceilingStep
  /-- COOL (R382): Every zone has read below the restart level for 30 s; THM_TRIP_N returns high and starts are allowed again. -/
  | cool
  /-- GUIDE_HANG (R438): 10 ms pass without a heartbeat from a guide, which is re-initialised on rung 2. -/
  | guideHang (g : Nat)
  /-- SD_REFCLK_LOSS (R437): Loss of SD_REFCLK brings every sub-port and rope instance down, and a Lead fences. -/
  | sdRefclkLoss
  /-- SD_REFCLK_RESTORED (R437): SD_REFCLK has been present for 1 ms, and the sub-ports and rope instances are re-initialised. -/
  | sdRefclkRestored
  /-- START_STAGE_DONE (R451): A start stage ends and the next stage of Table 17-2 begins. -/
  | startStageDone (info : StageInfo)
  /-- COMMAND_PENDING_TIMER (R397): A command still executing after 100 ms is answered PENDING. -/
  | commandPendingTimer (t : Nat)
  /-- GUIDE_WAIT_TIMEOUT (R395): A command that no guide takes within 10 ms is answered NO_GUIDE. -/
  | guideWaitTimeout (t : Nat)
  /-- ID_QUERY (R400): Returns the part, grade, serial number, firmware, boot count, service state and role. -/
  | idQuery (t : Nat)
  /-- LIMITS_QUERY (R400): Returns the limits of Table 1-6 and their current use. -/
  | limitsQuery (t : Nat)
  /-- IDENTITY_SET (R401): Creates or replaces a host identity record with its keys, quota and flags. -/
  | identitySet (t : Nat)
  /-- IDENTITY_REMOVE (R400): Removes an identity, closing its connections, draining its regions and removing its fences. -/
  | identityRemove (t : Nat) (ident : Nat)
  /-- IDENTITY_QUERY (R400): Returns an identity record without keys, with its open connections. -/
  | identityQuery (t : Nat) (ident : Nat)
  /-- AUTH_KEY_SET (R388): Sets the operator or custodian management key. -/
  | authKeySet (t : Nat)
  /-- REGION_REGISTER (R85): Registers a region on an object and returns its region key. -/
  | regionRegister (t : Nat)
  /-- REGION_QUERY (R84): Returns a region descriptor and its refusal counter. -/
  | regionQuery (t : Nat) (key : Nat)
  /-- REGION_REVOKE (R92): Sets a region DRAINING and is answered when it reaches REVOKED. -/
  | regionRevoke (t : Nat) (key : Nat)
  /-- ACCESS_GROUP_SET (R86): Sets the membership map of an access group. -/
  | accessGroupSet (t : Nat) (grp : Nat) (members : List Nat)
  /-- ACCESS_GROUP_QUERY (R400): Returns the owner and map of an access group. -/
  | accessGroupQuery (t : Nat) (grp : Nat)
  /-- LANDING_REGISTER (R106): Registers a landing buffer bound to the carrying connection. -/
  | landingRegister (t : Nat) (key : Nat) (len : Nat)
  /-- LANDING_REMOVE (R106): Removes a landing buffer. -/
  | landingRemove (t : Nat) (key : Nat)
  /-- CONN_QUERY (R400): Returns a connection's paths, windows, open messages and retry counts. -/
  | connQuery (t : Nat) (conn : Nat)
  /-- CONN_CLOSE (R80): Closes a connection with CLOSE reason 0x01. -/
  | connClose (t : Nat) (conn : Nat)
  /-- CHAIN_QUEUE_CREATE (R108): Creates a chain queue with the descriptor of Table 4-7. -/
  | chainQueueCreate (t : Nat) (q : Nat) (owner : Nat) (oconn : Nat) (repeatMode : Bool) (depth : Nat) (report : Nat)
  /-- CHAIN_POST (R109): Posts up to 63 work requests at the tail of a chain queue, starting a run if a trigger is pending. -/
  | chainPost (t : Nat) (q : Nat) (wrs : List Bytes)
  /-- CHAIN_RESET (R114): Returns a chain queue from ERROR to IDLE and places its head. -/
  | chainReset (t : Nat) (q : Nat)
  /-- CHAIN_QUEUE_DELETE (R400): Deletes an IDLE chain queue and unbinds its tags. -/
  | chainQueueDelete (t : Nat) (q : Nat)
  /-- CHAIN_QUERY (R400): Returns the fields of a chain queue. -/
  | chainQuery (t : Nat) (q : Nat)
  /-- TRIGGER_BIND (R112): Binds a trigger tag to a chain queue and an access group. -/
  | triggerBind (t : Nat) (tag : Nat) (q : Nat) (grp : Nat)
  /-- TRIGGER_UNBIND (R112): Unbinds a trigger tag. -/
  | triggerUnbind (t : Nat) (tag : Nat)
  /-- PORT_CONFIG (R68): Sets sub-port modes and the host-port configuration registers, refused whole when out of range. -/
  | portConfig (t : Nat) (writes : List (Nat × BitVec 64)) (restore : List Nat)
  /-- OBJECT_CREATE (R129): Creates an object and returns its number and base. -/
  | objectCreate (t : Nat)
  /-- OBJECT_QUERY (R130): Returns an object record. -/
  | objectQuery (t : Nat) (obj : Nat)
  /-- OBJECT_SET_PLACEMENT (R133): Changes an object's placement class slab by slab, loading pinned slabs. -/
  | objectSetPlacement (t : Nat) (obj : Nat) (cls : Nat)
  /-- OBJECT_EVICT (R149): Evicts an extent of an object, declining the slabs that are in use. -/
  | objectEvict (t : Nat) (obj : Nat) (start : Nat) (len : Nat)
  /-- OBJECT_TRIM (R135): Returns a slab-aligned extent of an OPEN object to UNWRITTEN. -/
  | objectTrim (t : Nat) (obj : Nat) (start : Nat) (len : Nat)
  /-- OBJECT_DELETE (R135): Drains an object's regions, then returns its slabs to UNWRITTEN and frees its number. -/
  | objectDelete (t : Nat) (obj : Nat)
  /-- OBJECT_PUBLISH (R134): Publishes an unroped object, optionally sealed, after destage, object check and tag verification. -/
  | objectPublish (t : Nat)
  /-- TOPO_CREATE (R151): Creates a topo header. -/
  | topoCreate (t : Nat)
  /-- TOPO_STEP_ADD (R151): Adds one step of extents to a topo. -/
  | topoStepAdd (t : Nat) (topo : Nat)
  /-- TOPO_COMMIT (R151): Makes a complete topo active and queues prefetch of its window. -/
  | topoCommit (t : Nat) (topo : Nat)
  /-- TOPO_DELETE (R151): Removes a topo and ends the protection of its window. -/
  | topoDelete (t : Nat) (topo : Nat)
  /-- TOPO_ADVANCE (R153): Sets a topo's step marker and queues prefetch. -/
  | topoAdvance (t : Nat) (topo : Nat) (step : Nat)
  /-- TOPO_QUERY (R400): Returns a topo's marker, window and prefetch progress. -/
  | topoQuery (t : Nat) (topo : Nat)
  /-- SUM_RELOAD (R263): Loads the locked summit slots of an extent of a pin-summit object. -/
  | sumReload (t : Nat) (obj : Nat) (start : Nat) (len : Nat)
  /-- SUM_INVALIDATE (R264): Writes back and invalidates the summit lines of an extent. -/
  | sumInvalidate (t : Nat) (addr : Nat) (len : Nat)
  /-- RANGE_CONFIG (R458): Sets range size, bivouac budget and locked ways, which may format the valley and open the configuration gate. -/
  | rangeConfig (t : Nat) (w : BitVec 64) (lockWays : Nat)
  /-- KEY_ROOT_LOAD (R273): Unwraps a root blob, loads the root and stores the blob. -/
  | keyRootLoad (t : Nat)
  /-- KEY_ROOT_UNLOAD (R273): Removes a root and its stored blob. -/
  | keyRootUnload (t : Nat) (root : Nat)
  /-- KEY_ROOT_QUERY (R400): Returns KEY_ROOT_STATUS and the root IDs. -/
  | keyRootQuery (t : Nat)
  /-- KEY_SESSION_QUERY (R280): Returns a connection's session slot number, LIMIT_LOG2, AUTO_ROLL and GEN_MAX. -/
  | keySessionQuery (t : Nat) (conn : Nat)
  /-- KEY_SLOT_STEP (R285): Raises GEN_MAX of a session slot by 1 and returns an EXHAUSTED slot to BOUND. -/
  | keySlotStep (t : Nat) (slot : Nat)
  /-- KEY_SLOT_QUERY (R400): Returns a key slot's fields without its key. -/
  | keySlotQuery (t : Nat) (slot : Nat)
  /-- KEY_CONFIG (R303): Writes KEY_CFG. -/
  | keyConfig (t : Nat) (w : BitVec 64)
  /-- CONTENT_UNSEAL (R292): Decrypts an extent of a sealed object into a destination region. -/
  | contentUnseal (t : Nat) (srcKey : Nat) (obj : Nat) (unit : Nat) (count : Nat) (dstKey : Nat) (dstAddr : Nat)
  /-- CVU_CONTEXT_SET (R300): Sets a check-value context's parameters, owner and running value. -/
  | cvuContextSet (t : Nat) (ctx : Nat) (par : CrcPar) (owner : Nat) (chained : Bool) (run : Option (BitVec 64))
  /-- CVU_CONTEXT_GET (R301): Returns a context's parameters, running value and last result. -/
  | cvuContextGet (t : Nat) (ctx : Nat)
  /-- ROPE_QUERY (R400): Returns the rope status, index, epoch and fills per connection. -/
  | ropeQuery (t : Nat)
  /-- ROPE_HANDOVER (R332): Runs a planned handover of the Lead role. -/
  | ropeHandover (t : Nat)
  /-- ROPE_RETURN_ENABLE (R333): Sets or clears RL_CFG.RETURN_EN. -/
  | ropeReturnEnable (t : Nat)
  /-- ROPE_SOLO (R305): Orders the part to open service single when no twin answers. -/
  | ropeSolo (t : Nat)
  /-- ROPE_CONFIG (R341): Writes RL_CFG. -/
  | ropeConfig (t : Nat) (w : BitVec 64)
  /-- PWR_STATUS (R400): Returns the sequencer status, faults, monitor readings and replay counts. -/
  | pwrStatus (t : Nat)
  /-- PWR_SHUTDOWN (R353): Starts an orderly shutdown. -/
  | pwrShutdown (t : Nat)
  /-- VCORE_SET (R25): Sets the requested core voltage. -/
  | vcoreSet (t : Nat) (req : Nat)
  /-- THERMAL_STATUS (R400): Returns the thermal status, broken sensors and zone readings. -/
  | thermalStatus (t : Nat)
  /-- THERMAL_CONFIG (R384): Writes THM_CFG. -/
  | thermalConfig (t : Nat) (w : BitVec 64)
  /-- DOMAIN_SWITCH (R38): Switches a power domain on or off when its authority and precondition allow. -/
  | domainSwitch (t : Nat) (d : Nat) (on : Bool)
  /-- SEQ_CONFIG (R373): Writes SEQ_CFG. -/
  | seqConfig (t : Nat) (w : BitVec 64)
  /-- LOG_READ (R419): Returns a summary and logbook records from a start sequence number. -/
  | logRead (t : Nat)
  /-- LOG_CLEAR (R421): Discards every logbook record and appends LOG_CLEARED. -/
  | logClear (t : Nat)
  /-- FREEZE (R413): Stops recording in one pitch log or all of them. -/
  | freeze (t : Nat) (lg : Nat)
  /-- PLOG_READ (R413): Returns up to 127 records of a frozen pitch log or of a flush image. -/
  | plogRead (t : Nat)
  /-- THAW (R413): Resumes a frozen pitch log and appends FREEZE_GAP. -/
  | thaw (t : Nat) (lg : Nat)
  /-- AUTO_THAW (R413): 10 s after the latest FREEZE that named it, a pitch log thaws by itself. -/
  | autoThaw (lg : Nat)
  /-- TELEMETRY_READ (R400): Returns the status and counter registers of one block. -/
  | telemetryRead (t : Nat) (base : Nat)
  /-- NQ_CONFIG (R423): Sets the routing of notification sources to queues. -/
  | nqConfig (t : Nat) (src : Nat) (q : Option Nat)
  /-- SCRUB_CONFIG (R251): Writes CAMP_CODE_CFG. -/
  | scrubConfig (t : Nat) (w : BitVec 64)
  /-- CAMP_FAULT_LIST (R400): Lists devices marked failed, pending-repair rows and soft map entries. -/
  | campFaultList (t : Nat)
  /-- CAMP_CONFIG (R194): Writes CAMP_SCHED_CFG, CAMP_RFG_CFG and CAMP_REF_CFG. -/
  | campConfig (t : Nat) (sched : BitVec 64) (rfg : BitVec 64) (ref : BitVec 64)
  /-- CAMP_ROW_RETIRE (R191): Handles a named row as lasting, retiring its frames. -/
  | campRowRetire (t : Nat) (ch : Nat) (sub : Nat) (rank : Nat) (bank : Nat) (row : Nat)
  /-- VALLEY_CONFIG (R229): Writes VAL_CFG. -/
  | valleyConfig (t : Nat) (w : BitVec 64)
  /-- VALLEY_STATUS (R400): Returns the valley status registers and the endurance indicators per die. -/
  | valleyStatus (t : Nat)
  /-- FIRMWARE_WRITE (R402): Writes firmware data into a bank, erasing sectors and invalidating the commit row. -/
  | firmwareWrite (t : Nat)
  /-- FIRMWARE_VERIFY (R400): Verifies a bank and commits it. -/
  | firmwareVerify (t : Nat) (bank : Nat) (img : BankImage)
  /-- FIRMWARE_SELECT (R454): Sets the boot preference in the cairn configuration. -/
  | firmwareSelect (t : Nat) (bank : Nat)
  /-- FIRMWARE_COMMIT (R296): Raises the eFuse security counter to the running bank's security version. -/
  | firmwareCommit (t : Nat)
  /-- CONFIG_SAVE (R507): Writes the current settings into the configuration copy not in force and commits it. -/
  | configSave (t : Nat)
  /-- CAIRN_STATUS (R400): Returns VAL_CAIRN_STATUS and the cairn wear. -/
  | cairnStatus (t : Nat)
  /-- LADDER_RETRY (R448): Starts rung 1 for a named function. -/
  | ladderRetry (t : Nat)
  /-- LADDER_REINIT (R448): Starts rung 2 for a named function. -/
  | ladderReinit (t : Nat)
  /-- DEVICE_RESET (R461): Puts camp into self-refresh, writes the integrity record and resets every domain except PD0. -/
  | deviceReset (t : Nat)
  /-- PWR_CYCLE (R442): Runs a bivouac, a reverse-order shutdown and a restart. -/
  | pwrCycle (t : Nat)
  /-- LADDER_STATUS (R448): Returns the rung in progress and the rung counts of each function. -/
  | ladderStatus (t : Nat)
  /-- PORT_QUIESCE (R406): Quiesces or resumes a sub-port, declaring its paths down. -/
  | portQuiesce (t : Nat)
  /-- CONN_FENCE (R406): Puts a connection in error at once. -/
  | connFence (t : Nat)
  /-- HOST_FENCE (R406): Fences or unfences a host identity, optionally closing its connections. -/
  | hostFence (t : Nat)
  /-- REGION_FENCE (R406): Fences or unfences a region. -/
  | regionFence (t : Nat)
  /-- BRAKE_STATUS (R407): Returns the quiesced sub-ports, fenced identities and regions, and discarded commands. -/
  | brakeStatus (t : Nat)
  /-- I3C_PRIVATE_WRITE (R393): The BMC writes a whole command packet in one I3C private write. -/
  | i3cPrivateWrite (data : Bytes)
  /-- I3C_PRIVATE_READ (R393): The BMC reads a reply by I3C private read after the in-band interrupt. -/
  | i3cPrivateRead
  /-- ENTDAA (R393): The I3C target takes part in dynamic address assignment. -/
  | entdaa (addr : Nat)
  /-- SETDASA (R501): The I3C target takes a dynamic address from its static address 0x2A. -/
  | setdasa (stat : Nat) (addr : Nat)
  /-- RSTDAA (R393): The I3C target resets its dynamic address. -/
  | rstdaa
  /-- ENEC (R393): The I3C target enables in-band interrupts. -/
  | enec
  /-- DISEC (R393): The I3C target disables in-band interrupts. -/
  | disec
  /-- GETPID (R393): The I3C target returns its provisioned ID. -/
  | getpid
  /-- GETBCR (R393): The I3C target returns its BCR. -/
  | getbcr
  /-- GETDCR (R393): The I3C target returns its DCR. -/
  | getdcr
  /-- GETSTATUS (R393): The I3C target returns its status. -/
  | getstatus
  /-- GETMWL (R393): The I3C target reports a maximum write length of 4,160 bytes. -/
  | getmwl
  /-- GETMRL (R393): The I3C target reports a maximum read length of 4,160 bytes. -/
  | getmrl
  /-- MBX_DOORBELL (R476): A doorbell bit submits the command of a free mailbox slot, or is ignored and counted. -/
  | mbxDoorbell (bits : BitVec 8)
  /-- MBX_RELEASE (R476): A release bit frees a mailbox slot in final-reply state, or is ignored and counted. -/
  | mbxRelease (bits : BitVec 8)
  /-- MBX_GRANT_GO (R474): GO checks the grant request and replaces the grant in force if it passes. -/
  | mbxGrantGo
  /-- MBX_GRANT_DROP (R474): DROP ends the grant in force. -/
  | mbxGrantDrop
  /-- GRANT_EXPIRY (R474): A grant's duration runs out and the grant ends. -/
  | grantExpiry
  /-- MBX_INT_STATUS_WRITE (R477): A W1C write to MBX_INT_STATUS clears bits and resends the vector if bits remain set. -/
  | mbxIntStatusWrite (bits : BitVec 8)
  /-- NQ_POP (R425): A 64-byte read of NQn_POP returns and removes the oldest queue entry. -/
  | nqPop (q : Nat) (exact : Bool)
  /-- NQ_PEEK (R425): A 64-byte read of NQn_PEEK returns the oldest queue entry without removing it. -/
  | nqPeek (q : Nat) (exact : Bool)
  /-- RC_READ (R470): A register read that returns RC fields and clears them in the same action. -/
  | rcRead (off : Nat) (len : Nat)
  /-- CVU_CTX_WRITE (R475): A write to a CVU context register is ordered through the rope at a Lead and ignored at a Second. -/
  | cvuCtxWrite (off : Nat) (data : Bytes)
  /-- REGISTER_WRITE (R473): A window write to a register with no row of its own changes each field that a grant in force allows. -/
  | registerWrite (off : Nat) (data : Bytes)
  /-- PCIE_LINK_RESET (R467): A PCIe hot reset or link-down resets the endpoint configuration, the MSI-X state and the grant. -/
  | pcieLinkReset
  /-- MP_PERST_N (R502): MP_PERST_N holds the PCIe link down, and R467 applies when it rises. -/
  | mpPerstN (high : Bool)
  /-- JTAG_ACCESS (R503): A TAP operation, or a write of the rail table with factory authority before it locks. -/
  | jtagAccess (a : Jtag)
  /-- TIME_MARK_TIMER (R417): Every 60 s a TIME_MARK is appended, or the last one is rewritten. -/
  | timeMarkTimer
  /-- OPERATING_HOUR_TICK (R412): The operating-hours counter advances every 1/4,096 h of timebase. -/
  | operatingHourTick
  /-- BELAY_WIRES_LOST (R327): No belay word arrives on BW_IN for 50 µs; BELAY_UP clears and the loss of the belay wires is written to the logbook. -/
  | belayWiresLost
  /-- SYS_REFCLK_RESTORED (R30): SYS_REFCLK has been present again for 1 ms, so the timebase leaves the internal oscillator and a write of 1 may clear CLK_LOSS. -/
  | sysRefclkRestored
  /-- ALWAYS_ON_SUPPLY_FAIL (R343): The always-on supply fails; PD0 stops, every PS_EN falls to its pull-down and every rail is commanded off in no set order. -/
  | alwaysOnSupplyFail
  /-- PMB_ALERT (R490): PMB_ALERT_N from the core regulator is asserted and is written to the fabric pitch log without changing the sequence. -/
  | pmbAlert
  /-- ROPE_LANE_LOSS (R315): A rope instance loses a lane and degrades to 400GBASE-R as R44 states. -/
  | ropeLaneLoss (inst : Nat) (lane : Nat) (narrowOk : Bool)
  /-- LADDER_BOUND_EXPIRY (R442): A rung's time bound passes without success (e.g. a sub-port not trained in 2 s, service not open within 3 s, 5 s or hold-up plus 9 s), and the ladder escalates or holds the function down or the part off. -/
  | ladderBoundExpiry (f : LadderFn)
  /-- INGRESS_FRAME_DROP (R45): A received frame that is an IP fragment, carries options or two tags, fails a checksum, has a TMT version other than 2, or has a reserved type is dropped and counted in HP_RX_DROP. -/
  | ingressFrameDrop (port : Nat) (why : DropWhy)
  /-- MSIX_ENABLE (R477): Bus Master Enable and MSI-X Enable become set in PCIe configuration space, and one message is sent for each interrupt source still set. -/
  | msixEnable
  /-- SD_REFCLK_WAIT_TIMEOUT (R452): Start-up has been held at stage 3 for 100 ms without SD_REFCLK, and the part writes a record. -/
  | sdRefclkWaitTimeout
  deriving DecidableEq, Repr

end Sys2Proof
end

