-- ==== Sys2Proof/WellFormed.lean ====
section
/-! DEFINITION. Which commands are well formed: every operand names a unit, index or field value that the part has
(Tables 1-6, 2-4, 12-1 and the register map). A command that is not well formed names a unit that does not exist. -/

namespace Sys2Proof

/-- The operation code of an atomic extension (Table 3-4): CAS64 where there is none. -/
def atomicCode (p : Pkt) : Nat := ((p.exts.find? (·.ty == 2)).map (·.lo.toNat / 256)).getD 1

/-- Whether a packet carries a trigger extension. -/
def hasTrigger (p : Pkt) : Bool := p.exts.any (·.ty == 3)

/-- The control code of a connection-control packet: the first byte of its payload (Table 3-10). -/
def controlCode (p : Pkt) : Nat := match p.payload with | b :: _ => b.toNat | [] => 0

/-- Operands of FAB_VCORE_REQ_WRITE. -/
def wfFabVcoreReqWrite (off : Nat) (data : Bytes) : Bool := (off == 0x1010 || off == 0x1014) && (data.length == 4 || (data.length == 8 && off == 0x1010))

/-- Operands of AVS_STEP_ACK. -/
def wfAvsStepAck (mv : Nat) : Bool := decide (mv < 4096)

/-- Operands of AVS_READBACK. -/
def wfAvsReadback (mv : Nat) : Bool := decide (mv < 4096)

/-- Operands of STALL_WDOG_SAMPLE. -/
def wfStallWdogSample (stuck : List (Nat × Nat)) : Bool := (stuck.all fun p => p.1 < 128)

/-- Operands of PD_IDLE_GATE. -/
def wfPdIdleGate (d : Nat) : Bool := decide (d < 128)

/-- Operands of PD_WAKE. -/
def wfPdWake (d : Nat) : Bool := decide (d < 128)

/-- Operands of PD_POWER_UP_GRANT. -/
def wfPdPowerUpGrant (d : Nat) : Bool := decide (d < 128)

/-- Operands of HOST_LANE_LOSS. -/
def wfHostLaneLoss (port : Nat) (lane : Nat) : Bool := decide (port < 8) && decide (lane < 8)

/-- Operands of SUBPORT_LINK_UP. -/
def wfSubportLinkUp (sub : Nat) : Bool := decide (sub < 32)

/-- Operands of FRAME_TRANSMIT. -/
def wfFrameTransmit (x : Nat) : Bool := decide (x < 34)

/-- Operands of READ_REQ. -/
def wfReadReq (p : Pkt) : Bool := (p.sub < 32 && (p.ty == 0 || p.ty == 5 || p.ty == 6 || p.ty == 9))

/-- Operands of WRITE_REQ. -/
def wfWriteReq (p : Pkt) : Bool := (p.sub < 32 && p.ty == 1)

/-- Operands of WRITEP_REQ. -/
def wfWritepReq (p : Pkt) : Bool := (p.sub < 32 && p.ty == 2 && p.mlen != 0)

/-- Operands of FLUSH. -/
def wfFlush (p : Pkt) : Bool := (p.sub < 32 && p.ty == 2 && p.mlen == 0)

/-- Operands of CAS64. -/
def wfCas64 (p : Pkt) : Bool := (p.sub < 32 && p.ty == 3 && atomicCode p != 2 && atomicCode p != 3)

/-- Operands of FADD64. -/
def wfFadd64 (p : Pkt) : Bool := (p.sub < 32 && p.ty == 3 && atomicCode p == 2)

/-- Operands of CAS128. -/
def wfCas128 (p : Pkt) : Bool := (p.sub < 32 && p.ty == 3 && atomicCode p == 3)

/-- Operands of SEND. -/
def wfSend (p : Pkt) : Bool := (p.sub < 32 && p.ty == 4 && ! hasTrigger p)

/-- Operands of TRIGGERED_SEND. -/
def wfTriggeredSend (p : Pkt) : Bool := (p.sub < 32 && p.ty == 4 && hasTrigger p)

/-- Operands of ACK. -/
def wfAck (p : Pkt) : Bool := (p.sub < 32 && p.ty == 7)

/-- Operands of NAK. -/
def wfNak (p : Pkt) : Bool := (p.sub < 32 && p.ty == 8)

/-- Operands of MGMT. -/
def wfMgmt (p : Pkt) : Bool := (p.sub < 32 && p.ty == 10 && p.mgmt)

/-- Operands of CONNECT. -/
def wfConnect (p : Pkt) : Bool := (p.sub < 32 && p.ty == 10 && ! p.mgmt && controlCode p == 1)

/-- Operands of PATH_OPEN. -/
def wfPathOpen (p : Pkt) : Bool := (p.sub < 32 && p.ty == 10 && ! p.mgmt && controlCode p == 4)

/-- Operands of CLOSE. -/
def wfClose (p : Pkt) : Bool := (p.sub < 32 && p.ty == 10 && ! p.mgmt && controlCode p == 6)

/-- Operands of CLOSED. -/
def wfClosed (p : Pkt) : Bool := (p.sub < 32 && p.ty == 10 && ! p.mgmt && controlCode p == 7)

/-- Operands of CLOSE_DRAIN_END. -/
def wfCloseDrainEnd (conn : Nat) : Bool := decide (conn < 2 ^ 24)

/-- Operands of CONTROL_RESEND. -/
def wfControlResend (conn : Nat) : Bool := decide (conn < 2 ^ 24)

/-- Operands of RETRANSMIT_TIMER_EXPIRY. -/
def wfRetransmitTimerExpiry (conn : Nat) (path : Nat) : Bool := decide (conn < 2 ^ 24) && decide (path < 4)

/-- Operands of CONN_NUMBER_FREE. -/
def wfConnNumberFree (conn : Nat) : Bool := decide (conn < 2 ^ 24)

/-- Operands of ACK_DELAY_EXPIRY. -/
def wfAckDelayExpiry (conn : Nat) (path : Nat) : Bool := decide (conn < 2 ^ 24) && decide (path < 4)

/-- Operands of COMPLETION_REPEAT. -/
def wfCompletionRepeat (conn : Nat) : Bool := decide (conn < 2 ^ 24)

/-- Operands of RNR_WAIT_EXPIRY. -/
def wfRnrWaitExpiry (conn : Nat) (path : Nat) : Bool := decide (conn < 2 ^ 24) && decide (path < 4)

/-- Operands of MSN_RANGE_WAIT_EXPIRY. -/
def wfMsnRangeWaitExpiry (conn : Nat) (path : Nat) : Bool := decide (conn < 2 ^ 24) && decide (path < 4)

/-- Operands of ZERO_WINDOW_PROBE. -/
def wfZeroWindowProbe (conn : Nat) : Bool := decide (conn < 2 ^ 24)

/-- Operands of WINDOW_RESTORE. -/
def wfWindowRestore (conn : Nat) : Bool := decide (conn < 2 ^ 24)

/-- Operands of PFC_FRAME. -/
def wfPfcFrame (sub : Nat) (prio : Nat) (quanta : Nat) : Bool := decide (sub < 32) && decide (prio < 8) && decide (quanta < 65536)

/-- Operands of PFC_PAUSE_EXPIRY. -/
def wfPfcPauseExpiry (sub : Nat) (prio : Nat) : Bool := decide (sub < 32) && decide (prio < 8)

/-- Operands of PFC_REFRESH_TIMER. -/
def wfPfcRefreshTimer (sub : Nat) (prio : Nat) : Bool := decide (sub < 32) && decide (prio < 8)

/-- Operands of WORK_REQUEST_START. -/
def wfWorkRequestStart (q : Nat) : Bool := decide (q < 4096)

/-- Operands of WORK_REQUEST_COMPLETE. -/
def wfWorkRequestComplete (q : Nat) (slot : Nat) : Bool := decide (q < 4096) && decide (slot < 4096)

/-- Operands of WORK_REQUEST_FAIL. -/
def wfWorkRequestFail (q : Nat) (slot : Nat) : Bool := decide (q < 4096) && decide (slot < 4096)

/-- Operands of PROMOTION_UNIT_FILLED. -/
def wfPromotionUnitFilled (slab : Nat) (lost : List Nat) : Bool := decide (slab < 2 ^ 34) && (lost.all fun l => l < 64)

/-- Operands of VALLEY_DIRECT_TIMER. -/
def wfValleyDirectTimer (conn : Nat) (msn : Nat) : Bool := decide (conn < 2 ^ 24) && decide (msn < 2 ^ 32)

/-- Operands of MOVER_JOB_START. -/
def wfMoverJobStart (m : Nat) : Bool := decide (m < 64)

/-- Operands of MOVER_UNIT_DONE. -/
def wfMoverUnitDone (m : Nat) : Bool := decide (m < 64)

/-- Operands of DESTAGE_PROGRAM_DONE. -/
def wfDestageProgramDone (slab : Nat) : Bool := decide (slab < 2 ^ 34)

/-- Operands of DESTAGE_PROGRAM_FAIL. -/
def wfDestageProgramFail (slab : Nat) : Bool := decide (slab < 2 ^ 34)

/-- Operands of WALKER_EVICT. -/
def wfWalkerEvict (part : Nat) : Bool := decide (part < 256)

/-- Operands of SEGMENT_REBUILD_DONE. -/
def wfSegmentRebuildDone (seg : Nat) : Bool := decide (seg < 196608)

/-- Operands of MARKER_LOG_TIMER. -/
def wfMarkerLogTimer (topo : Nat) : Bool := decide (topo < 1024)

/-- Operands of DDR_COMMAND_ISSUE. -/
def wfDdrCommandIssue (ch : Nat) (sub : Nat) : Bool := decide (ch < 16) && decide (sub < 2)

/-- Operands of CAMP_READ_DONE. -/
def wfCampReadDone (cpa : Nat) (word : Bytes) : Bool := (cpa < 2 ^ 43 && cpa % 64 == 0) && (word.length == 80)

/-- Operands of REFRESH_INTERVAL. -/
def wfRefreshInterval (ch : Nat) (rank : Nat) : Bool := decide (ch < 16) && decide (rank < 16)

/-- Operands of MR4_POLL. -/
def wfMr4Poll (ch : Nat) (rank : Nat) : Bool := decide (ch < 16) && decide (rank < 16)

/-- Operands of DIMM_TEMP_POLL. -/
def wfDimmTempPoll (ch : Nat) (dimm : Nat) (tempC : Nat) : Bool := decide (ch < 16) && decide (dimm < 2) && decide (tempC < 256)

/-- Operands of RFG_TOKEN. -/
def wfRfgToken (b : Nat) (i : Nat) : Bool := decide (b < 16384) && decide (i < 5)

/-- Operands of RFG_HOLD_EXPIRY. -/
def wfRfgHoldExpiry (b : Nat) (i : Nat) : Bool := decide (b < 16384) && decide (i < 5)

/-- Operands of CAMP_TRAIN_STAGE_DONE. -/
def wfCampTrainStageDone (ch : Nat) : Bool := decide (ch < 16)

/-- Operands of DQSOSC_READ. -/
def wfDqsoscRead (ch : Nat) (rank : Nat) : Bool := decide (ch < 16) && decide (rank < 16)

/-- Operands of CENTRING_ESCALATION. -/
def wfCentringEscalation (ch : Nat) (rank : Nat) : Bool := decide (ch < 16) && decide (rank < 16)

/-- Operands of FRAME_MOVE_DONE. -/
def wfFrameMoveDone (slab : Nat) : Bool := decide (slab < 2 ^ 34)

/-- Operands of VALLEY_READ_DONE. -/
def wfValleyReadDone (vloc : Nat) (cw : Nat) : Bool := decide (vloc < 2 ^ 34) && decide (cw < 4)

/-- Operands of VALLEY_PROGRAM_DONE. -/
def wfValleyProgramDone (vloc : Nat) : Bool := decide (vloc < 2 ^ 34)

/-- Operands of NAND_RESET_TIMEOUT. -/
def wfNandResetTimeout (die : Nat) : Bool := decide (die < 1024)

/-- Operands of VALLEY_ERASE_DONE. -/
def wfValleyEraseDone (block : Nat) : Bool := decide (block < 2 ^ 34)

/-- Operands of PROGRAM_WAIT_EXPIRY. -/
def wfProgramWaitExpiry (die : Nat) : Bool := decide (die < 1024)

/-- Operands of VERIFY_PASS_READ. -/
def wfVerifyPassRead (page : VerifyPage) : Bool :=
  match page with
  | .tlc v => decide (v < 2 ^ 34)
  | .slc b _ => decide (b < 2 ^ 34)

/-- Operands of CS_PROGRAM. -/
def wfCsProgram (data : Bytes) : Bool := (data.length == 256)

/-- Operands of CS_VERIFY. -/
def wfCsVerify (digest : Bytes) : Bool := (digest.length == 48)

/-- Operands of CS_BANK_VERIFY. -/
def wfCsBankVerify (bank : Nat) : Bool := decide (bank < 2)

/-- Operands of LINE_REPAIR_DONE. -/
def wfLineRepairDone (line : Nat) : Bool := decide (line < 2 ^ 42)

/-- Operands of SCRUB_STEP. -/
def wfScrubStep (word : Bytes) : Bool := (word.length == 80)

/-- Operands of SUMMIT_FILL_DONE. -/
def wfSummitFillDone (line : Nat) : Bool := decide (line < 2 ^ 42)

/-- Operands of DIRTY_EVICT_ADMITTED. -/
def wfDirtyEvictAdmitted (line : Nat) : Bool := decide (line < 2 ^ 42)

/-- Operands of LOCK_WAYS_WRITE. -/
def wfLockWaysWrite (off : Nat) (data : Bytes) : Bool := (off == 0x90000 || off == 0x90004) && (data.length == 4 || (data.length == 8 && off == 0x90000))

/-- Operands of KEY_DERIVATION_DONE. -/
def wfKeyDerivationDone (slot : Nat) : Bool := decide (slot < 4096)

/-- Operands of ROOT_REUNWRAP. -/
def wfRootReunwrap (root : Nat) : Bool := decide (root < 16)

/-- Operands of KNOWN_ANSWER_TEST. -/
def wfKnownAnswerTest (unit : Nat) : Bool := decide (unit < 32)

/-- Operands of ORDER. -/
def wfOrder (h : RopeHdr) (recs : List OrderRec) : Bool := decide (h.inst < 2) && decide (recs.length ≤ 140)

/-- Operands of CONFIRM. -/
def wfConfirm (h : RopeHdr) (idx : Nat) : Bool := decide (h.inst < 2) && decide (idx < 2 ^ 64)

/-- Operands of RENEW. -/
def wfRenew (seq : Nat) : Bool := decide (seq < 65536)

/-- Operands of RENEW_ACK. -/
def wfRenewAck (seq : Nat) : Bool := decide (seq < 65536)

/-- Operands of FILL_REQ. -/
def wfFillReq (h : RopeHdr) : Bool := decide (h.inst < 2)

/-- Operands of FILL_DATA. -/
def wfFillData (h : RopeHdr) : Bool := decide (h.inst < 2)

/-- Operands of FETCH_REQ. -/
def wfFetchReq (h : RopeHdr) : Bool := decide (h.inst < 2)

/-- Operands of FETCH_DATA. -/
def wfFetchData (h : RopeHdr) : Bool := decide (h.inst < 2)

/-- Operands of REPAIR_TIMEOUT. -/
def wfRepairTimeout (slab : Nat) : Bool := decide (slab < 2 ^ 34)

/-- Operands of CATCHUP. -/
def wfCatchup (h : RopeHdr) (slab : Nat) (data : Bytes) : Bool := decide (h.inst < 2) && decide (slab < 2 ^ 34) && (data.length == 16384)

/-- Operands of CONTROL. -/
def wfControl (h : RopeHdr) : Bool := decide (h.inst < 2)

/-- Operands of RETURN_REQUEST. -/
def wfReturnRequest (h : RopeHdr) : Bool := decide (h.inst < 2)

/-- Operands of ROPE_ACK. -/
def wfRopeAck (h : RopeHdr) : Bool := decide (h.inst < 2)

/-- Operands of ROPE_RETRANSMIT_TIMER. -/
def wfRopeRetransmitTimer (inst : Nat) : Bool := decide (inst < 2)

/-- Operands of ROPE_INSTANCE_DOWN. -/
def wfRopeInstanceDown (inst : Nat) : Bool := decide (inst < 2)

/-- Operands of ROPE_INSTANCE_UP. -/
def wfRopeInstanceUp (inst : Nat) : Bool := decide (inst < 2)

/-- Operands of LEAD_PATH_TIMEOUT. -/
def wfLeadPathTimeout (conn : Nat) : Bool := decide (conn < 2 ^ 24)

/-- Operands of PS_PG_RISE. -/
def wfPsPgRise (rail : Nat) : Bool := decide (rail < 24)

/-- Operands of DWELL_END. -/
def wfDwellEnd (rail : Nat) : Bool := decide (rail < 24)

/-- Operands of PG_TIMEOUT. -/
def wfPgTimeout (rail : Nat) : Bool := decide (rail < 24)

/-- Operands of PS_PG_FALL. -/
def wfPsPgFall (rail : Nat) : Bool := decide (rail < 24)

/-- Operands of PG_LOSS. -/
def wfPgLoss (rail : Nat) : Bool := decide (rail < 24)

/-- Operands of MONITOR_READING. -/
def wfMonitorReading (ch : Nat) (pinMv : Nat) : Bool := decide (ch < 32) && decide (pinMv ≤ 1000)

/-- Operands of DISCHARGE_END. -/
def wfDischargeEnd (rail : Nat) : Bool := decide (rail < 24)

/-- Operands of THERMAL_SCAN. -/
def wfThermalScan (rd : List (Option Int)) : Bool := (rd.length == 48)

/-- Operands of GUIDE_HANG. -/
def wfGuideHang (g : Nat) : Bool := decide (g < 32)

/-- Operands of AUTO_THAW. -/
def wfAutoThaw (lg : Nat) : Bool := decide (lg < 40)

/-- Operands of ENTDAA. -/
def wfEntdaa (addr : Nat) : Bool := decide (addr < 128)

/-- Operands of SETDASA. -/
def wfSetdasa (stat : Nat) (addr : Nat) : Bool := decide (stat < 128) && decide (addr < 128)

/-- Operands of NQ_POP. -/
def wfNqPop (q : Nat) : Bool := decide (q < 16)

/-- Operands of NQ_PEEK. -/
def wfNqPeek (q : Nat) : Bool := decide (q < 16)

/-- Operands of RC_READ. -/
def wfRcRead (off : Nat) : Bool := decide (off < 2 ^ 26)

/-- Operands of CVU_CTX_WRITE. -/
def wfCvuCtxWrite (off : Nat) : Bool := (0x80008 ≤ off && off < 0x80038)

/-- Operands of REGISTER_WRITE. -/
def wfRegisterWrite (off : Nat) : Bool := decide (off < 2 ^ 26)

/-- Operands of ROPE_LANE_LOSS. -/
def wfRopeLaneLoss (inst : Nat) (lane : Nat) : Bool := decide (inst < 2) && decide (lane < 8)

/-- Operands of INGRESS_FRAME_DROP. -/
def wfIngressFrameDrop (port : Nat) : Bool := decide (port < 8)

/-- Well-formedness of a command's operands. -/
def wellFormed : Instr → Bool
  | .fabVcoreReqWrite off data => wfFabVcoreReqWrite off data
  | .avsStepAck mv => wfAvsStepAck mv
  | .avsAckTimeout => true
  | .avsReadback mv => wfAvsReadback mv
  | .sysRefclkLoss => true
  | .stallWdogSample stuck => wfStallWdogSample stuck
  | .pdIdleGate d => wfPdIdleGate d
  | .pdWake d => wfPdWake d
  | .pdPowerUpGrant d => wfPdPowerUpGrant d
  | .hostLaneLoss port lane _ => wfHostLaneLoss port lane
  | .subportLinkUp sub => wfSubportLinkUp sub
  | .frameTransmit x => wfFrameTransmit x
  | .readReq p => wfReadReq p
  | .writeReq p => wfWriteReq p
  | .writepReq p => wfWritepReq p
  | .flush p => wfFlush p
  | .cas64 p => wfCas64 p
  | .fadd64 p => wfFadd64 p
  | .cas128 p => wfCas128 p
  | .send p => wfSend p
  | .triggeredSend p => wfTriggeredSend p
  | .ack p => wfAck p
  | .nak p => wfNak p
  | .mgmt p => wfMgmt p
  | .connect p => wfConnect p
  | .pathOpen p => wfPathOpen p
  | .close p => wfClose p
  | .closed p => wfClosed p
  | .closeDrainEnd conn => wfCloseDrainEnd conn
  | .controlResend conn => wfControlResend conn
  | .retransmitTimerExpiry conn path => wfRetransmitTimerExpiry conn path
  | .connNumberFree conn => wfConnNumberFree conn
  | .ackDelayExpiry conn path => wfAckDelayExpiry conn path
  | .completionRepeat conn => wfCompletionRepeat conn
  | .rnrWaitExpiry conn path => wfRnrWaitExpiry conn path
  | .msnRangeWaitExpiry conn path => wfMsnRangeWaitExpiry conn path
  | .zeroWindowProbe conn => wfZeroWindowProbe conn
  | .windowRestore conn => wfWindowRestore conn
  | .pfcFrame sub prio quanta => wfPfcFrame sub prio quanta
  | .pfcPauseExpiry sub prio => wfPfcPauseExpiry sub prio
  | .pfcRefreshTimer sub prio => wfPfcRefreshTimer sub prio
  | .budgetReservationMet => true
  | .budgetWaitExpiry _ => true
  | .workRequestStart q => wfWorkRequestStart q
  | .workRequestComplete q slot => wfWorkRequestComplete q slot
  | .workRequestFail q slot _ => wfWorkRequestFail q slot
  | .promotionUnitFilled slab lost => wfPromotionUnitFilled slab lost
  | .parkEntryFree => true
  | .valleyDirectTimer conn msn => wfValleyDirectTimer conn msn
  | .moverJobStart m => wfMoverJobStart m
  | .moverUnitDone m => wfMoverUnitDone m
  | .destageProgramDone slab => wfDestageProgramDone slab
  | .destageProgramFail slab => wfDestageProgramFail slab
  | .walkerEvict part => wfWalkerEvict part
  | .segmentRebuildDone seg => wfSegmentRebuildDone seg
  | .markerLogTimer topo => wfMarkerLogTimer topo
  | .ddrCommandIssue ch sub => wfDdrCommandIssue ch sub
  | .campReadDone cpa word _ => wfCampReadDone cpa word
  | .whistleLong _ => true
  | .refreshInterval ch rank => wfRefreshInterval ch rank
  | .mr4Poll ch rank _ => wfMr4Poll ch rank
  | .dimmTempPoll ch dimm tempC => wfDimmTempPoll ch dimm tempC
  | .rfgWindowClear => true
  | .rfgToken b i => wfRfgToken b i
  | .rfgHoldExpiry b i => wfRfgHoldExpiry b i
  | .campTrainStageDone ch _ => wfCampTrainStageDone ch
  | .zqTimer => true
  | .dqsoscRead ch rank _ => wfDqsoscRead ch rank
  | .centringEscalation ch rank => wfCentringEscalation ch rank
  | .frameMoveDone slab => wfFrameMoveDone slab
  | .valleyReadDone vloc cw _ _ => wfValleyReadDone vloc cw
  | .valleyProgramDone vloc _ _ => wfValleyProgramDone vloc
  | .nandResetTimeout die => wfNandResetTimeout die
  | .valleyEraseDone block _ _ => wfValleyEraseDone block
  | .programWaitExpiry die => wfProgramWaitExpiry die
  | .stripeCloseTimer _ => true
  | .journalPageTimer => true
  | .tableLogPageTimer => true
  | .logbookPageTimer => true
  | .verifyPassRead page _ _ => wfVerifyPassRead page
  | .csErase _ _ => true
  | .csProgram _ data _ => wfCsProgram data
  | .csVerify _ _ digest _ => wfCsVerify digest
  | .csCommit _ _ => true
  | .csBankVerify bank _ => wfCsBankVerify bank
  | .csWear => true
  | .pitchLogFlushTimer => true
  | .lineRepairDone line _ => wfLineRepairDone line
  | .faultWindowBucket _ => true
  | .scrubStep word => wfScrubStep word
  | .sramScrubStep _ _ _ => true
  | .summitFillDone line => wfSummitFillDone line
  | .dirtyEvictAdmitted line => wfDirtyEvictAdmitted line
  | .lockWaysWrite off data => wfLockWaysWrite off data
  | .wayCleanDone => true
  | .cipherRequestDone _ => true
  | .keyDerivationDone slot => wfKeyDerivationDone slot
  | .rootReunwrap root => wfRootReunwrap root
  | .knownAnswerTest _ unit _ => wfKnownAnswerTest unit
  | .hello _ _ => true
  | .negotiateTimeout => true
  | .order h recs => wfOrder h recs
  | .operation => true
  | .command => true
  | .topo => true
  | .chain => true
  | .partMsg => true
  | .ivReserve => true
  | .epochMark => true
  | .handover => true
  | .confirm h idx => wfConfirm h idx
  | .renew _ seq => wfRenew seq
  | .renewAck _ seq => wfRenewAck seq
  | .renewalTimer => true
  | .leaseEnd => true
  | .leaseExpiry => true
  | .guardEnd => true
  | .fillReq h _ => wfFillReq h
  | .fillData h _ _ _ => wfFillData h
  | .fillWaitExpiry => true
  | .fetchReq h _ => wfFetchReq h
  | .fetchData h _ _ => wfFetchData h
  | .repairTimeout slab => wfRepairTimeout slab
  | .catchup h slab data _ _ => wfCatchup h slab data
  | .control h _ => wfControl h
  | .returnRequest h => wfReturnRequest h
  | .ropeAck h => wfRopeAck h
  | .ropeRetransmitTimer inst => wfRopeRetransmitTimer inst
  | .ropeInstanceDown inst => wfRopeInstanceDown inst
  | .ropeInstanceUp inst => wfRopeInstanceUp inst
  | .holdTimeExpiry _ => true
  | .leadPathTimeout conn => wfLeadPathTimeout conn
  | .epochMarkTimer => true
  | .returnHoldoff => true
  | .departure _ => true
  | .pd0PowerUp => true
  | .vinGood => true
  | .groupDelayExpiry => true
  | .psPgRise rail => wfPsPgRise rail
  | .dwellEnd rail => wfDwellEnd rail
  | .pgTimeout rail => wfPgTimeout rail
  | .psPgFall rail => wfPsPgFall rail
  | .pgLoss rail => wfPgLoss rail
  | .monitorReading ch pinMv => wfMonitorReading ch pinMv
  | .graceExpiry => true
  | .dischargeEnd rail _ => wfDischargeEnd rail
  | .bivStepTimer => true
  | .inputCollapse => true
  | .bivouacStepDone => true
  | .bivouacEnergyLost => true
  | .holdupFall => true
  | .holdupRestored => true
  | .holdupWaitExpiry => true
  | .buttonRecognised => true
  | .shortPress => true
  | .longPress => true
  | .manualReset => true
  | .manualResetRelease => true
  | .restartDue => true
  | .vddAonLow => true
  | .thermalScan rd => wfThermalScan rd
  | .graceEnd => true
  | .ceilingStep => true
  | .cool => true
  | .guideHang g => wfGuideHang g
  | .sdRefclkLoss => true
  | .sdRefclkRestored => true
  | .startStageDone _ => true
  | .commandPendingTimer _ => true
  | .guideWaitTimeout _ => true
  | .idQuery _ => true
  | .limitsQuery _ => true
  | .identitySet _ => true
  | .identityRemove _ _ => true
  | .identityQuery _ _ => true
  | .authKeySet _ => true
  | .regionRegister _ => true
  | .regionQuery _ _ => true
  | .regionRevoke _ _ => true
  | .accessGroupSet _ _ _ => true
  | .accessGroupQuery _ _ => true
  | .landingRegister _ _ _ => true
  | .landingRemove _ _ => true
  | .connQuery _ _ => true
  | .connClose _ _ => true
  | .chainQueueCreate _ _ _ _ _ _ _ => true
  | .chainPost _ _ _ => true
  | .chainReset _ _ => true
  | .chainQueueDelete _ _ => true
  | .chainQuery _ _ => true
  | .triggerBind _ _ _ _ => true
  | .triggerUnbind _ _ => true
  | .portConfig _ _ _ => true
  | .objectCreate _ => true
  | .objectQuery _ _ => true
  | .objectSetPlacement _ _ _ => true
  | .objectEvict _ _ _ _ => true
  | .objectTrim _ _ _ _ => true
  | .objectDelete _ _ => true
  | .objectPublish _ => true
  | .topoCreate _ => true
  | .topoStepAdd _ _ => true
  | .topoCommit _ _ => true
  | .topoDelete _ _ => true
  | .topoAdvance _ _ _ => true
  | .topoQuery _ _ => true
  | .sumReload _ _ _ _ => true
  | .sumInvalidate _ _ _ => true
  | .rangeConfig _ _ _ => true
  | .keyRootLoad _ => true
  | .keyRootUnload _ _ => true
  | .keyRootQuery _ => true
  | .keySessionQuery _ _ => true
  | .keySlotStep _ _ => true
  | .keySlotQuery _ _ => true
  | .keyConfig _ _ => true
  | .contentUnseal _ _ _ _ _ _ _ => true
  | .cvuContextSet _ _ _ _ _ _ => true
  | .cvuContextGet _ _ => true
  | .ropeQuery _ => true
  | .ropeHandover _ => true
  | .ropeReturnEnable _ => true
  | .ropeSolo _ => true
  | .ropeConfig _ _ => true
  | .pwrStatus _ => true
  | .pwrShutdown _ => true
  | .vcoreSet _ _ => true
  | .thermalStatus _ => true
  | .thermalConfig _ _ => true
  | .domainSwitch _ _ _ => true
  | .seqConfig _ _ => true
  | .logRead _ => true
  | .logClear _ => true
  | .freeze _ _ => true
  | .plogRead _ => true
  | .thaw _ _ => true
  | .autoThaw lg => wfAutoThaw lg
  | .telemetryRead _ _ => true
  | .nqConfig _ _ _ => true
  | .scrubConfig _ _ => true
  | .campFaultList _ => true
  | .campConfig _ _ _ _ => true
  | .campRowRetire _ _ _ _ _ _ => true
  | .valleyConfig _ _ => true
  | .valleyStatus _ => true
  | .firmwareWrite _ => true
  | .firmwareVerify _ _ _ => true
  | .firmwareSelect _ _ => true
  | .firmwareCommit _ => true
  | .configSave _ => true
  | .cairnStatus _ => true
  | .ladderRetry _ => true
  | .ladderReinit _ => true
  | .deviceReset _ => true
  | .pwrCycle _ => true
  | .ladderStatus _ => true
  | .portQuiesce _ => true
  | .connFence _ => true
  | .hostFence _ => true
  | .regionFence _ => true
  | .brakeStatus _ => true
  | .i3cPrivateWrite _ => true
  | .i3cPrivateRead => true
  | .entdaa addr => wfEntdaa addr
  | .setdasa stat addr => wfSetdasa stat addr
  | .rstdaa => true
  | .enec => true
  | .disec => true
  | .getpid => true
  | .getbcr => true
  | .getdcr => true
  | .getstatus => true
  | .getmwl => true
  | .getmrl => true
  | .mbxDoorbell _ => true
  | .mbxRelease _ => true
  | .mbxGrantGo => true
  | .mbxGrantDrop => true
  | .grantExpiry => true
  | .mbxIntStatusWrite _ => true
  | .nqPop q _ => wfNqPop q
  | .nqPeek q _ => wfNqPeek q
  | .rcRead off _ => wfRcRead off
  | .cvuCtxWrite off _ => wfCvuCtxWrite off
  | .registerWrite off _ => wfRegisterWrite off
  | .pcieLinkReset => true
  | .mpPerstN _ => true
  | .jtagAccess _ => true
  | .timeMarkTimer => true
  | .operatingHourTick => true
  | .belayWiresLost => true
  | .sysRefclkRestored => true
  | .alwaysOnSupplyFail => true
  | .pmbAlert => true
  | .ropeLaneLoss inst lane _ => wfRopeLaneLoss inst lane
  | .ladderBoundExpiry _ => true
  | .ingressFrameDrop port _ => wfIngressFrameDrop port
  | .msixEnable => true
  | .sdRefclkWaitTimeout => true

end Sys2Proof
end

