-- ==== Sys2Proof/Machine/Tab.lean ====
section
/-! DEFINITION. Operations on sparse tables and on byte strings, shared by every block. -/

namespace Sys2Proof.Machine

/-- The entry of key `n`. -/
def tget {α : Type} : Tab α → Nat → Option α
  | [], _ => none
  | (k, v) :: t, n => if k = n then some v else tget t n

/-- Sets the entry of key `n`, keeping the keys rising. -/
def tset {α : Type} : Tab α → Nat → α → Tab α
  | [], n, x => [(n, x)]
  | (k, v) :: t, n, x =>
    if n < k then (n, x) :: (k, v) :: t
    else if n = k then (n, x) :: t
    else (k, v) :: tset t n x

/-- Removes the entry of key `n`. -/
def tdel {α : Type} : Tab α → Nat → Tab α
  | [], _ => []
  | (k, v) :: t, n => if k = n then tdel t n else (k, v) :: tdel t n

/-- Changes the entry of key `n`, if it is there. -/
def tmod {α : Type} (t : Tab α) (n : Nat) (f : α → α) : Tab α :=
  match tget t n with
  | none => t
  | some v => tset t n (f v)

/-- Sets or removes an entry. -/
def tput {α : Type} (t : Tab α) (n : Nat) : Option α → Tab α
  | none => tdel t n
  | some v => tset t n v

/-- Whether key `n` is present. -/
def thas {α : Type} (t : Tab α) (n : Nat) : Bool := (tget t n).isSome

/-- A counter table: the count of `n`, 0 where unlisted. -/
def tcnt (t : Tab Nat) (n : Nat) : Nat := (tget t n).getD 0

/-- Sets a count, removing the entry at 0. -/
def tcntSet (t : Tab Nat) (n v : Nat) : Tab Nat := if v = 0 then tdel t n else tset t n v

/-- The keys in rising order. -/
def tkeys {α : Type} (t : Tab α) : List Nat := t.map (·.1)

/-- The lowest number below `bound`, from `n` on, that the table does not hold (`fuel` numbers are tried). -/
def tfree {α : Type} (t : Tab α) (n : Nat) : Nat → Option Nat
  | 0 => none
  | fuel + 1 => if thas t n then tfree t (n + 1) fuel else some n

/-- The model's pick where the part chooses a free index below `bound` (log entry 3): the open value `want` when it is
free, else the lowest free one. -/
def tpick {α : Type} (t : Tab α) (lo bound want : Nat) : Option Nat :=
  if lo ≤ want ∧ want < bound ∧ ¬ thas t want then some want
  else match tfree t lo (t.length + 1) with
    | some n => if n < bound then some n else none
    | none => none

/-- Puts an element into a list in order, after its equals. -/
def insertBy {α : Type} (le : α → α → Bool) (x : α) : List α → List α
  | [] => [x]
  | y :: t => if le y x then y :: insertBy le x t else x :: y :: t

/-- A list in order; equals keep their order. -/
def sortBy {α : Type} (le : α → α → Bool) (l : List α) : List α := l.foldl (fun acc x => insertBy le x acc) []

/-- Keys strictly rising. -/
def tsorted {α : Type} : Tab α → Bool
  | [] => true
  | [_] => true
  | (a, _) :: (b, y) :: t => decide (a < b) && tsorted ((b, y) :: t)

/-- Bit `n` of a number. -/
def bit (v n : Nat) : Bool := v / 2 ^ n % 2 == 1

/-- `v` with bit `n` set to `b`. -/
def putBit (v n : Nat) (b : Bool) : Nat :=
  if b then (if bit v n then v else v + 2 ^ n) else (if bit v n then v - 2 ^ n else v)

/-- Bits [hi:lo] of a number. -/
def bits (v lo w : Nat) : Nat := v / 2 ^ lo % 2 ^ w

/-- Number of set bits among the lowest `n`. -/
def popcount (v : Nat) : Nat → Nat
  | 0 => 0
  | n + 1 => popcount v n + (if bit v n then 1 else 0)

/-- ⌈a ÷ b⌉. -/
def cdiv (a b : Nat) : Nat := (a + b - 1) / b

/-- A byte of a number. -/
def byte (n : Nat) : Byte := BitVec.ofNat 8 n

/-- `len` bytes of `b` from `off`. -/
def bsub (b : Bytes) (off len : Nat) : Bytes := (b.drop off).take len

/-- A byte string read as a little-endian number (R6). -/
def leNat : Bytes → Nat
  | [] => 0
  | x :: t => x.toNat + 256 * leNat t

/-- The little-endian number in bytes `off` to `off + len - 1`. -/
def le (b : Bytes) (off len : Nat) : Nat := leNat (bsub b off len)

/-- `n` little-endian bytes of a number. -/
def leBytes : Nat → Nat → Bytes
  | 0, _ => []
  | n + 1, v => byte (v % 256) :: leBytes n (v / 256)

/-- A byte string read as a big-endian number (R7). -/
def beNat (b : Bytes) : Nat := leNat b.reverse

/-- `n` big-endian bytes of a number. -/
def beBytes (n v : Nat) : Bytes := (leBytes n v).reverse

/-- `n` zero bytes. -/
def zeros (n : Nat) : Bytes := List.replicate n 0#8

/-- Whether bytes `off` to `off + len - 1` are all zero. -/
def isZero (b : Bytes) (off len : Nat) : Bool := (bsub b off len).all (· == 0#8)

/-- Overwrites bytes of `b` from `off` with `d`. -/
def boverlay (b : Bytes) (off : Nat) (d : Bytes) : Bytes :=
  b.take off ++ d ++ b.drop (off + d.length)

/-- Pads or cuts to `n` bytes. -/
def bfit (b : Bytes) (n : Nat) : Bytes := (b ++ zeros (n - b.length)).take n

/-- Signed 16-bit reading of a number below 2^16. -/
def toSigned16 (n : Nat) : Int := if n < 32768 then n else (n : Int) - 65536

/-- A signed number as 16 bits. -/
def ofSigned16 (i : Int) : Nat := (i % 65536).toNat

/-- Counts up, stopping at `max`. -/
def satAdd (v k max : Nat) : Nat := if v + k ≤ max then v + k else max

/-- Removes the first element that `p` accepts, giving it and the rest. -/
def takeFirst {α : Type} (p : α → Bool) : List α → Option (α × List α)
  | [] => none
  | x :: t => if p x then some (x, t) else (takeFirst p t).map fun r => (r.1, x :: r.2)

/-- A number moved into its unit of ten nanoseconds: microseconds. -/
def us (n : Nat) : Nat := n * 100

/-- Milliseconds in ticks of the timebase (R29). -/
def ms (n : Nat) : Nat := n * 100000

/-- Seconds in ticks of the timebase (R29). -/
def sec (n : Nat) : Nat := n * 100000000

end Sys2Proof.Machine
end

