-- ==== Sys2Proof/Machine/Aes.lean ====
section
/-! DEFINITION. AES-256 (FIPS 197) with CMAC (SP 800-38B) and GCM (SP 800-38D), which Table 0-6 names. PRESUMED: the
constants and steps are those of the standards, which the spec names and does not repeat (log entry 5). -/

namespace Sys2Proof.Machine

/-! ## The block cipher -/

/-- The S-box, the byte of 0x00 lowest. -/
def aesSbox : Nat := 0x16BB54B00F2D99416842E6BF0D89A18CDF2855CEE9871E9B948ED9691198F8E19E1DC186B95735610EF6034866B53E708A8BBD4B1F74DDE8C6B4A61C2E2578BA08AE7A65EAF4566CA94ED58D6D37C8E779E4959162ACD3C25C2406490A3A32E0DB0B5EDE14B8EE4688902A22DC4F816073195D643D7EA7C41744975FEC130CCDD2F3FF1021DAB6BCF5389D928F40A351A89F3C507F02F94585334D43FBAAEFD0CF584C4A39BECB6A5BB1FC20ED00D153842FE329B3D63B52A05A6E1B1A2C830975B227EBE28012079A059618C323C7041531D871F1E5A534CCF73F362693FDB7C072A49CAFA2D4ADF04759FA7DC982CA76ABD7FE2B670130C56F6BF27B777C63

/-- A byte through the S-box. -/
def aesSub (x : Nat) : Nat := bits aesSbox (8 * (x % 256)) 8

/-- Doubling in the field of AES. -/
def aesX2 (a : Nat) : Nat := if a < 128 then a * 2 else Nat.xor (a * 2 % 256) 0x1B

/-- Byte by byte exclusive or. -/
def xorNs (a b : List Nat) : List Nat := (a.zip b).map fun x => Nat.xor x.1 x.2

/-- `n` further words of the key schedule of AES-256, newest first, with the round constant due next. -/
def aesExpand : Nat → Nat → Nat → List (List Nat) → List (List Nat)
  | 0, _, _, ws => ws
  | n + 1, i, rcon, ws =>
    let t := ws.headD []
    let t' := if i % 8 = 0 then xorNs ((t.drop 1 ++ t.take 1).map aesSub) [rcon, 0, 0, 0]
      else if i % 8 = 4 then t.map aesSub else t
    aesExpand n (i + 1) (if i % 8 = 0 then aesX2 rcon else rcon) (xorNs (ws.getD 7 []) t' :: ws)

/-- A key's bytes in words of four (`n` words). -/
def keyWords : Nat → List Nat → List (List Nat)
  | 0, _ => []
  | n + 1, l => l.take 4 :: keyWords n (l.drop 4)

/-- The 15 round keys of a 32-byte key, 16 bytes each. -/
def aesKeys (key : Bytes) : List (List Nat) :=
  let ws := (aesExpand 52 8 1 (keyWords 8 ((bfit key 32).map (·.toNat))).reverse).reverse
  (List.range 15).map fun r => ((ws.drop (4 * r)).take 4).flatten

/-- ShiftRows on the 16 bytes of the state, column by column. -/
def aesShift (b : List Nat) : List Nat :=
  (List.range 16).map fun i => b.getD (i % 4 + 4 * ((i / 4 + i % 4) % 4)) 0

/-- MixColumns on one column. -/
def aesMixCol (b : List Nat) (c : Nat) : List Nat :=
  let a (i : Nat) : Nat := b.getD (4 * c + i % 4) 0
  (List.range 4).map fun i =>
    Nat.xor (aesX2 (a i)) (Nat.xor (Nat.xor (aesX2 (a (i + 1))) (a (i + 1))) (Nat.xor (a (i + 2)) (a (i + 3))))

/-- One round; the last one does not mix the columns. -/
def aesRound (b k : List Nat) (last : Bool) : List Nat :=
  let t := aesShift (b.map aesSub)
  xorNs (if last then t else ((List.range 4).map (aesMixCol t)).flatten) k

/-- A block of 16 bytes under a list of round keys. -/
def aesRounds : List (List Nat) → List Nat → List Nat
  | [], b => b
  | [k], b => aesRound b k true
  | k :: ks, b => aesRounds ks (aesRound b k false)

/-- AES-256 of one block. -/
def aesBlock (key : Bytes) (blk : Bytes) : Bytes :=
  let ks := aesKeys key
  (aesRounds (ks.drop 1) (xorNs ((bfit blk 16).map (·.toNat)) (ks.headD []))).map byte

/-- A block's bytes as a big-endian number, and back. -/
def aesNum (key : Bytes) (v : Nat) : Nat := beNat (aesBlock key (beBytes 16 v))

/-! ## CMAC -/

/-- A subkey from the one before. -/
def cmacDouble (v : Nat) : Nat := if v < 2 ^ 127 then v * 2 else Nat.xor (v * 2 % 2 ^ 128) 0x87

/-- The chained blocks of a message; its last block is whole or padded, under its subkey (`fuel` blocks at most). -/
def cmacRun (key : Bytes) (k1 : Nat) : Nat → Nat → Bytes → Nat
  | 0, x, _ => x
  | fuel + 1, x, m =>
    if m.length < 16 then
      aesNum key (Nat.xor x (Nat.xor (cmacDouble k1) (beNat (bfit (m ++ [0x80#8]) 16))))
    else if m.length = 16 then aesNum key (Nat.xor x (Nat.xor k1 (beNat m)))
    else cmacRun key k1 fuel (aesNum key (Nat.xor x (beNat (m.take 16)))) (m.drop 16)

/-- AES-256-CMAC of a message, 16 bytes (R275). -/
def cmac (key msg : Bytes) : Bytes :=
  beBytes 16 (cmacRun key (cmacDouble (aesNum key 0)) (msg.length + 1) 0 msg)

/-! ## GCM -/

/-- The product of GHASH, over the lowest `n` bits of `x` from bit `n - 1` down, of the running `v`. -/
def ghashMul (x : Nat) : Nat → Nat → Nat → Nat
  | 0, _, z => z
  | n + 1, v, z =>
    ghashMul x n (if v % 2 = 0 then v / 2 else Nat.xor (v / 2) (0xE1 * 2 ^ 120)) (if bit x n then Nat.xor z v else z)

/-- GHASH of whole and padded blocks (`fuel` blocks at most). -/
def ghashRun (h : Nat) : Nat → Nat → Bytes → Nat
  | 0, y, _ => y
  | fuel + 1, y, m =>
    if m.isEmpty then y else ghashRun h fuel (ghashMul (Nat.xor y (beNat (bfit (m.take 16) 16))) 128 h 0) (m.drop 16)

/-- The first counter block of a 96-bit IV. -/
def gcmJ0 (iv : Bytes) : Nat := beNat (bfit iv 12) * 2 ^ 32 + 1

/-- The counter block `n` after the first: the low 32 bits count. -/
def gcmCtr (iv : Bytes) (n : Nat) : Nat := gcmJ0 iv / 2 ^ 32 * 2 ^ 32 + (gcmJ0 iv + n) % 2 ^ 32

/-- Byte `i` of the keystream. -/
def gcmStream (key iv : Bytes) (i : Nat) : Byte := (aesBlock key (beBytes 16 (gcmCtr iv (i / 16 + 1)))).getD (i % 16) 0

/-- The tag of additional data and ciphertext, 16 bytes. -/
def gcmTag (key iv aad ct : Bytes) : Bytes :=
  let h := aesNum key 0
  let y := ghashRun h aad.length 0 aad
  let y := ghashRun h ct.length y ct
  let y := ghashMul (Nat.xor y (8 * aad.length * 2 ^ 64 + 8 * ct.length)) 128 h 0
  beBytes 16 (Nat.xor y (aesNum key (gcmJ0 iv)))

end Sys2Proof.Machine
end

