-- ==== Sys2Proof/Machine/Sha.lean ====
section
/-! DEFINITION. The hash functions and the signature check that Table 0-6 names: SHA-256 and SHA-384 (FIPS 180-4),
HMAC with SHA-256 (FIPS 198-1), ECDSA over P-384 (FIPS 186-5). PRESUMED: the constants and steps are those of the
standards, which the spec names and does not repeat (log entry 5). -/

namespace Sys2Proof.Machine

/-! ## SHA-2 -/

/-- The numbers of one of the two word sizes: width, rotations of Σ0, Σ1, σ0, σ1 (the last of a σ is its shift), and the
number of rounds with their constants packed lowest first. -/
structure ShaSize where
  w : Nat
  big0 : Nat × Nat × Nat
  big1 : Nat × Nat × Nat
  small0 : Nat × Nat × Nat
  small1 : Nat × Nat × Nat
  rounds : Nat
  k : Nat

/-- SHA-256's round constants. -/
def k256 : Nat := 0xC67178F2BEF9A3F7A4506CEB90BEFFFA8CC7020884C8781478A5636F748F82EE682E6FF35B9CCA4F4ED8AA4A391C0CB334B0BCB52748774C1E376C0819A4C116106AA070F40E3585D6990624D192E819C76C51A3C24B8B70A81A664BA2BFE8A192722C8581C2C92E766A0ABB650A735453380D134D2C6DFC2E1B213827B70A851429296706CA6351D5A79147C6E00BF3BF597FC7B00327C8A831C66D983E515276F988DA5CB0A9DC4A7484AA2DE92C6F240CA1CC0FC19DC6EFBE4786E49B69C1C19BF1749BDC06A780DEB1FE72BE5D74550C7DC3243185BE12835B01D807AA98AB1C5ED5923F82A459F111F13956C25BE9B5DBA5B5C0FBCF71374491428A2F98

/-- SHA-512's round constants, which SHA-384 uses. -/
def k512 : Nat := 0x6C44198C4A4758175FCB6FAB3AD6FAEC597F299CFC657E2A4CC5D4BECB3E42B6431D67C49C100D4C3C9EBE0A15C9BEBC32CAAB7B40C7249328DB77F523047D841B710B35131C471B113F9804BEF90DAE0A637DC5A2C898A606F067AA72176FBAF57D4F7FEE6ED178EADA7DD6CDE0EB1ED186B8C721C0C207CA273ECEEA26619CC67178F2E372532BBEF9A3F7B2C67915A4506CEBDE82BDE990BEFFFA23631E288CC702081A6439EC84C87814A1F0AB7278A5636F43172F60748F82EE5DEFB2FC682E6FF3D6B2B8A35B9CCA4F7763E3734ED8AA4AE3418ACB391C0CB3C5C95A6334B0BCB5E19B48A82748774CDF8EEB991E376C085141AB5319A4C116B8D2D0C8106AA07032BBD1B8F40E35855771202AD69906245565A910D192E819D6EF5218C76C51A30654BE30C24B8B70D0F89791A81A664BBC423001A2BFE8A14CF1036492722C851482353B81C2C92E47EDAEE6766A0ABB3C77B2A8650A73548BAF63DE53380D139D95B3DF4D2C6DFC5AC42AED2E1B21385C26C92627B70A8546D22FFC142929670A0E6E7006CA6351E003826FD5A79147930AA725C6E00BF33DA88FC2BF597FC7BEEF0EE4B00327C898FB213FA831C66D2DB43210983E5152EE66DFAB76F988DA831153B55CB0A9DCBD41FBD44A7484AA6EA6E4832DE92C6F592B0275240CA1CC77AC9C650FC19DC68B8CD5B5EFBE4786384F25E3E49B69C19EF14AD2C19BF174CF6926949BDC06A725C7123580DEB1FE3B1696B172BE5D74F27B896F550C7DC3D5FFB4E2243185BE4EE4B28C12835B0145706FBED807AA98A3030242AB1C5ED5DA6D8118923F82A4AF194F9B59F111F1B605D0193956C25BF348B538E9B5DBA58189DBBCB5C0FBCFEC4D3B2F7137449123EF65CD428A2F98D728AE22

/-- The initial hash values, packed lowest first. -/
def h256 : Nat := 0x5BE0CD191F83D9AB9B05688C510E527FA54FF53A3C6EF372BB67AE856A09E667
def h384 : Nat := 0x47B5481DBEFA4FA4DB0C2E0D64F98FA78EB44A876858151167332667FFC00B31152FECD8F70E59399159015A3070DD17629A292A367CD507CBBB9D5DC1059ED8

/-- SHA-256. -/
def sha256Size : ShaSize := ⟨32, (2, 13, 22), (6, 11, 25), (7, 18, 3), (17, 19, 10), 64, k256⟩

/-- SHA-512, and so SHA-384. -/
def sha512Size : ShaSize := ⟨64, (28, 34, 39), (14, 18, 41), (1, 8, 7), (19, 61, 6), 80, k512⟩

/-- Rotation to the right of a word of `w` bits. -/
def rotr (w v n : Nat) : Nat := v / 2 ^ n + v % 2 ^ n * 2 ^ (w - n)

/-- Σ: three rotations. -/
def shaBig (w : Nat) (r : Nat × Nat × Nat) (v : Nat) : Nat :=
  Nat.xor (rotr w v r.1) (Nat.xor (rotr w v r.2.1) (rotr w v r.2.2))

/-- σ: two rotations and a shift. -/
def shaSmall (w : Nat) (r : Nat × Nat × Nat) (v : Nat) : Nat :=
  Nat.xor (rotr w v r.1) (Nat.xor (rotr w v r.2.1) (v / 2 ^ r.2.2))

/-- `n` further words of the message schedule, newest first. -/
def shaExtend (z : ShaSize) : Nat → List Nat → List Nat
  | 0, ws => ws
  | n + 1, ws =>
    shaExtend z n (((shaSmall z.w z.small1 (ws.getD 1 0) + ws.getD 6 0 + shaSmall z.w z.small0 (ws.getD 14 0) +
      ws.getD 15 0) % 2 ^ z.w) :: ws)

/-- One round on the working variables a to h, with constant number and schedule word. -/
def shaRound (z : ShaSize) (v : List Nat) (k wt : Nat) : List Nat :=
  match v with
  | [a, b, c, d, e, f, g, h] =>
    let ch := Nat.xor (Nat.land e f) (Nat.land (2 ^ z.w - 1 - e) g)
    let maj := Nat.xor (Nat.land a b) (Nat.xor (Nat.land a c) (Nat.land b c))
    let t1 := h + shaBig z.w z.big1 e + ch + k + wt
    let t2 := shaBig z.w z.big0 a + maj
    [(t1 + t2) % 2 ^ z.w, a, b, c, (d + t1) % 2 ^ z.w, e, f, g]
  | v => v

/-- One block of 16 words into the hash value. -/
def shaBlock (z : ShaSize) (hv : List Nat) (blk : List Nat) : List Nat :=
  let ws := (shaExtend z (z.rounds - 16) blk.reverse).reverse
  let out := (ws.zipIdx).foldl (fun v x => shaRound z v (bits z.k (z.w * x.2) z.w) x.1) hv
  (hv.zip out).map fun x => (x.1 + x.2) % 2 ^ z.w

/-- The message in words of `n` bytes, big-endian (`fuel` words at most). -/
def beWords (n : Nat) : Nat → Bytes → List Nat
  | 0, _ => []
  | fuel + 1, b => if b.isEmpty then [] else beNat (b.take n) :: beWords n fuel (b.drop n)

/-- Whole blocks of 16 words into the hash value (`fuel` blocks at most). -/
def shaBlocks (z : ShaSize) : Nat → List Nat → List Nat → List Nat
  | 0, hv, _ => hv
  | fuel + 1, hv, ws => if ws.isEmpty then hv else shaBlocks z fuel (shaBlock z hv (ws.take 16)) (ws.drop 16)

/-- The padding of a message of `n` bytes: a one bit, zeros, and its length in bits in a quarter of a word pair. -/
def shaPad (z : ShaSize) (n : Nat) : Bytes :=
  let blk := z.w * 2
  let len := z.w / 4
  0x80#8 :: (zeros ((2 * blk - 1 - len - n % blk) % blk) ++ beBytes len (8 * n))

/-- The first `words` words of the hash of a message. -/
def shaHash (z : ShaSize) (init words : Nat) (msg : Bytes) : Bytes :=
  let m := msg ++ shaPad z msg.length
  let ws := beWords (z.w / 8) m.length m
  let hv := shaBlocks z ws.length ((List.range 8).map fun i => bits init (z.w * i) z.w) ws
  ((hv.take words).map (beBytes (z.w / 8))).flatten

/-- SHA-256 of a message, 32 bytes. -/
def sha256 (msg : Bytes) : Bytes := shaHash sha256Size h256 8 msg

/-- SHA-384 of a message, 48 bytes (R294). -/
def sha384 (msg : Bytes) : Bytes := shaHash sha512Size h384 6 msg

/-- HMAC-SHA-256 of a message, 32 bytes (R389): a key longer than a block is hashed first. -/
def hmac (key msg : Bytes) : Bytes :=
  let k := bfit (if key.length ≤ 64 then key else sha256 key) 64
  sha256 (k.map (· ^^^ 0x5C#8) ++ sha256 (k.map (· ^^^ 0x36#8) ++ msg))

/-! ## ECDSA over P-384 -/

/-- The field prime, the order of the base point, and the coefficient b of the curve y² = x³ − 3x + b. -/
def p384P : Nat := 2 ^ 384 - 2 ^ 128 - 2 ^ 96 + 2 ^ 32 - 1
def p384N : Nat := 0xFFFFFFFFFFFFFFFFFFFFFFFFFFFFFFFFFFFFFFFFFFFFFFFFC7634D81F4372DDF581A0DB248B0A77AECEC196ACCC52973
def p384B : Nat := 0xB3312FA7E23EE7E4988E056BE3F82D19181D9C6EFE8141120314088F5013875AC656398D8A2ED19D2A85C8EDD3EC2AEF

/-- The base point. -/
def p384Gx : Nat := 0xAA87CA22BE8B05378EB1C71EF320AD746E1D3B628BA79B9859F741E082542A385502F25DBF55296C3A545E3872760AB7
def p384Gy : Nat := 0x3617DE4A96262C6F5D9E98BF9292DC29F8F41DBD289A147CE9DA3113B5F0B8C00A60B1CE1D7E819D7A431D7C90EA0E5F

/-- A power modulo `m`, over the lowest `n` bits of the exponent. -/
def powMod (m b e : Nat) : Nat → Nat
  | 0 => 1
  | n + 1 =>
    let h := powMod m (b * b % m) (e / 2) n
    if e % 2 = 1 then b * h % m else h

/-- The inverse modulo a prime below 2^384. -/
def invMod (m a : Nat) : Nat := powMod m (a % m) (m - 2) 384

/-- A point of the curve; `none` is the point at infinity. -/
abbrev EcPoint := Option (Nat × Nat)

/-- The chord-and-tangent sum of two points. -/
def ecAdd (a b : EcPoint) : EcPoint :=
  match a, b with
  | none, q => q
  | p, none => p
  | some (x1, y1), some (x2, y2) =>
    if x1 = x2 ∧ (y1 + y2) % p384P = 0 then none
    else
      let s := if x1 = x2 then (3 * x1 * x1 + (p384P - 3)) * invMod p384P (2 * y1) % p384P
        else (y2 + p384P - y1) * invMod p384P (x2 + p384P - x1) % p384P
      let x3 := (s * s + 2 * p384P - x1 - x2) % p384P
      some (x3, (s * (x1 + p384P - x3) + p384P - y1) % p384P)

/-- A multiple of a point, over the lowest `n` bits of the factor. -/
def ecMul (q : EcPoint) (k : Nat) : Nat → EcPoint
  | 0 => none
  | n + 1 =>
    let r := ecMul (ecAdd q q) (k / 2) n
    if k % 2 = 1 then ecAdd q r else r

/-- A public key of Table 10-5: 0x04 and the two coordinates, on the curve. -/
def ecKey (pub : Bytes) : EcPoint :=
  let x := beNat (bsub pub 1 48)
  let y := beNat (bsub pub 49 48)
  if pub.length = 97 ∧ bsub pub 0 1 = [0x04#8] ∧ x < p384P ∧ y < p384P ∧
      y * y % p384P = (x * x * x + (p384P - 3) * x + p384B) % p384P then some (x, y) else none

/-- Whether a signature r ‖ s of 96 bytes over a digest of 48 bytes is that of the public key (R294). -/
def ecdsaVerify (pub digest sig : Bytes) : Bool :=
  let r := beNat (bsub sig 0 48)
  let s := beNat (bsub sig 48 48)
  match ecKey pub with
  | none => false
  | some q =>
    if sig.length ≠ 96 ∨ r = 0 ∨ p384N ≤ r ∨ s = 0 ∨ p384N ≤ s then false
    else
      let w := invMod p384N s
      let u1 := beNat digest * w % p384N
      let u2 := r * w % p384N
      match ecAdd (ecMul (some (p384Gx, p384Gy)) u1 384) (ecMul (some q) u2 384) with
      | none => false
      | some (x, _) => x % p384N == r

end Sys2Proof.Machine
end

