-- ==== Sys2Proof/Machine/Crypto.lean ====
section
/-! DEFINITION. Sealing with AES-256-GCM (R72, R272, R286) and the key derivation of R275 over the anchor key. -/

namespace Sys2Proof.Machine

/-- A text under the keystream from byte `i` on. -/
def gcmXor (key iv : Bytes) : Nat → Bytes → Bytes
  | _, [] => []
  | i, b :: t => (b ^^^ gcmStream key iv i) :: gcmXor key iv (i + 1) t

/-- AES-256-GCM sealing: the ciphertext and its tag. -/
def gcmSeal (key iv aad text : Bytes) : Bytes × Bytes := (gcmXor key iv 0 text, gcmTag key iv aad (gcmXor key iv 0 text))

/-- AES-256-GCM opening: `none` when the tag fails. -/
def gcmOpen (key iv aad ct tag : Bytes) : Option Bytes :=
  if tag = gcmTag key iv aad ct then some (gcmXor key iv 0 ct) else none

/-- The counter-mode derivation of R275: K(1) ‖ K(2) over the label "AETHELO8" and a context. -/
def kdf (root ctx : Bytes) : Bytes :=
  let k (i : Nat) : Bytes := cmac root (beBytes 4 i ++ [0x41#8, 0x45#8, 0x54#8, 0x48#8, 0x45#8, 0x4C#8, 0x4F#8, 0x38#8, 0x00#8] ++
    ctx ++ beBytes 4 256)
  k 1 ++ k 2

/-- The device wrap key of a serial number (R271, Table 10-2). -/
def wrapKey (serial : Nat) : Bytes := kdf Config.anchorKey (beBytes 8 serial ++ zeros 4 ++ [0xF0#8, 0, 0, 0])

/-- The factory key of a serial number (R271, Table 10-2). -/
def factoryKey (serial : Nat) : Bytes := kdf Config.anchorKey (beBytes 8 serial ++ zeros 4 ++ [0xF1#8, 0, 0, 0])

end Sys2Proof.Machine
end

