-- ==== Sys2Proof/Machine/Regs.lean ====
section
/-! DEFINITION. The register map: one entry per field of the field tables, at the offsets of Table 18-5. -/

namespace Sys2Proof.Machine.Reg

/-- Access codes of the field tables (00_scope, "Access"). -/
inductive Acc where
  | ro | rw | w1c | rc | wo | rwl
  deriving DecidableEq, Repr

/-- One register field: offset of its register, low bit, width, access, reset value, write level (R473, Table 18-5),
accepted range, and whether PD0 keeps it through device reset (R472). -/
structure Fld where
  off : Nat
  lo : Nat
  w : Nat
  acc : Acc
  reset : Nat
  level : Nat
  rlo : Nat
  rhi : Nat
  pd0 : Bool
  deriving DecidableEq, Repr

/-- One row of the field tables, for all instances of its register; `resetIsIndex`: its reset value is the instance
number ("n" in the tables). -/
structure FldD where
  base : Nat
  stride : Nat
  count : Nat
  lo : Nat
  w : Nat
  acc : Acc
  reset : Nat
  resetIsIndex : Bool
  level : Nat
  rlo : Nat
  rhi : Nat
  pd0 : Bool
  deriving DecidableEq, Repr

/-- The field of instance `n`. -/
def FldD.at (d : FldD) (n : Nat) : Fld :=
  ⟨d.base + d.stride * n, d.lo, d.w, d.acc, if d.resetIsIndex then n else d.reset, d.level, d.rlo, d.rhi, d.pd0⟩

/-- The key of a field in the register table. -/
def Fld.key (f : Fld) : Nat := f.off * 64 + f.lo

/-- ID_DEVICE.PART (R1, Table 18-6): RO -/
def idDevicePartD : FldD := ⟨0x0, 0, 1, 0, 16, .ro, 33792, false, 0, 0, 65535, false⟩

/-- The field ID_DEVICE.PART. -/
abbrev idDevicePart : Fld := idDevicePartD.at 0

/-- ID_DEVICE.GRADE (R1, Table 18-6): RO -/
def idDeviceGradeD : FldD := ⟨0x0, 0, 1, 16, 2, .ro, 0, false, 0, 0, 3, false⟩

/-- The field ID_DEVICE.GRADE. -/
abbrev idDeviceGrade : Fld := idDeviceGradeD.at 0

/-- ID_DEVICE.STEPPING (R1, Table 18-6): RO -/
def idDeviceSteppingD : FldD := ⟨0x0, 0, 1, 20, 4, .ro, 0, false, 0, 0, 15, false⟩

/-- The field ID_DEVICE.STEPPING. -/
abbrev idDeviceStepping : Fld := idDeviceSteppingD.at 0

/-- ID_DEVICE.SERIAL (R1, Table 18-6): RO -/
def idDeviceSerialD : FldD := ⟨0x0, 0, 1, 64, 64, .ro, 0, false, 0, 0, 18446744073709551615, false⟩

/-- The field ID_DEVICE.SERIAL. -/
abbrev idDeviceSerial : Fld := idDeviceSerialD.at 0

/-- ID_BOOT.COUNT (R390, Table 18-6): RO -/
def idBootCountD : FldD := ⟨0x10, 0, 1, 0, 32, .ro, 0, false, 0, 0, 4294967295, true⟩

/-- The field ID_BOOT.COUNT. -/
abbrev idBootCount : Fld := idBootCountD.at 0

/-- ID_FW.SEC_VERSION (R296, Table 18-6): RO -/
def idFwSecVersionD : FldD := ⟨0x18, 0, 1, 0, 32, .ro, 0, false, 0, 0, 4294967295, false⟩

/-- The field ID_FW.SEC_VERSION. -/
abbrev idFwSecVersion : Fld := idFwSecVersionD.at 0

/-- ID_FW.SEC_COUNTER (R296, Table 18-6): RO -/
def idFwSecCounterD : FldD := ⟨0x18, 0, 1, 32, 32, .ro, 0, false, 0, 0, 4294967295, false⟩

/-- The field ID_FW.SEC_COUNTER. -/
abbrev idFwSecCounter : Fld := idFwSecCounterD.at 0

/-- ID_FW_BUILD.BUILD (R294, Table 18-6): RO -/
def idFwBuildBuildD : FldD := ⟨0x20, 0, 1, 0, 64, .ro, 0, false, 0, 0, 18446744073709551615, false⟩

/-- The field ID_FW_BUILD.BUILD. -/
abbrev idFwBuildBuild : Fld := idFwBuildBuildD.at 0

/-- ID_PCI.VENDOR (R466, Table 18-6): RO -/
def idPciVendorD : FldD := ⟨0x28, 0, 1, 0, 16, .ro, 8131, false, 0, 0, 65535, false⟩

/-- The field ID_PCI.VENDOR. -/
abbrev idPciVendor : Fld := idPciVendorD.at 0

/-- ID_PCI.DEVICE (R466, Table 18-6): RO -/
def idPciDeviceD : FldD := ⟨0x28, 0, 1, 16, 16, .ro, 33792, false, 0, 0, 65535, false⟩

/-- The field ID_PCI.DEVICE. -/
abbrev idPciDevice : Fld := idPciDeviceD.at 0

/-- ID_PCI.REVISION (R466, Table 18-6): RO -/
def idPciRevisionD : FldD := ⟨0x28, 0, 1, 32, 8, .ro, 0, false, 0, 0, 255, false⟩

/-- The field ID_PCI.REVISION. -/
abbrev idPciRevision : Fld := idPciRevisionD.at 0

/-- ID_PCI.CLASS (R466, Table 18-6): RO -/
def idPciClassD : FldD := ⟨0x28, 0, 1, 40, 24, .ro, 360448, false, 0, 0, 16777215, false⟩

/-- The field ID_PCI.CLASS. -/
abbrev idPciClass : Fld := idPciClassD.at 0

/-- FAB_TIMEBASE.V (R29, Table 18-5): RO -/
def fabTimebaseD : FldD := ⟨0x1000, 0, 1, 0, 64, .ro, 0, false, 0, 0, 18446744073709551615, true⟩

/-- The field FAB_TIMEBASE.V. -/
abbrev fabTimebase : Fld := fabTimebaseD.at 0

/-- FAB_TB_STATUS.CLK_LOSS (R30, Table 18-10): W1C -/
def fabTbStatusClkLossD : FldD := ⟨0x1008, 0, 1, 0, 1, .w1c, 0, false, 1, 0, 1, true⟩

/-- The field FAB_TB_STATUS.CLK_LOSS. -/
abbrev fabTbStatusClkLoss : Fld := fabTbStatusClkLossD.at 0

/-- FAB_TB_STATUS.SDCLK_LOSS (R30, Table 18-10): W1C -/
def fabTbStatusSdclkLossD : FldD := ⟨0x1008, 0, 1, 1, 1, .w1c, 0, false, 1, 0, 1, true⟩

/-- The field FAB_TB_STATUS.SDCLK_LOSS. -/
abbrev fabTbStatusSdclkLoss : Fld := fabTbStatusSdclkLossD.at 0

/-- FAB_TB_STATUS.OSC (R30, Table 18-10): RO -/
def fabTbStatusOscD : FldD := ⟨0x1008, 0, 1, 2, 1, .ro, 0, false, 0, 0, 1, true⟩

/-- The field FAB_TB_STATUS.OSC. -/
abbrev fabTbStatusOsc : Fld := fabTbStatusOscD.at 0

/-- FAB_VCORE.REQ (R25, Table 2-3): RW -/
def fabVcoreReqD : FldD := ⟨0x1010, 0, 1, 0, 8, .rw, 26, false, 1, 0, 46, false⟩

/-- The field FAB_VCORE.REQ. -/
abbrev fabVcoreReq : Fld := fabVcoreReqD.at 0

/-- FAB_VCORE.AVS_FAULT (R25, Table 2-3): W1C -/
def fabVcoreAvsFaultD : FldD := ⟨0x1010, 0, 1, 14, 1, .w1c, 0, false, 1, 0, 1, false⟩

/-- The field FAB_VCORE.AVS_FAULT. -/
abbrev fabVcoreAvsFault : Fld := fabVcoreAvsFaultD.at 0

/-- FAB_VCORE.RANGE_ERR (R25, Table 2-3): W1C -/
def fabVcoreRangeErrD : FldD := ⟨0x1010, 0, 1, 15, 1, .w1c, 0, false, 1, 0, 1, false⟩

/-- The field FAB_VCORE.RANGE_ERR. -/
abbrev fabVcoreRangeErr : Fld := fabVcoreRangeErrD.at 0

/-- FAB_VCORE.CEIL (R25, Table 2-3): RO -/
def fabVcoreCeilD : FldD := ⟨0x1010, 0, 1, 16, 8, .ro, 46, false, 0, 0, 255, false⟩

/-- The field FAB_VCORE.CEIL. -/
abbrev fabVcoreCeil : Fld := fabVcoreCeilD.at 0

/-- FAB_VCORE.TARGET (R25, Table 2-3): RO -/
def fabVcoreTargetD : FldD := ⟨0x1010, 0, 1, 24, 8, .ro, 26, false, 0, 0, 255, false⟩

/-- The field FAB_VCORE.TARGET. -/
abbrev fabVcoreTarget : Fld := fabVcoreTargetD.at 0

/-- FAB_VCORE.READBACK_MV (R25, Table 2-3): RO -/
def fabVcoreReadbackMvD : FldD := ⟨0x1010, 0, 1, 32, 12, .ro, 0, false, 0, 0, 4095, false⟩

/-- The field FAB_VCORE.READBACK_MV. -/
abbrev fabVcoreReadbackMv : Fld := fabVcoreReadbackMvD.at 0

/-- FAB_WDOG.THRESH (R34, Table 18-10): RW -/
def fabWdogThreshD : FldD := ⟨0x1018, 0, 1, 0, 8, .rw, 4, false, 1, 1, 4, false⟩

/-- The field FAB_WDOG.THRESH. -/
abbrev fabWdogThresh : Fld := fabWdogThreshD.at 0

/-- FAB_PD_IDLE.TIME (R39, Table 18-10): RW -/
def fabPdIdleTimeD : FldD := ⟨0x1020, 0, 1, 0, 16, .rw, 1000, false, 1, 0, 65535, false⟩

/-- The field FAB_PD_IDLE.TIME. -/
abbrev fabPdIdleTime : Fld := fabPdIdleTimeD.at 0

/-- FAB_STALL.MAP (R35, Table 18-5): W1C -/
def fabStallMapD : FldD := ⟨0x1030, 8, 2, 0, 64, .w1c, 0, false, 1, 0, 18446744073709551615, false⟩

/-- The field FAB_STALL.MAP of instance `n`. -/
abbrev fabStallMap (n : Nat) : Fld := fabStallMapD.at n

/-- FAB_PD_STATUS.MAP (R41, Table 18-5): RO -/
def fabPdStatusMapD : FldD := ⟨0x1040, 8, 2, 0, 64, .ro, 0, false, 0, 0, 18446744073709551615, false⟩

/-- The field FAB_PD_STATUS.MAP of instance `n`. -/
abbrev fabPdStatusMap (n : Nat) : Fld := fabPdStatusMapD.at n

/-- FAB_SRAM_STATUS.SEC_CORR (R251, Table 8-16): RC -/
def fabSramStatusSecCorrD : FldD := ⟨0x1050, 0, 1, 0, 24, .rc, 0, false, 0, 0, 16777215, false⟩

/-- The field FAB_SRAM_STATUS.SEC_CORR. -/
abbrev fabSramStatusSecCorr : Fld := fabSramStatusSecCorrD.at 0

/-- FAB_SRAM_STATUS.UNCORR (R251, Table 8-16): RC -/
def fabSramStatusUncorrD : FldD := ⟨0x1050, 0, 1, 24, 16, .rc, 0, false, 0, 0, 65535, false⟩

/-- The field FAB_SRAM_STATUS.UNCORR. -/
abbrev fabSramStatusUncorr : Fld := fabSramStatusUncorrD.at 0

/-- FAB_SRAM_STATUS.SOFT_MAP_USED (R251, Table 8-16): RO -/
def fabSramStatusSoftMapUsedD : FldD := ⟨0x1050, 0, 1, 40, 11, .ro, 0, false, 0, 0, 2047, false⟩

/-- The field FAB_SRAM_STATUS.SOFT_MAP_USED. -/
abbrev fabSramStatusSoftMapUsed : Fld := fabSramStatusSoftMapUsedD.at 0

/-- FAB_SRAM_STATUS.SLOTS_DISABLED (R251, Table 8-16): RO -/
def fabSramStatusSlotsDisabledD : FldD := ⟨0x1050, 0, 1, 51, 12, .ro, 0, false, 0, 0, 4095, false⟩

/-- The field FAB_SRAM_STATUS.SLOTS_DISABLED. -/
abbrev fabSramStatusSlotsDisabled : Fld := fabSramStatusSlotsDisabledD.at 0

/-- FAB_LADDER_CFG.AUTO_RESET (R450, Table 16-5): RW -/
def fabLadderCfgAutoResetD : FldD := ⟨0x1058, 0, 1, 0, 1, .rw, 1, false, 2, 0, 1, true⟩

/-- The field FAB_LADDER_CFG.AUTO_RESET. -/
abbrev fabLadderCfgAutoReset : Fld := fabLadderCfgAutoResetD.at 0

/-- FAB_LADDER_CFG.AUTO_CYCLE (R450, Table 16-5): RW -/
def fabLadderCfgAutoCycleD : FldD := ⟨0x1058, 0, 1, 1, 1, .rw, 1, false, 2, 0, 1, true⟩

/-- The field FAB_LADDER_CFG.AUTO_CYCLE. -/
abbrev fabLadderCfgAutoCycle : Fld := fabLadderCfgAutoCycleD.at 0

/-- FAB_LADDER_STATUS.RESETS_1H (R450, Table 16-6): RO -/
def fabLadderStatusResets1hD : FldD := ⟨0x1060, 0, 1, 0, 2, .ro, 0, false, 0, 0, 3, true⟩

/-- The field FAB_LADDER_STATUS.RESETS_1H. -/
abbrev fabLadderStatusResets1h : Fld := fabLadderStatusResets1hD.at 0

/-- FAB_LADDER_STATUS.CYCLES_1H (R450, Table 16-6): RO -/
def fabLadderStatusCycles1hD : FldD := ⟨0x1060, 0, 1, 2, 2, .ro, 0, false, 0, 0, 3, true⟩

/-- The field FAB_LADDER_STATUS.CYCLES_1H. -/
abbrev fabLadderStatusCycles1h : Fld := fabLadderStatusCycles1hD.at 0

/-- FAB_LADDER_STATUS.LAST_RUNG (R450, Table 16-6): RO -/
def fabLadderStatusLastRungD : FldD := ⟨0x1060, 0, 1, 4, 3, .ro, 0, false, 0, 0, 7, true⟩

/-- The field FAB_LADDER_STATUS.LAST_RUNG. -/
abbrev fabLadderStatusLastRung : Fld := fabLadderStatusLastRungD.at 0

/-- FAB_LADDER_STATUS.LAST_CLASS (R450, Table 16-6): RO -/
def fabLadderStatusLastClassD : FldD := ⟨0x1060, 0, 1, 7, 4, .ro, 0, false, 0, 0, 15, true⟩

/-- The field FAB_LADDER_STATUS.LAST_CLASS. -/
abbrev fabLadderStatusLastClass : Fld := fabLadderStatusLastClassD.at 0

/-- FAB_LADDER_STATUS.LAST_INDEX (R450, Table 16-6): RO -/
def fabLadderStatusLastIndexD : FldD := ⟨0x1060, 0, 1, 11, 14, .ro, 0, false, 0, 0, 16383, true⟩

/-- The field FAB_LADDER_STATUS.LAST_INDEX. -/
abbrev fabLadderStatusLastIndex : Fld := fabLadderStatusLastIndexD.at 0

/-- FAB_LADDER_STATUS.HELD_OFF (R450, Table 16-6): RO -/
def fabLadderStatusHeldOffD : FldD := ⟨0x1060, 0, 1, 25, 1, .ro, 0, false, 0, 0, 1, true⟩

/-- The field FAB_LADDER_STATUS.HELD_OFF. -/
abbrev fabLadderStatusHeldOff : Fld := fabLadderStatusHeldOffD.at 0

/-- FAB_START_STATUS.STAGE (R465, Table 17-8): RO -/
def fabStartStatusStageD : FldD := ⟨0x1068, 0, 1, 0, 4, .ro, 1, false, 0, 0, 15, true⟩

/-- The field FAB_START_STATUS.STAGE. -/
abbrev fabStartStatusStage : Fld := fabStartStatusStageD.at 0

/-- FAB_START_STATUS.CAUSE (R465, Table 17-8): RO -/
def fabStartStatusCauseD : FldD := ⟨0x1068, 0, 1, 4, 3, .ro, 0, false, 0, 0, 7, true⟩

/-- The field FAB_START_STATUS.CAUSE. -/
abbrev fabStartStatusCause : Fld := fabStartStatusCauseD.at 0

/-- FAB_START_STATUS.CAMP_TRUSTED (R465, Table 17-8): RO -/
def fabStartStatusCampTrustedD : FldD := ⟨0x1068, 0, 1, 7, 1, .ro, 0, false, 0, 0, 1, true⟩

/-- The field FAB_START_STATUS.CAMP_TRUSTED. -/
abbrev fabStartStatusCampTrusted : Fld := fabStartStatusCampTrustedD.at 0

/-- FAB_START_STATUS.BANK (R465, Table 17-8): RO -/
def fabStartStatusBankD : FldD := ⟨0x1068, 0, 1, 8, 1, .ro, 0, false, 0, 0, 1, true⟩

/-- The field FAB_START_STATUS.BANK. -/
abbrev fabStartStatusBank : Fld := fabStartStatusBankD.at 0

/-- FAB_START_STATUS.RECOVERY (R465, Table 17-8): RO -/
def fabStartStatusRecoveryD : FldD := ⟨0x1068, 0, 1, 9, 1, .ro, 0, false, 0, 0, 1, true⟩

/-- The field FAB_START_STATUS.RECOVERY. -/
abbrev fabStartStatusRecovery : Fld := fabStartStatusRecoveryD.at 0

/-- FAB_START_STATUS.FALLBACK (R465, Table 17-8): RO -/
def fabStartStatusFallbackD : FldD := ⟨0x1068, 0, 1, 10, 1, .ro, 0, false, 0, 0, 1, true⟩

/-- The field FAB_START_STATUS.FALLBACK. -/
abbrev fabStartStatusFallback : Fld := fabStartStatusFallbackD.at 0

/-- FAB_START_STATUS.FAILED_STARTS (R465, Table 17-8): RO -/
def fabStartStatusFailedStartsD : FldD := ⟨0x1068, 0, 1, 11, 2, .ro, 0, false, 0, 0, 3, true⟩

/-- The field FAB_START_STATUS.FAILED_STARTS. -/
abbrev fabStartStatusFailedStarts : Fld := fabStartStatusFailedStartsD.at 0

/-- FAB_START_STATUS.BOOT_SRC (R465, Table 17-8): RO -/
def fabStartStatusBootSrcD : FldD := ⟨0x1068, 0, 1, 13, 2, .ro, 0, false, 0, 0, 3, true⟩

/-- The field FAB_START_STATUS.BOOT_SRC. -/
abbrev fabStartStatusBootSrc : Fld := fabStartStatusBootSrcD.at 0

/-- FAB_START_STATUS.WAIT (R465, Table 17-8): RO -/
def fabStartStatusWaitD : FldD := ⟨0x1068, 0, 1, 16, 4, .ro, 0, false, 0, 0, 15, true⟩

/-- The field FAB_START_STATUS.WAIT. -/
abbrev fabStartStatusWait : Fld := fabStartStatusWaitD.at 0

/-- FAB_START_STATUS.OPEN_MS (R465, Table 17-8): RO -/
def fabStartStatusOpenMsD : FldD := ⟨0x1068, 0, 1, 32, 32, .ro, 0, false, 0, 0, 4294967295, true⟩

/-- The field FAB_START_STATUS.OPEN_MS. -/
abbrev fabStartStatusOpenMs : Fld := fabStartStatusOpenMsD.at 0

/-- MBX_DOORBELL.RING (R476, Table 18-7): WO -/
def mbxDoorbellRingD : FldD := ⟨0x30000, 0, 1, 0, 8, .wo, 0, false, 0, 0, 255, false⟩

/-- The field MBX_DOORBELL.RING. -/
abbrev mbxDoorbellRing : Fld := mbxDoorbellRingD.at 0

/-- MBX_RELEASE.FREE (R476, Table 18-7): WO -/
def mbxReleaseFreeD : FldD := ⟨0x30008, 0, 1, 0, 8, .wo, 0, false, 0, 0, 255, false⟩

/-- The field MBX_RELEASE.FREE. -/
abbrev mbxReleaseFree : Fld := mbxReleaseFreeD.at 0

/-- MBX_STATE.SLOT0 (R476, Table 18-7): RO -/
def mbxStateSlot0D : FldD := ⟨0x30010, 0, 1, 0, 4, .ro, 0, false, 0, 0, 15, false⟩

/-- The field MBX_STATE.SLOT0. -/
abbrev mbxStateSlot0 : Fld := mbxStateSlot0D.at 0

/-- MBX_STATE.SLOT1 (R476, Table 18-7): RO -/
def mbxStateSlot1D : FldD := ⟨0x30010, 0, 1, 4, 4, .ro, 0, false, 0, 0, 15, false⟩

/-- The field MBX_STATE.SLOT1. -/
abbrev mbxStateSlot1 : Fld := mbxStateSlot1D.at 0

/-- MBX_STATE.SLOT2 (R476, Table 18-7): RO -/
def mbxStateSlot2D : FldD := ⟨0x30010, 0, 1, 8, 4, .ro, 0, false, 0, 0, 15, false⟩

/-- The field MBX_STATE.SLOT2. -/
abbrev mbxStateSlot2 : Fld := mbxStateSlot2D.at 0

/-- MBX_STATE.SLOT3 (R476, Table 18-7): RO -/
def mbxStateSlot3D : FldD := ⟨0x30010, 0, 1, 12, 4, .ro, 0, false, 0, 0, 15, false⟩

/-- The field MBX_STATE.SLOT3. -/
abbrev mbxStateSlot3 : Fld := mbxStateSlot3D.at 0

/-- MBX_STATE.SLOT4 (R476, Table 18-7): RO -/
def mbxStateSlot4D : FldD := ⟨0x30010, 0, 1, 16, 4, .ro, 0, false, 0, 0, 15, false⟩

/-- The field MBX_STATE.SLOT4. -/
abbrev mbxStateSlot4 : Fld := mbxStateSlot4D.at 0

/-- MBX_STATE.SLOT5 (R476, Table 18-7): RO -/
def mbxStateSlot5D : FldD := ⟨0x30010, 0, 1, 20, 4, .ro, 0, false, 0, 0, 15, false⟩

/-- The field MBX_STATE.SLOT5. -/
abbrev mbxStateSlot5 : Fld := mbxStateSlot5D.at 0

/-- MBX_STATE.SLOT6 (R476, Table 18-7): RO -/
def mbxStateSlot6D : FldD := ⟨0x30010, 0, 1, 24, 4, .ro, 0, false, 0, 0, 15, false⟩

/-- The field MBX_STATE.SLOT6. -/
abbrev mbxStateSlot6 : Fld := mbxStateSlot6D.at 0

/-- MBX_STATE.SLOT7 (R476, Table 18-7): RO -/
def mbxStateSlot7D : FldD := ⟨0x30010, 0, 1, 28, 4, .ro, 0, false, 0, 0, 15, false⟩

/-- The field MBX_STATE.SLOT7. -/
abbrev mbxStateSlot7 : Fld := mbxStateSlot7D.at 0

/-- MBX_STATE.BELL_IGNORED (R476, Table 18-7): RC -/
def mbxStateBellIgnoredD : FldD := ⟨0x30010, 0, 1, 32, 16, .rc, 0, false, 0, 0, 65535, false⟩

/-- The field MBX_STATE.BELL_IGNORED. -/
abbrev mbxStateBellIgnored : Fld := mbxStateBellIgnoredD.at 0

/-- MBX_INT_STATUS.SLOT (R477, Table 18-7): W1C -/
def mbxIntStatusSlotD : FldD := ⟨0x30018, 0, 1, 0, 8, .w1c, 0, false, 0, 0, 255, false⟩

/-- The field MBX_INT_STATUS.SLOT. -/
abbrev mbxIntStatusSlot : Fld := mbxIntStatusSlotD.at 0

/-- MBX_INT_CFG.VECTOR (R477, Table 18-7): RW -/
def mbxIntCfgVectorD : FldD := ⟨0x30020, 0, 1, 0, 8, .rw, 16, false, 0, 0, 255, false⟩

/-- The field MBX_INT_CFG.VECTOR. -/
abbrev mbxIntCfgVector : Fld := mbxIntCfgVectorD.at 0

/-- MBX_INT_CFG.EN (R477, Table 18-7): RW -/
def mbxIntCfgEnD : FldD := ⟨0x30020, 0, 1, 8, 1, .rw, 1, false, 0, 0, 1, false⟩

/-- The field MBX_INT_CFG.EN. -/
abbrev mbxIntCfgEn : Fld := mbxIntCfgEnD.at 0

/-- MBX_GRANT_CTRL.GO (R474, Table 18-4): WO -/
def mbxGrantCtrlGoD : FldD := ⟨0x30140, 0, 1, 0, 1, .wo, 0, false, 0, 0, 1, false⟩

/-- The field MBX_GRANT_CTRL.GO. -/
abbrev mbxGrantCtrlGo : Fld := mbxGrantCtrlGoD.at 0

/-- MBX_GRANT_CTRL.DROP (R474, Table 18-4): WO -/
def mbxGrantCtrlDropD : FldD := ⟨0x30140, 0, 1, 1, 1, .wo, 0, false, 0, 0, 1, false⟩

/-- The field MBX_GRANT_CTRL.DROP. -/
abbrev mbxGrantCtrlDrop : Fld := mbxGrantCtrlDropD.at 0

/-- MBX_GRANT_STATUS.LEVEL (R474, Table 18-4): RO -/
def mbxGrantStatusLevelD : FldD := ⟨0x30148, 0, 1, 0, 2, .ro, 0, false, 0, 0, 3, false⟩

/-- The field MBX_GRANT_STATUS.LEVEL. -/
abbrev mbxGrantStatusLevel : Fld := mbxGrantStatusLevelD.at 0

/-- MBX_GRANT_STATUS.RESULT (R474, Table 18-4): RO -/
def mbxGrantStatusResultD : FldD := ⟨0x30148, 0, 1, 2, 4, .ro, 0, false, 0, 0, 15, false⟩

/-- The field MBX_GRANT_STATUS.RESULT. -/
abbrev mbxGrantStatusResult : Fld := mbxGrantStatusResultD.at 0

/-- MBX_GRANT_STATUS.REMAINING_S (R474, Table 18-4): RO -/
def mbxGrantStatusRemainingSD : FldD := ⟨0x30148, 0, 1, 16, 12, .ro, 0, false, 0, 0, 4095, false⟩

/-- The field MBX_GRANT_STATUS.REMAINING_S. -/
abbrev mbxGrantStatusRemainingS : Fld := mbxGrantStatusRemainingSD.at 0

/-- MBX_GRANT_STATUS.DENIED (R474, Table 18-4): RC -/
def mbxGrantStatusDeniedD : FldD := ⟨0x30148, 0, 1, 32, 32, .rc, 0, false, 0, 0, 4294967295, false⟩

/-- The field MBX_GRANT_STATUS.DENIED. -/
abbrev mbxGrantStatusDenied : Fld := mbxGrantStatusDeniedD.at 0

/-- NQ_CFG.DEPTH_LOG2 (R430, Table 15-9): RWL -/
def nqCfgDepthLog2D : FldD := ⟨0x40080, 4096, 16, 0, 4, .rwl, 8, false, 1, 4, 10, false⟩

/-- The field NQ_CFG.DEPTH_LOG2 of instance `n`. -/
abbrev nqCfgDepthLog2 (n : Nat) : Fld := nqCfgDepthLog2D.at n

/-- NQ_CFG.VECTOR (R430, Table 15-9): RW -/
def nqCfgVectorD : FldD := ⟨0x40080, 4096, 16, 8, 8, .rw, 0, true, 1, 0, 255, false⟩

/-- The field NQ_CFG.VECTOR of instance `n`. -/
abbrev nqCfgVector (n : Nat) : Fld := nqCfgVectorD.at n

/-- NQ_CFG.EN (R430, Table 15-9): RW -/
def nqCfgEnD : FldD := ⟨0x40080, 4096, 16, 16, 1, .rw, 1, false, 1, 0, 1, false⟩

/-- The field NQ_CFG.EN of instance `n`. -/
abbrev nqCfgEn (n : Nat) : Fld := nqCfgEnD.at n

/-- NQ_STATUS.COUNT (R426, Table 15-10): RO -/
def nqStatusCountD : FldD := ⟨0x40088, 4096, 16, 0, 11, .ro, 0, false, 0, 0, 2047, false⟩

/-- The field NQ_STATUS.COUNT of instance `n`. -/
abbrev nqStatusCount (n : Nat) : Fld := nqStatusCountD.at n

/-- NQ_STATUS.RESETS (R426, Table 15-10): RC -/
def nqStatusResetsD : FldD := ⟨0x40088, 4096, 16, 16, 8, .rc, 0, false, 0, 0, 255, false⟩

/-- The field NQ_STATUS.RESETS of instance `n`. -/
abbrev nqStatusResets (n : Nat) : Fld := nqStatusResetsD.at n

/-- NQ_STATUS.BAD_READ (R426, Table 15-10): RC -/
def nqStatusBadReadD : FldD := ⟨0x40088, 4096, 16, 24, 8, .rc, 0, false, 0, 0, 255, false⟩

/-- The field NQ_STATUS.BAD_READ of instance `n`. -/
abbrev nqStatusBadRead (n : Nat) : Fld := nqStatusBadReadD.at n

/-- NQ_STATUS.LOST (R426, Table 15-10): RC -/
def nqStatusLostD : FldD := ⟨0x40088, 4096, 16, 32, 32, .rc, 0, false, 0, 0, 4294967295, false⟩

/-- The field NQ_STATUS.LOST of instance `n`. -/
abbrev nqStatusLost (n : Nat) : Fld := nqStatusLostD.at n

/-- SEQ_CFG.AUTO_ON (R373, Table 12-6): RW -/
def seqCfgAutoOnD : FldD := ⟨0x50000, 0, 1, 0, 1, .rw, 0, false, 2, 0, 1, true⟩

/-- The field SEQ_CFG.AUTO_ON. -/
abbrev seqCfgAutoOn : Fld := seqCfgAutoOnD.at 0

/-- SEQ_CFG.AUTO_RESTART (R373, Table 12-6): RW -/
def seqCfgAutoRestartD : FldD := ⟨0x50000, 0, 1, 1, 1, .rw, 0, false, 2, 0, 1, true⟩

/-- The field SEQ_CFG.AUTO_RESTART. -/
abbrev seqCfgAutoRestart : Fld := seqCfgAutoRestartD.at 0

/-- SEQ_CFG.BTN_ON (R373, Table 12-6): RW -/
def seqCfgBtnOnD : FldD := ⟨0x50000, 0, 1, 2, 1, .rw, 1, false, 2, 0, 1, true⟩

/-- The field SEQ_CFG.BTN_ON. -/
abbrev seqCfgBtnOn : Fld := seqCfgBtnOnD.at 0

/-- SEQ_CFG.BTN_LONG_S (R373, Table 12-6): RW -/
def seqCfgBtnLongSD : FldD := ⟨0x50000, 0, 1, 8, 4, .rw, 6, false, 2, 4, 15, true⟩

/-- The field SEQ_CFG.BTN_LONG_S. -/
abbrev seqCfgBtnLongS : Fld := seqCfgBtnLongSD.at 0

/-- SEQ_CFG.VIN_GOOD_MS (R373, Table 12-6): RW -/
def seqCfgVinGoodMsD : FldD := ⟨0x50000, 0, 1, 12, 12, .rw, 1000, false, 2, 100, 4000, true⟩

/-- The field SEQ_CFG.VIN_GOOD_MS. -/
abbrev seqCfgVinGoodMs : Fld := seqCfgVinGoodMsD.at 0

/-- SEQ_CFG.BIV_STEP_10US (R373, Table 12-6): RW -/
def seqCfgBivStep10usD : FldD := ⟨0x50000, 0, 1, 24, 8, .rw, 50, false, 2, 10, 100, true⟩

/-- The field SEQ_CFG.BIV_STEP_10US. -/
abbrev seqCfgBivStep10us : Fld := seqCfgBivStep10usD.at 0

/-- SEQ_CFG.CHATTER_N (R373, Table 12-6): RW -/
def seqCfgChatterND : FldD := ⟨0x50000, 0, 1, 32, 4, .rw, 8, false, 2, 2, 15, true⟩

/-- The field SEQ_CFG.CHATTER_N. -/
abbrev seqCfgChatterN : Fld := seqCfgChatterND.at 0

/-- SEQ_CFG.CHATTER_WIN_MS (R373, Table 12-6): RW -/
def seqCfgChatterWinMsD : FldD := ⟨0x50000, 0, 1, 36, 8, .rw, 100, false, 2, 10, 255, true⟩

/-- The field SEQ_CFG.CHATTER_WIN_MS. -/
abbrev seqCfgChatterWinMs : Fld := seqCfgChatterWinMsD.at 0

/-- SEQ_CFG.PG_LOSS_US (R373, Table 12-6): RW -/
def seqCfgPgLossUsD : FldD := ⟨0x50000, 0, 1, 44, 8, .rw, 100, false, 2, 10, 255, true⟩

/-- The field SEQ_CFG.PG_LOSS_US. -/
abbrev seqCfgPgLossUs : Fld := seqCfgPgLossUsD.at 0

/-- SEQ_CFG.GRACE_S (R373, Table 12-6): RW -/
def seqCfgGraceSD : FldD := ⟨0x50000, 0, 1, 52, 8, .rw, 30, false, 2, 5, 255, true⟩

/-- The field SEQ_CFG.GRACE_S. -/
abbrev seqCfgGraceS : Fld := seqCfgGraceSD.at 0

/-- SEQ_CFG.HOLDUP_WAIT_S (R373, Table 12-6): RW -/
def seqCfgHoldupWaitSD : FldD := ⟨0x50000, 0, 1, 60, 4, .rw, 15, false, 2, 1, 15, true⟩

/-- The field SEQ_CFG.HOLDUP_WAIT_S. -/
abbrev seqCfgHoldupWaitS : Fld := seqCfgHoldupWaitSD.at 0

/-- SEQ_STATUS.STATE (R342, Table 12-9): RO -/
def seqStatusStateD : FldD := ⟨0x50008, 0, 1, 0, 4, .ro, 0, false, 0, 0, 15, true⟩

/-- The field SEQ_STATUS.STATE. -/
abbrev seqStatusState : Fld := seqStatusStateD.at 0

/-- SEQ_STATUS.HOLDUP_OK (R342, Table 12-9): RO -/
def seqStatusHoldupOkD : FldD := ⟨0x50008, 0, 1, 8, 1, .ro, 0, false, 0, 0, 1, true⟩

/-- The field SEQ_STATUS.HOLDUP_OK. -/
abbrev seqStatusHoldupOk : Fld := seqStatusHoldupOkD.at 0

/-- SEQ_STATUS.HOLDUP_LOW (R342, Table 12-9): W1C -/
def seqStatusHoldupLowD : FldD := ⟨0x50008, 0, 1, 9, 1, .w1c, 0, false, 1, 0, 1, true⟩

/-- The field SEQ_STATUS.HOLDUP_LOW. -/
abbrev seqStatusHoldupLow : Fld := seqStatusHoldupLowD.at 0

/-- SEQ_STATUS.VIN_GOOD (R342, Table 12-9): RO -/
def seqStatusVinGoodD : FldD := ⟨0x50008, 0, 1, 10, 1, .ro, 0, false, 0, 0, 1, true⟩

/-- The field SEQ_STATUS.VIN_GOOD. -/
abbrev seqStatusVinGood : Fld := seqStatusVinGoodD.at 0

/-- SEQ_STATUS.WRITE_THROUGH (R342, Table 12-9): RO -/
def seqStatusWriteThroughD : FldD := ⟨0x50008, 0, 1, 11, 1, .ro, 0, false, 0, 0, 1, true⟩

/-- The field SEQ_STATUS.WRITE_THROUGH. -/
abbrev seqStatusWriteThrough : Fld := seqStatusWriteThroughD.at 0

/-- SEQ_STATUS.RAILS_ON (R342, Table 12-9): RO -/
def seqStatusRailsOnD : FldD := ⟨0x50008, 0, 1, 16, 24, .ro, 0, false, 0, 0, 16777215, true⟩

/-- The field SEQ_STATUS.RAILS_ON. -/
abbrev seqStatusRailsOn : Fld := seqStatusRailsOnD.at 0

/-- SEQ_STATUS.PG_STATE (R342, Table 12-9): RO -/
def seqStatusPgStateD : FldD := ⟨0x50008, 0, 1, 40, 24, .ro, 0, false, 0, 0, 16777215, true⟩

/-- The field SEQ_STATUS.PG_STATE. -/
abbrev seqStatusPgState : Fld := seqStatusPgStateD.at 0

/-- SEQ_FAULT.RAIL (R350, Table 12-10): RO -/
def seqFaultRailD : FldD := ⟨0x50010, 0, 1, 0, 5, .ro, 31, false, 0, 0, 31, true⟩

/-- The field SEQ_FAULT.RAIL. -/
abbrev seqFaultRail : Fld := seqFaultRailD.at 0

/-- SEQ_FAULT.CAUSE (R350, Table 12-10): RO -/
def seqFaultCauseD : FldD := ⟨0x50010, 0, 1, 5, 3, .ro, 0, false, 0, 0, 7, true⟩

/-- The field SEQ_FAULT.CAUSE. -/
abbrev seqFaultCause : Fld := seqFaultCauseD.at 0

/-- SEQ_FAULT.FAULT_MAP (R350, Table 12-10): W1C -/
def seqFaultFaultMapD : FldD := ⟨0x50010, 0, 1, 8, 24, .w1c, 0, false, 1, 0, 16777215, true⟩

/-- The field SEQ_FAULT.FAULT_MAP. -/
abbrev seqFaultFaultMap : Fld := seqFaultFaultMapD.at 0

/-- SEQ_FAULT.DISCH_TO_MAP (R350, Table 12-10): W1C -/
def seqFaultDischToMapD : FldD := ⟨0x50010, 0, 1, 32, 24, .w1c, 0, false, 1, 0, 16777215, true⟩

/-- The field SEQ_FAULT.DISCH_TO_MAP. -/
abbrev seqFaultDischToMap : Fld := seqFaultDischToMapD.at 0

/-- SEQ_FAULT.CHATTER_CNT (R350, Table 12-10): RC -/
def seqFaultChatterCntD : FldD := ⟨0x50010, 0, 1, 56, 8, .rc, 0, false, 0, 0, 255, true⟩

/-- The field SEQ_FAULT.CHATTER_CNT. -/
abbrev seqFaultChatterCnt : Fld := seqFaultChatterCntD.at 0

/-- SEQ_REPLAY.SLABS (R365, Table 12-11): RO -/
def seqReplaySlabsD : FldD := ⟨0x50018, 0, 1, 0, 32, .ro, 0, false, 0, 0, 4294967295, true⟩

/-- The field SEQ_REPLAY.SLABS. -/
abbrev seqReplaySlabs : Fld := seqReplaySlabsD.at 0

/-- SEQ_REPLAY.POISONED (R365, Table 12-11): RO -/
def seqReplayPoisonedD : FldD := ⟨0x50018, 0, 1, 32, 32, .ro, 0, false, 0, 0, 4294967295, true⟩

/-- The field SEQ_REPLAY.POISONED. -/
abbrev seqReplayPoisoned : Fld := seqReplayPoisonedD.at 0

/-- SEQ_MON_READ.C0 (R346, Table 18-5): RO -/
def seqMonReadC0D : FldD := ⟨0x50040, 8, 8, 0, 16, .ro, 0, false, 0, 0, 65535, true⟩

/-- The field SEQ_MON_READ.C0 of instance `n`. -/
abbrev seqMonReadC0 (n : Nat) : Fld := seqMonReadC0D.at n

/-- SEQ_MON_READ.C1 (R346, Table 18-5): RO -/
def seqMonReadC1D : FldD := ⟨0x50040, 8, 8, 16, 16, .ro, 0, false, 0, 0, 65535, true⟩

/-- The field SEQ_MON_READ.C1 of instance `n`. -/
abbrev seqMonReadC1 (n : Nat) : Fld := seqMonReadC1D.at n

/-- SEQ_MON_READ.C2 (R346, Table 18-5): RO -/
def seqMonReadC2D : FldD := ⟨0x50040, 8, 8, 32, 16, .ro, 0, false, 0, 0, 65535, true⟩

/-- The field SEQ_MON_READ.C2 of instance `n`. -/
abbrev seqMonReadC2 (n : Nat) : Fld := seqMonReadC2D.at n

/-- SEQ_MON_READ.C3 (R346, Table 18-5): RO -/
def seqMonReadC3D : FldD := ⟨0x50040, 8, 8, 48, 16, .ro, 0, false, 0, 0, 65535, true⟩

/-- The field SEQ_MON_READ.C3 of instance `n`. -/
abbrev seqMonReadC3 (n : Nat) : Fld := seqMonReadC3D.at n

/-- SEQ_RAIL.ORDER (R344, Table 12-7): RWL -/
def seqRailOrderD : FldD := ⟨0x50100, 8, 24, 0, 5, .rwl, 0, false, 2, 0, 31, true⟩

/-- The field SEQ_RAIL.ORDER of instance `n`. -/
abbrev seqRailOrder (n : Nat) : Fld := seqRailOrderD.at n

/-- SEQ_RAIL.DELAY_100US (R344, Table 12-7): RWL -/
def seqRailDelay100usD : FldD := ⟨0x50100, 8, 24, 8, 8, .rwl, 0, false, 2, 0, 255, true⟩

/-- The field SEQ_RAIL.DELAY_100US of instance `n`. -/
abbrev seqRailDelay100us (n : Nat) : Fld := seqRailDelay100usD.at n

/-- SEQ_RAIL.PG_TIMEOUT_MS (R344, Table 12-7): RWL -/
def seqRailPgTimeoutMsD : FldD := ⟨0x50100, 8, 24, 16, 8, .rwl, 0, false, 2, 1, 255, true⟩

/-- The field SEQ_RAIL.PG_TIMEOUT_MS of instance `n`. -/
abbrev seqRailPgTimeoutMs (n : Nat) : Fld := seqRailPgTimeoutMsD.at n

/-- SEQ_RAIL.DWELL_100US (R344, Table 12-7): RWL -/
def seqRailDwell100usD : FldD := ⟨0x50100, 8, 24, 24, 8, .rwl, 0, false, 2, 1, 255, true⟩

/-- The field SEQ_RAIL.DWELL_100US of instance `n`. -/
abbrev seqRailDwell100us (n : Nat) : Fld := seqRailDwell100usD.at n

/-- SEQ_RAIL.DISCH_MS (R344, Table 12-7): RWL -/
def seqRailDischMsD : FldD := ⟨0x50100, 8, 24, 32, 8, .rwl, 0, false, 2, 1, 255, true⟩

/-- The field SEQ_RAIL.DISCH_MS of instance `n`. -/
abbrev seqRailDischMs (n : Nat) : Fld := seqRailDischMsD.at n

/-- SEQ_RAIL.MON (R344, Table 12-7): RWL -/
def seqRailMonD : FldD := ⟨0x50100, 8, 24, 40, 5, .rwl, 0, false, 2, 0, 31, true⟩

/-- The field SEQ_RAIL.MON of instance `n`. -/
abbrev seqRailMon (n : Nat) : Fld := seqRailMonD.at n

/-- SEQ_RAIL.MON_EN (R344, Table 12-7): RWL -/
def seqRailMonEnD : FldD := ⟨0x50100, 8, 24, 45, 1, .rwl, 0, false, 2, 0, 1, true⟩

/-- The field SEQ_RAIL.MON_EN of instance `n`. -/
abbrev seqRailMonEn (n : Nat) : Fld := seqRailMonEnD.at n

/-- SEQ_RAIL.BIV_NEED (R344, Table 12-7): RWL -/
def seqRailBivNeedD : FldD := ⟨0x50100, 8, 24, 46, 1, .rwl, 0, false, 2, 0, 1, true⟩

/-- The field SEQ_RAIL.BIV_NEED of instance `n`. -/
abbrev seqRailBivNeed (n : Nat) : Fld := seqRailBivNeedD.at n

/-- SEQ_RAIL.PG_USED (R344, Table 12-7): RWL -/
def seqRailPgUsedD : FldD := ⟨0x50100, 8, 24, 47, 1, .rwl, 0, false, 2, 0, 1, true⟩

/-- The field SEQ_RAIL.PG_USED of instance `n`. -/
abbrev seqRailPgUsed (n : Nat) : Fld := seqRailPgUsedD.at n

/-- SEQ_MON.LOW_MV (R344, Table 12-8): RWL -/
def seqMonLowMvD : FldD := ⟨0x50200, 8, 32, 0, 16, .rwl, 0, false, 2, 0, 65535, true⟩

/-- The field SEQ_MON.LOW_MV of instance `n`. -/
abbrev seqMonLowMv (n : Nat) : Fld := seqMonLowMvD.at n

/-- SEQ_MON.HIGH_MV (R344, Table 12-8): RWL -/
def seqMonHighMvD : FldD := ⟨0x50200, 8, 32, 16, 16, .rwl, 0, false, 2, 0, 65535, true⟩

/-- The field SEQ_MON.HIGH_MV of instance `n`. -/
abbrev seqMonHighMv (n : Nat) : Fld := seqMonHighMvD.at n

/-- SEQ_MON.OFF_MV (R344, Table 12-8): RWL -/
def seqMonOffMvD : FldD := ⟨0x50200, 8, 32, 32, 16, .rwl, 0, false, 2, 0, 65535, true⟩

/-- The field SEQ_MON.OFF_MV of instance `n`. -/
abbrev seqMonOffMv (n : Nat) : Fld := seqMonOffMvD.at n

/-- SEQ_MON.SCALE_Q4 (R344, Table 12-8): RWL -/
def seqMonScaleQ4D : FldD := ⟨0x50200, 8, 32, 48, 8, .rwl, 0, false, 2, 0, 255, true⟩

/-- The field SEQ_MON.SCALE_Q4 of instance `n`. -/
abbrev seqMonScaleQ4 (n : Nat) : Fld := seqMonScaleQ4D.at n

/-- SEQ_MON.EN (R344, Table 12-8): RWL -/
def seqMonEnD : FldD := ⟨0x50200, 8, 32, 56, 1, .rwl, 0, false, 2, 0, 1, true⟩

/-- The field SEQ_MON.EN of instance `n`. -/
abbrev seqMonEn (n : Nat) : Fld := seqMonEnD.at n

/-- THM_CFG.WARN_C (R384, Table 13-3): RW -/
def thmCfgWarnCD : FldD := ⟨0x60000, 0, 1, 0, 8, .rw, 95, false, 2, 65, 95, true⟩

/-- The field THM_CFG.WARN_C. -/
abbrev thmCfgWarnC : Fld := thmCfgWarnCD.at 0

/-- THM_CFG.SLOW_C (R384, Table 13-3): RW -/
def thmCfgSlowCD : FldD := ⟨0x60000, 0, 1, 8, 8, .rw, 100, false, 2, 70, 100, true⟩

/-- The field THM_CFG.SLOW_C. -/
abbrev thmCfgSlowC : Fld := thmCfgSlowCD.at 0

/-- THM_CFG.GRACE_MS (R384, Table 13-3): RW -/
def thmCfgGraceMsD : FldD := ⟨0x60000, 0, 1, 16, 13, .rw, 500, false, 2, 0, 5000, true⟩

/-- The field THM_CFG.GRACE_MS. -/
abbrev thmCfgGraceMs : Fld := thmCfgGraceMsD.at 0

/-- THM_CFG.AUTO_RESTART (R384, Table 13-3): RW -/
def thmCfgAutoRestartD : FldD := ⟨0x60000, 0, 1, 29, 1, .rw, 0, false, 2, 0, 1, true⟩

/-- The field THM_CFG.AUTO_RESTART. -/
abbrev thmCfgAutoRestart : Fld := thmCfgAutoRestartD.at 0

/-- THM_STATUS.WARN (R377, Table 13-4): RO -/
def thmStatusWarnD : FldD := ⟨0x60008, 0, 1, 0, 1, .ro, 0, false, 0, 0, 1, true⟩

/-- The field THM_STATUS.WARN. -/
abbrev thmStatusWarn : Fld := thmStatusWarnD.at 0

/-- THM_STATUS.REQUESTED (R377, Table 13-4): RO -/
def thmStatusRequestedD : FldD := ⟨0x60008, 0, 1, 1, 1, .ro, 0, false, 0, 0, 1, true⟩

/-- The field THM_STATUS.REQUESTED. -/
abbrev thmStatusRequested : Fld := thmStatusRequestedD.at 0

/-- THM_STATUS.ENFORCED (R377, Table 13-4): RO -/
def thmStatusEnforcedD : FldD := ⟨0x60008, 0, 1, 2, 1, .ro, 0, false, 0, 0, 1, true⟩

/-- The field THM_STATUS.ENFORCED. -/
abbrev thmStatusEnforced : Fld := thmStatusEnforcedD.at 0

/-- THM_STATUS.TRIP (R377, Table 13-4): W1C -/
def thmStatusTripD : FldD := ⟨0x60008, 0, 1, 3, 1, .w1c, 0, false, 1, 0, 1, true⟩

/-- The field THM_STATUS.TRIP. -/
abbrev thmStatusTrip : Fld := thmStatusTripD.at 0

/-- THM_STATUS.CRIT (R377, Table 13-4): W1C -/
def thmStatusCritD : FldD := ⟨0x60008, 0, 1, 4, 1, .w1c, 0, false, 1, 0, 1, true⟩

/-- The field THM_STATUS.CRIT. -/
abbrev thmStatusCrit : Fld := thmStatusCritD.at 0

/-- THM_STATUS.COOL (R377, Table 13-4): RO -/
def thmStatusCoolD : FldD := ⟨0x60008, 0, 1, 5, 1, .ro, 0, false, 0, 0, 1, true⟩

/-- The field THM_STATUS.COOL. -/
abbrev thmStatusCool : Fld := thmStatusCoolD.at 0

/-- THM_STATUS.TRIP_ZONE (R377, Table 13-4): RO -/
def thmStatusTripZoneD : FldD := ⟨0x60008, 0, 1, 8, 4, .ro, 0, false, 0, 0, 15, true⟩

/-- The field THM_STATUS.TRIP_ZONE. -/
abbrev thmStatusTripZone : Fld := thmStatusTripZoneD.at 0

/-- THM_STATUS.HOT_ZONE (R377, Table 13-4): RO -/
def thmStatusHotZoneD : FldD := ⟨0x60008, 0, 1, 12, 4, .ro, 0, false, 0, 0, 15, true⟩

/-- The field THM_STATUS.HOT_ZONE. -/
abbrev thmStatusHotZone : Fld := thmStatusHotZoneD.at 0

/-- THM_STATUS.HOT_TEMP (R377, Table 13-4): RO -/
def thmStatusHotTempD : FldD := ⟨0x60008, 0, 1, 16, 16, .ro, 0, false, 0, 0, 65535, true⟩

/-- The field THM_STATUS.HOT_TEMP. -/
abbrev thmStatusHotTemp : Fld := thmStatusHotTempD.at 0

/-- THM_STATUS.SUSPECT (R377, Table 13-4): RO -/
def thmStatusSuspectD : FldD := ⟨0x60008, 0, 1, 32, 16, .ro, 0, false, 0, 0, 65535, true⟩

/-- The field THM_STATUS.SUSPECT. -/
abbrev thmStatusSuspect : Fld := thmStatusSuspectD.at 0

/-- THM_BROKEN.MAP (R374, Table 13-5): RO -/
def thmBrokenMapD : FldD := ⟨0x60010, 0, 1, 0, 48, .ro, 0, false, 0, 0, 281474976710655, true⟩

/-- The field THM_BROKEN.MAP. -/
abbrev thmBrokenMap : Fld := thmBrokenMapD.at 0

/-- THM_ZONE_READ.Z0 (R375, Table 13-5): RO -/
def thmZoneReadZ0D : FldD := ⟨0x60020, 8, 4, 0, 16, .ro, 0, false, 0, 0, 65535, true⟩

/-- The field THM_ZONE_READ.Z0 of instance `n`. -/
abbrev thmZoneReadZ0 (n : Nat) : Fld := thmZoneReadZ0D.at n

/-- THM_ZONE_READ.Z1 (R375, Table 13-5): RO -/
def thmZoneReadZ1D : FldD := ⟨0x60020, 8, 4, 16, 16, .ro, 0, false, 0, 0, 65535, true⟩

/-- The field THM_ZONE_READ.Z1 of instance `n`. -/
abbrev thmZoneReadZ1 (n : Nat) : Fld := thmZoneReadZ1D.at n

/-- THM_ZONE_READ.Z2 (R375, Table 13-5): RO -/
def thmZoneReadZ2D : FldD := ⟨0x60020, 8, 4, 32, 16, .ro, 0, false, 0, 0, 65535, true⟩

/-- The field THM_ZONE_READ.Z2 of instance `n`. -/
abbrev thmZoneReadZ2 (n : Nat) : Fld := thmZoneReadZ2D.at n

/-- THM_ZONE_READ.Z3 (R375, Table 13-5): RO -/
def thmZoneReadZ3D : FldD := ⟨0x60020, 8, 4, 48, 16, .ro, 0, false, 0, 0, 65535, true⟩

/-- The field THM_ZONE_READ.Z3 of instance `n`. -/
abbrev thmZoneReadZ3 (n : Nat) : Fld := thmZoneReadZ3D.at n

/-- LOG_STATUS.HELD (R418, Table 15-7): RO -/
def logStatusHeldD : FldD := ⟨0x70000, 0, 1, 0, 17, .ro, 0, false, 0, 0, 131071, false⟩

/-- The field LOG_STATUS.HELD. -/
abbrev logStatusHeld : Fld := logStatusHeldD.at 0

/-- LOG_STATUS.FULL (R418, Table 15-7): RO -/
def logStatusFullD : FldD := ⟨0x70000, 0, 1, 17, 1, .ro, 0, false, 0, 0, 1, false⟩

/-- The field LOG_STATUS.FULL. -/
abbrev logStatusFull : Fld := logStatusFullD.at 0

/-- LOG_STATUS.START_BUF (R418, Table 15-7): RO -/
def logStatusStartBufD : FldD := ⟨0x70000, 0, 1, 18, 10, .ro, 0, false, 0, 0, 1023, false⟩

/-- The field LOG_STATUS.START_BUF. -/
abbrev logStatusStartBuf : Fld := logStatusStartBufD.at 0

/-- LOG_STATUS.DROPPED (R418, Table 15-7): RO -/
def logStatusDroppedD : FldD := ⟨0x70000, 0, 1, 32, 32, .ro, 0, false, 0, 0, 4294967295, false⟩

/-- The field LOG_STATUS.DROPPED. -/
abbrev logStatusDropped : Fld := logStatusDroppedD.at 0

/-- LOG_FIRST_SEQ.V (R415, Table 18-5): RO -/
def logFirstSeqD : FldD := ⟨0x70008, 0, 1, 0, 64, .ro, 0, false, 0, 0, 18446744073709551615, false⟩

/-- The field LOG_FIRST_SEQ.V. -/
abbrev logFirstSeq : Fld := logFirstSeqD.at 0

/-- LOG_NEXT_SEQ.V (R415, Table 18-5): RO -/
def logNextSeqD : FldD := ⟨0x70010, 0, 1, 0, 64, .ro, 0, false, 0, 0, 18446744073709551615, false⟩

/-- The field LOG_NEXT_SEQ.V. -/
abbrev logNextSeq : Fld := logNextSeqD.at 0

/-- PLOG_STATUS.FROZEN (R413, Table 15-8): RO -/
def plogStatusFrozenD : FldD := ⟨0x70100, 0, 1, 0, 40, .ro, 0, false, 0, 0, 1099511627775, false⟩

/-- The field PLOG_STATUS.FROZEN. -/
abbrev plogStatusFrozen : Fld := plogStatusFrozenD.at 0

/-- PLOG_STATUS.IMAGES (R413, Table 15-8): RO -/
def plogStatusImagesD : FldD := ⟨0x70100, 0, 1, 48, 3, .ro, 0, false, 0, 0, 7, false⟩

/-- The field PLOG_STATUS.IMAGES. -/
abbrev plogStatusImages : Fld := plogStatusImagesD.at 0

/-- PLOG_HDR.MISSED (R481, Table 18-8): RO -/
def plogHdrMissedD : FldD := ⟨0x70200, 8, 40, 0, 16, .ro, 0, false, 0, 0, 65535, false⟩

/-- The field PLOG_HDR.MISSED of instance `n`. -/
abbrev plogHdrMissed (n : Nat) : Fld := plogHdrMissedD.at n

/-- PLOG_HDR.OLDEST (R481, Table 18-8): RO -/
def plogHdrOldestD : FldD := ⟨0x70200, 8, 40, 16, 8, .ro, 0, false, 0, 0, 255, false⟩

/-- The field PLOG_HDR.OLDEST of instance `n`. -/
abbrev plogHdrOldest (n : Nat) : Fld := plogHdrOldestD.at n

/-- PLOG_HDR.FROZEN (R481, Table 18-8): RO -/
def plogHdrFrozenD : FldD := ⟨0x70200, 8, 40, 24, 1, .ro, 0, false, 0, 0, 1, false⟩

/-- The field PLOG_HDR.FROZEN of instance `n`. -/
abbrev plogHdrFrozen (n : Nat) : Fld := plogHdrFrozenD.at n

/-- CVU_CTX_SEL.CTX (R303, Table 10-12): RW -/
def cvuCtxSelCtxD : FldD := ⟨0x80000, 0, 1, 0, 10, .rw, 0, false, 0, 0, 1023, false⟩

/-- The field CVU_CTX_SEL.CTX. -/
abbrev cvuCtxSelCtx : Fld := cvuCtxSelCtxD.at 0

/-- CVU_CTX_CFG.WIDTH (R303, Table 10-12): RW -/
def cvuCtxCfgWidthD : FldD := ⟨0x80008, 0, 1, 0, 7, .rw, 32, false, 1, 8, 64, false⟩

/-- The field CVU_CTX_CFG.WIDTH. -/
abbrev cvuCtxCfgWidth : Fld := cvuCtxCfgWidthD.at 0

/-- CVU_CTX_CFG.REFIN (R303, Table 10-12): RW -/
def cvuCtxCfgRefinD : FldD := ⟨0x80008, 0, 1, 7, 1, .rw, 1, false, 1, 0, 1, false⟩

/-- The field CVU_CTX_CFG.REFIN. -/
abbrev cvuCtxCfgRefin : Fld := cvuCtxCfgRefinD.at 0

/-- CVU_CTX_CFG.REFOUT (R303, Table 10-12): RW -/
def cvuCtxCfgRefoutD : FldD := ⟨0x80008, 0, 1, 8, 1, .rw, 1, false, 1, 0, 1, false⟩

/-- The field CVU_CTX_CFG.REFOUT. -/
abbrev cvuCtxCfgRefout : Fld := cvuCtxCfgRefoutD.at 0

/-- CVU_CTX_CFG.CHAINED (R303, Table 10-12): RW -/
def cvuCtxCfgChainedD : FldD := ⟨0x80008, 0, 1, 9, 1, .rw, 0, false, 1, 0, 1, false⟩

/-- The field CVU_CTX_CFG.CHAINED. -/
abbrev cvuCtxCfgChained : Fld := cvuCtxCfgChainedD.at 0

/-- CVU_CTX_CFG.PRESET (R303, Table 10-12): RW -/
def cvuCtxCfgPresetD : FldD := ⟨0x80008, 0, 1, 10, 4, .rw, 1, false, 1, 0, 6, false⟩

/-- The field CVU_CTX_CFG.PRESET. -/
abbrev cvuCtxCfgPreset : Fld := cvuCtxCfgPresetD.at 0

/-- CVU_CTX_CFG.OWNER (R303, Table 10-12): RW -/
def cvuCtxCfgOwnerD : FldD := ⟨0x80008, 0, 1, 16, 12, .rw, 0, false, 1, 0, 4095, false⟩

/-- The field CVU_CTX_CFG.OWNER. -/
abbrev cvuCtxCfgOwner : Fld := cvuCtxCfgOwnerD.at 0

/-- CVU_CTX_CFG.BUSY (R303, Table 10-12): RO -/
def cvuCtxCfgBusyD : FldD := ⟨0x80008, 0, 1, 28, 1, .ro, 0, false, 0, 0, 1, false⟩

/-- The field CVU_CTX_CFG.BUSY. -/
abbrev cvuCtxCfgBusy : Fld := cvuCtxCfgBusyD.at 0

/-- CVU_CTX_POLY.V (R303, Table 10-13): RW -/
def cvuCtxPolyD : FldD := ⟨0x80010, 0, 1, 0, 64, .rw, 517762881, false, 1, 0, 18446744073709551615, false⟩

/-- The field CVU_CTX_POLY.V. -/
abbrev cvuCtxPoly : Fld := cvuCtxPolyD.at 0

/-- CVU_CTX_INIT.V (R303, Table 10-13): RW -/
def cvuCtxInitD : FldD := ⟨0x80018, 0, 1, 0, 64, .rw, 4294967295, false, 1, 0, 18446744073709551615, false⟩

/-- The field CVU_CTX_INIT.V. -/
abbrev cvuCtxInit : Fld := cvuCtxInitD.at 0

/-- CVU_CTX_XOROUT.V (R303, Table 10-13): RW -/
def cvuCtxXoroutD : FldD := ⟨0x80020, 0, 1, 0, 64, .rw, 4294967295, false, 1, 0, 18446744073709551615, false⟩

/-- The field CVU_CTX_XOROUT.V. -/
abbrev cvuCtxXorout : Fld := cvuCtxXoroutD.at 0

/-- CVU_CTX_VALUE.V (R303, Table 10-13): RW -/
def cvuCtxValueD : FldD := ⟨0x80028, 0, 1, 0, 64, .rw, 4294967295, false, 1, 0, 18446744073709551615, false⟩

/-- The field CVU_CTX_VALUE.V. -/
abbrev cvuCtxValue : Fld := cvuCtxValueD.at 0

/-- CVU_CTX_RESULT.V (R303, Table 10-13): RO -/
def cvuCtxResultD : FldD := ⟨0x80030, 0, 1, 0, 64, .ro, 0, false, 0, 0, 18446744073709551615, false⟩

/-- The field CVU_CTX_RESULT.V. -/
abbrev cvuCtxResult : Fld := cvuCtxResultD.at 0

/-- SUM_CFG.LOCK_WAYS (R261, Table 9-2): RW -/
def sumCfgLockWaysD : FldD := ⟨0x90000, 0, 1, 0, 4, .rw, 0, false, 2, 0, 8, false⟩

/-- The field SUM_CFG.LOCK_WAYS. -/
abbrev sumCfgLockWays : Fld := sumCfgLockWaysD.at 0

/-- SUM_STATUS.LOCK_USED (R265, Table 9-3): RO -/
def sumStatusLockUsedD : FldD := ⟨0x90008, 0, 1, 0, 4, .ro, 0, false, 0, 0, 15, false⟩

/-- The field SUM_STATUS.LOCK_USED. -/
abbrev sumStatusLockUsed : Fld := sumStatusLockUsedD.at 0

/-- SUM_STATUS.CLEANING (R265, Table 9-3): RO -/
def sumStatusCleaningD : FldD := ⟨0x90008, 0, 1, 4, 1, .ro, 0, false, 0, 0, 1, false⟩

/-- The field SUM_STATUS.CLEANING. -/
abbrev sumStatusCleaning : Fld := sumStatusCleaningD.at 0

/-- SUM_STATUS.CLEAN_WAY (R265, Table 9-3): RO -/
def sumStatusCleanWayD : FldD := ⟨0x90008, 0, 1, 5, 4, .ro, 0, false, 0, 0, 15, false⟩

/-- The field SUM_STATUS.CLEAN_WAY. -/
abbrev sumStatusCleanWay : Fld := sumStatusCleanWayD.at 0

/-- SUM_STATUS.WAYS_ON (R265, Table 9-3): RO -/
def sumStatusWaysOnD : FldD := ⟨0x90008, 0, 1, 16, 16, .ro, 65535, false, 0, 0, 65535, false⟩

/-- The field SUM_STATUS.WAYS_ON. -/
abbrev sumStatusWaysOn : Fld := sumStatusWaysOnD.at 0

/-- SUM_STATUS.DIRTY_LINES (R265, Table 9-3): RO -/
def sumStatusDirtyLinesD : FldD := ⟨0x90008, 0, 1, 32, 21, .ro, 0, false, 0, 0, 2097151, false⟩

/-- The field SUM_STATUS.DIRTY_LINES. -/
abbrev sumStatusDirtyLines : Fld := sumStatusDirtyLinesD.at 0

/-- SUM_COUNT.READ_HIT (R254, Table 9-4): RC -/
def sumCountReadHitD : FldD := ⟨0x90010, 0, 1, 0, 32, .rc, 0, false, 0, 0, 4294967295, false⟩

/-- The field SUM_COUNT.READ_HIT. -/
abbrev sumCountReadHit : Fld := sumCountReadHitD.at 0

/-- SUM_COUNT.READ_MISS (R254, Table 9-4): RC -/
def sumCountReadMissD : FldD := ⟨0x90010, 0, 1, 32, 32, .rc, 0, false, 0, 0, 4294967295, false⟩

/-- The field SUM_COUNT.READ_MISS. -/
abbrev sumCountReadMiss : Fld := sumCountReadMissD.at 0

/-- SUM_EVICT.DIRTY_EVICT (R257, Table 9-5): RC -/
def sumEvictDirtyEvictD : FldD := ⟨0x90018, 0, 1, 0, 24, .rc, 0, false, 0, 0, 16777215, false⟩

/-- The field SUM_EVICT.DIRTY_EVICT. -/
abbrev sumEvictDirtyEvict : Fld := sumEvictDirtyEvictD.at 0

/-- SUM_EVICT.EVICT_WAIT (R257, Table 9-5): RC -/
def sumEvictEvictWaitD : FldD := ⟨0x90018, 0, 1, 24, 16, .rc, 0, false, 0, 0, 65535, false⟩

/-- The field SUM_EVICT.EVICT_WAIT. -/
abbrev sumEvictEvictWait : Fld := sumEvictEvictWaitD.at 0

/-- SUM_EVICT.LOCKED_EMPTY (R257, Table 9-5): RO -/
def sumEvictLockedEmptyD : FldD := ⟨0x90018, 0, 1, 40, 20, .ro, 0, false, 0, 0, 1048575, false⟩

/-- The field SUM_EVICT.LOCKED_EMPTY. -/
abbrev sumEvictLockedEmpty : Fld := sumEvictLockedEmptyD.at 0

/-- CAMP_RANGE_CFG.RANGE_GIB (R160, Table 5-11): RWL -/
def campRangeCfgRangeGibD : FldD := ⟨0xa0000, 0, 1, 0, 18, .rwl, 0, false, 2, 1, 196608, false⟩

/-- The field CAMP_RANGE_CFG.RANGE_GIB. -/
abbrev campRangeCfgRangeGib : Fld := campRangeCfgRangeGibD.at 0

/-- CAMP_RANGE_CFG.BUDGET_GIB (R160, Table 5-11): RWL -/
def campRangeCfgBudgetGibD : FldD := ⟨0xa0000, 0, 1, 20, 7, .rwl, 32, false, 2, 0, 96, false⟩

/-- The field CAMP_RANGE_CFG.BUDGET_GIB. -/
abbrev campRangeCfgBudgetGib : Fld := campRangeCfgBudgetGibD.at 0

/-- CAMP_RANGE_CFG.DESTAGE_LOW_PCT (R160, Table 5-11): RW -/
def campRangeCfgDestageLowPctD : FldD := ⟨0xa0000, 0, 1, 28, 7, .rw, 25, false, 2, 5, 80, false⟩

/-- The field CAMP_RANGE_CFG.DESTAGE_LOW_PCT. -/
abbrev campRangeCfgDestageLowPct : Fld := campRangeCfgDestageLowPctD.at 0

/-- CAMP_RANGE_CFG.LOOKAHEAD (R160, Table 5-11): RW -/
def campRangeCfgLookaheadD : FldD := ⟨0xa0000, 0, 1, 36, 4, .rw, 2, false, 2, 0, 8, false⟩

/-- The field CAMP_RANGE_CFG.LOOKAHEAD. -/
abbrev campRangeCfgLookahead : Fld := campRangeCfgLookaheadD.at 0

/-- CAMP_RANGE_CFG.TRAIL (R160, Table 5-11): RW -/
def campRangeCfgTrailD : FldD := ⟨0xa0000, 0, 1, 40, 4, .rw, 2, false, 2, 0, 15, false⟩

/-- The field CAMP_RANGE_CFG.TRAIL. -/
abbrev campRangeCfgTrail : Fld := campRangeCfgTrailD.at 0

/-- CAMP_RANGE_CFG.VDIRECT_US (R160, Table 5-11): RW -/
def campRangeCfgVdirectUsD : FldD := ⟨0xa0000, 0, 1, 44, 8, .rw, 80, false, 2, 40, 255, false⟩

/-- The field CAMP_RANGE_CFG.VDIRECT_US. -/
abbrev campRangeCfgVdirectUs : Fld := campRangeCfgVdirectUsD.at 0

/-- CAMP_RANGE_CFG.BG_REBUILD (R160, Table 5-11): RW -/
def campRangeCfgBgRebuildD : FldD := ⟨0xa0000, 0, 1, 52, 1, .rw, 1, false, 2, 0, 1, false⟩

/-- The field CAMP_RANGE_CFG.BG_REBUILD. -/
abbrev campRangeCfgBgRebuild : Fld := campRangeCfgBgRebuildD.at 0

/-- CAMP_RANGE_STATUS.BUDGET_USED_MIB (R136, Table 5-12): RO -/
def campRangeStatusBudgetUsedMibD : FldD := ⟨0xa0008, 0, 1, 0, 17, .ro, 0, false, 0, 0, 131071, false⟩

/-- The field CAMP_RANGE_STATUS.BUDGET_USED_MIB. -/
abbrev campRangeStatusBudgetUsedMib : Fld := campRangeStatusBudgetUsedMibD.at 0

/-- CAMP_RANGE_STATUS.REBUILD_PCT (R136, Table 5-12): RO -/
def campRangeStatusRebuildPctD : FldD := ⟨0xa0008, 0, 1, 20, 7, .ro, 0, false, 0, 0, 127, false⟩

/-- The field CAMP_RANGE_STATUS.REBUILD_PCT. -/
abbrev campRangeStatusRebuildPct : Fld := campRangeStatusRebuildPctD.at 0

/-- CAMP_RANGE_STATUS.REBUILD_DONE (R136, Table 5-12): RO -/
def campRangeStatusRebuildDoneD : FldD := ⟨0xa0008, 0, 1, 27, 1, .ro, 0, false, 0, 0, 1, false⟩

/-- The field CAMP_RANGE_STATUS.REBUILD_DONE. -/
abbrev campRangeStatusRebuildDone : Fld := campRangeStatusRebuildDoneD.at 0

/-- CAMP_RANGE_STATUS.PARKED (R136, Table 5-12): RO -/
def campRangeStatusParkedD : FldD := ⟨0xa0008, 0, 1, 28, 17, .ro, 0, false, 0, 0, 131071, false⟩

/-- The field CAMP_RANGE_STATUS.PARKED. -/
abbrev campRangeStatusParked : Fld := campRangeStatusParkedD.at 0

/-- CAMP_RANGE_STATUS.DEADLINE_MISS (R136, Table 5-12): RC -/
def campRangeStatusDeadlineMissD : FldD := ⟨0xa0008, 0, 1, 48, 16, .rc, 0, false, 0, 0, 65535, false⟩

/-- The field CAMP_RANGE_STATUS.DEADLINE_MISS. -/
abbrev campRangeStatusDeadlineMiss : Fld := campRangeStatusDeadlineMissD.at 0

/-- CAMP_SCHED_CFG.WQ_HIGH (R194, Table 6-8): RW -/
def campSchedCfgWqHighD : FldD := ⟨0xa0010, 0, 1, 0, 6, .rw, 48, false, 1, 16, 63, false⟩

/-- The field CAMP_SCHED_CFG.WQ_HIGH. -/
abbrev campSchedCfgWqHigh : Fld := campSchedCfgWqHighD.at 0

/-- CAMP_SCHED_CFG.WQ_LOW (R194, Table 6-8): RW -/
def campSchedCfgWqLowD : FldD := ⟨0xa0010, 0, 1, 8, 6, .rw, 16, false, 1, 0, 55, false⟩

/-- The field CAMP_SCHED_CFG.WQ_LOW. -/
abbrev campSchedCfgWqLow : Fld := campSchedCfgWqLowD.at 0

/-- CAMP_SCHED_CFG.WH_EGR_LOW_KIB (R194, Table 6-8): RW -/
def campSchedCfgWhEgrLowKibD : FldD := ⟨0xa0010, 0, 1, 16, 8, .rw, 32, false, 1, 8, 128, false⟩

/-- The field CAMP_SCHED_CFG.WH_EGR_LOW_KIB. -/
abbrev campSchedCfgWhEgrLowKib : Fld := campSchedCfgWhEgrLowKibD.at 0

/-- CAMP_SCHED_CFG.WH_ROPE_HIGH (R194, Table 6-8): RW -/
def campSchedCfgWhRopeHighD : FldD := ⟨0xa0010, 0, 1, 24, 8, .rw, 192, false, 1, 128, 248, false⟩

/-- The field CAMP_SCHED_CFG.WH_ROPE_HIGH. -/
abbrev campSchedCfgWhRopeHigh : Fld := campSchedCfgWhRopeHighD.at 0

/-- CAMP_SCHED_CFG.WH_BIV_LOW_MIB (R194, Table 6-8): RW -/
def campSchedCfgWhBivLowMibD : FldD := ⟨0xa0010, 0, 1, 32, 4, .rw, 8, false, 1, 2, 12, false⟩

/-- The field CAMP_SCHED_CFG.WH_BIV_LOW_MIB. -/
abbrev campSchedCfgWhBivLowMib : Fld := campSchedCfgWhBivLowMibD.at 0

/-- CAMP_SCHED_CFG.HIT_PASS (R194, Table 6-8): RW -/
def campSchedCfgHitPassD : FldD := ⟨0xa0010, 0, 1, 36, 4, .rw, 15, false, 1, 1, 15, false⟩

/-- The field CAMP_SCHED_CFG.HIT_PASS. -/
abbrev campSchedCfgHitPass : Fld := campSchedCfgHitPassD.at 0

/-- CAMP_RFG_CFG.SAMPLE_SHIFT (R194, Table 6-9): RW -/
def campRfgCfgSampleShiftD : FldD := ⟨0xa0018, 0, 1, 0, 3, .rw, 3, false, 1, 0, 7, false⟩

/-- The field CAMP_RFG_CFG.SAMPLE_SHIFT. -/
abbrev campRfgCfgSampleShift : Fld := campRfgCfgSampleShiftD.at 0

/-- CAMP_RFG_CFG.THRESH (R194, Table 6-9): RW -/
def campRfgCfgThreshD : FldD := ⟨0xa0018, 0, 1, 4, 12, .rw, 256, false, 1, 16, 4095, false⟩

/-- The field CAMP_RFG_CFG.THRESH. -/
abbrev campRfgCfgThresh : Fld := campRfgCfgThreshD.at 0

/-- CAMP_RFG_CFG.TOKEN_US (R194, Table 6-9): RW -/
def campRfgCfgTokenUsD : FldD := ⟨0xa0018, 0, 1, 16, 8, .rw, 32, false, 1, 1, 255, false⟩

/-- The field CAMP_RFG_CFG.TOKEN_US. -/
abbrev campRfgCfgTokenUs : Fld := campRfgCfgTokenUsD.at 0

/-- CAMP_RFG_CFG.BUCKET (R194, Table 6-9): RW -/
def campRfgCfgBucketD : FldD := ⟨0xa0018, 0, 1, 24, 4, .rw, 4, false, 1, 1, 15, false⟩

/-- The field CAMP_RFG_CFG.BUCKET. -/
abbrev campRfgCfgBucket : Fld := campRfgCfgBucketD.at 0

/-- CAMP_RFG_CFG.HOLD_MS (R194, Table 6-9): RW -/
def campRfgCfgHoldMsD : FldD := ⟨0xa0018, 0, 1, 32, 8, .rw, 64, false, 1, 8, 255, false⟩

/-- The field CAMP_RFG_CFG.HOLD_MS. -/
abbrev campRfgCfgHoldMs : Fld := campRfgCfgHoldMsD.at 0

/-- CAMP_RFG_CFG.WINDOW_MS (R194, Table 6-9): RW -/
def campRfgCfgWindowMsD : FldD := ⟨0xa0018, 0, 1, 40, 6, .rw, 32, false, 1, 8, 63, false⟩

/-- The field CAMP_RFG_CFG.WINDOW_MS. -/
abbrev campRfgCfgWindowMs : Fld := campRfgCfgWindowMsD.at 0

/-- CAMP_RFG_CFG.EN (R194, Table 6-9): RWL -/
def campRfgCfgEnD : FldD := ⟨0xa0018, 0, 1, 48, 1, .rwl, 1, false, 1, 0, 1, false⟩

/-- The field CAMP_RFG_CFG.EN. -/
abbrev campRfgCfgEn : Fld := campRfgCfgEnD.at 0

/-- CAMP_REF_CFG.DUE_DEBT (R194, Table 6-10): RW -/
def campRefCfgDueDebtD : FldD := ⟨0xa0020, 0, 1, 0, 2, .rw, 3, false, 1, 1, 3, false⟩

/-- The field CAMP_REF_CFG.DUE_DEBT. -/
abbrev campRefCfgDueDebt : Fld := campRefCfgDueDebtD.at 0

/-- CAMP_REF_CFG.MR4_MS (R194, Table 6-10): RW -/
def campRefCfgMr4MsD : FldD := ⟨0xa0020, 0, 1, 8, 8, .rw, 16, false, 1, 4, 128, false⟩

/-- The field CAMP_REF_CFG.MR4_MS. -/
abbrev campRefCfgMr4Ms : Fld := campRefCfgMr4MsD.at 0

/-- CAMP_REF_CFG.DQSOSC_MS (R194, Table 6-10): RW -/
def campRefCfgDqsoscMsD : FldD := ⟨0xa0020, 0, 1, 16, 8, .rw, 32, false, 1, 8, 255, false⟩

/-- The field CAMP_REF_CFG.DQSOSC_MS. -/
abbrev campRefCfgDqsoscMs : Fld := campRefCfgDqsoscMsD.at 0

/-- CAMP_REF_CFG.ZQ_MS (R194, Table 6-10): RW -/
def campRefCfgZqMsD : FldD := ⟨0xa0020, 0, 1, 24, 8, .rw, 128, false, 1, 32, 255, false⟩

/-- The field CAMP_REF_CFG.ZQ_MS. -/
abbrev campRefCfgZqMs : Fld := campRefCfgZqMsD.at 0

/-- CAMP_REF_CFG.RETRAIN_PS (R194, Table 6-10): RW -/
def campRefCfgRetrainPsD : FldD := ⟨0xa0020, 0, 1, 32, 8, .rw, 15, false, 1, 5, 60, false⟩

/-- The field CAMP_REF_CFG.RETRAIN_PS. -/
abbrev campRefCfgRetrainPs : Fld := campRefCfgRetrainPsD.at 0

/-- CAMP_REF_CFG.DIMM_HOT_C (R194, Table 6-10): RW -/
def campRefCfgDimmHotCD : FldD := ⟨0xa0020, 0, 1, 40, 8, .rw, 93, false, 1, 80, 95, false⟩

/-- The field CAMP_REF_CFG.DIMM_HOT_C. -/
abbrev campRefCfgDimmHotC : Fld := campRefCfgDimmHotCD.at 0

/-- CAMP_CODE_CFG.SCRUB_H (R251, Table 8-14): RW -/
def campCodeCfgScrubHD : FldD := ⟨0xa0028, 0, 1, 0, 7, .rw, 12, false, 1, 1, 72, false⟩

/-- The field CAMP_CODE_CFG.SCRUB_H. -/
abbrev campCodeCfgScrubH : Fld := campCodeCfgScrubHD.at 0

/-- CAMP_CODE_CFG.SCRUB_EN (R251, Table 8-14): RW -/
def campCodeCfgScrubEnD : FldD := ⟨0xa0028, 0, 1, 7, 1, .rw, 1, false, 1, 0, 1, false⟩

/-- The field CAMP_CODE_CFG.SCRUB_EN. -/
abbrev campCodeCfgScrubEn : Fld := campCodeCfgScrubEnD.at 0

/-- CAMP_CODE_CFG.DEV_THRESH (R251, Table 8-14): RW -/
def campCodeCfgDevThreshD : FldD := ⟨0xa0028, 0, 1, 8, 8, .rw, 16, false, 1, 8, 255, false⟩

/-- The field CAMP_CODE_CFG.DEV_THRESH. -/
abbrev campCodeCfgDevThresh : Fld := campCodeCfgDevThreshD.at 0

/-- CAMP_CODE_CFG.ROW_THRESH (R251, Table 8-14): RW -/
def campCodeCfgRowThreshD : FldD := ⟨0xa0028, 0, 1, 16, 4, .rw, 4, false, 1, 2, 15, false⟩

/-- The field CAMP_CODE_CFG.ROW_THRESH. -/
abbrev campCodeCfgRowThresh : Fld := campCodeCfgRowThreshD.at 0

/-- CAMP_CODE_CFG.SRAM_THRESH (R251, Table 8-14): RW -/
def campCodeCfgSramThreshD : FldD := ⟨0xa0028, 0, 1, 20, 4, .rw, 2, false, 1, 2, 15, false⟩

/-- The field CAMP_CODE_CFG.SRAM_THRESH. -/
abbrev campCodeCfgSramThresh : Fld := campCodeCfgSramThreshD.at 0

/-- CAMP_CODE_CFG.SRAM_SCRUB_S (R251, Table 8-14): RW -/
def campCodeCfgSramScrubSD : FldD := ⟨0xa0028, 0, 1, 24, 6, .rw, 10, false, 1, 1, 60, false⟩

/-- The field CAMP_CODE_CFG.SRAM_SCRUB_S. -/
abbrev campCodeCfgSramScrubS : Fld := campCodeCfgSramScrubSD.at 0

/-- CAMP_CODE_STATUS.CORR_WORDS (R239, Table 8-15): RC -/
def campCodeStatusCorrWordsD : FldD := ⟨0xa0030, 0, 1, 0, 24, .rc, 0, false, 0, 0, 16777215, false⟩

/-- The field CAMP_CODE_STATUS.CORR_WORDS. -/
abbrev campCodeStatusCorrWords : Fld := campCodeStatusCorrWordsD.at 0

/-- CAMP_CODE_STATUS.UNCORR_WORDS (R239, Table 8-15): RC -/
def campCodeStatusUncorrWordsD : FldD := ⟨0xa0030, 0, 1, 24, 16, .rc, 0, false, 0, 0, 65535, false⟩

/-- The field CAMP_CODE_STATUS.UNCORR_WORDS. -/
abbrev campCodeStatusUncorrWords : Fld := campCodeStatusUncorrWordsD.at 0

/-- CAMP_CODE_STATUS.RMW_CORR (R239, Table 8-15): RC -/
def campCodeStatusRmwCorrD : FldD := ⟨0xa0030, 0, 1, 40, 8, .rc, 0, false, 0, 0, 255, false⟩

/-- The field CAMP_CODE_STATUS.RMW_CORR. -/
abbrev campCodeStatusRmwCorr : Fld := campCodeStatusRmwCorrD.at 0

/-- CAMP_CODE_STATUS.RMW_POISON (R239, Table 8-15): RC -/
def campCodeStatusRmwPoisonD : FldD := ⟨0xa0030, 0, 1, 48, 8, .rc, 0, false, 0, 0, 255, false⟩

/-- The field CAMP_CODE_STATUS.RMW_POISON. -/
abbrev campCodeStatusRmwPoison : Fld := campCodeStatusRmwPoisonD.at 0

/-- CAMP_CODE_STATUS.SCRUB_PCT (R239, Table 8-15): RO -/
def campCodeStatusScrubPctD : FldD := ⟨0xa0030, 0, 1, 56, 7, .ro, 0, false, 0, 0, 127, false⟩

/-- The field CAMP_CODE_STATUS.SCRUB_PCT. -/
abbrev campCodeStatusScrubPct : Fld := campCodeStatusScrubPctD.at 0

/-- CAMP_CH_STATUS.STATE (R172, Table 6-11): RO -/
def campChStatusStateD : FldD := ⟨0xa0100, 8, 16, 0, 3, .ro, 0, false, 0, 0, 7, false⟩

/-- The field CAMP_CH_STATUS.STATE of instance `n`. -/
abbrev campChStatusState (n : Nat) : Fld := campChStatusStateD.at n

/-- CAMP_CH_STATUS.RATE (R172, Table 6-11): RO -/
def campChStatusRateD : FldD := ⟨0xa0100, 8, 16, 3, 5, .ro, 0, false, 0, 0, 31, false⟩

/-- The field CAMP_CH_STATUS.RATE of instance `n`. -/
abbrev campChStatusRate (n : Nat) : Fld := campChStatusRateD.at n

/-- CAMP_CH_STATUS.DIMMS (R172, Table 6-11): RO -/
def campChStatusDimmsD : FldD := ⟨0xa0100, 8, 16, 8, 2, .ro, 0, false, 0, 0, 3, false⟩

/-- The field CAMP_CH_STATUS.DIMMS of instance `n`. -/
abbrev campChStatusDimms (n : Nat) : Fld := campChStatusDimmsD.at n

/-- CAMP_CH_STATUS.RANKS (R172, Table 6-11): RO -/
def campChStatusRanksD : FldD := ⟨0xa0100, 8, 16, 10, 5, .ro, 0, false, 0, 0, 31, false⟩

/-- The field CAMP_CH_STATUS.RANKS of instance `n`. -/
abbrev campChStatusRanks (n : Nat) : Fld := campChStatusRanksD.at n

/-- CAMP_CH_STATUS.TYPE (R172, Table 6-11): RO -/
def campChStatusTypeD : FldD := ⟨0xa0100, 8, 16, 15, 1, .ro, 0, false, 0, 0, 1, false⟩

/-- The field CAMP_CH_STATUS.TYPE of instance `n`. -/
abbrev campChStatusType (n : Nat) : Fld := campChStatusTypeD.at n

/-- CAMP_CH_STATUS.WIDTH (R172, Table 6-11): RO -/
def campChStatusWidthD : FldD := ⟨0xa0100, 8, 16, 16, 1, .ro, 0, false, 0, 0, 1, false⟩

/-- The field CAMP_CH_STATUS.WIDTH of instance `n`. -/
abbrev campChStatusWidth (n : Nat) : Fld := campChStatusWidthD.at n

/-- CAMP_CH_STATUS.REF2X (R172, Table 6-11): RO -/
def campChStatusRef2xD : FldD := ⟨0xa0100, 8, 16, 17, 1, .ro, 0, false, 0, 0, 1, false⟩

/-- The field CAMP_CH_STATUS.REF2X of instance `n`. -/
abbrev campChStatusRef2x (n : Nat) : Fld := campChStatusRef2xD.at n

/-- CAMP_CH_STATUS.HOT (R172, Table 6-11): RO -/
def campChStatusHotD : FldD := ⟨0xa0100, 8, 16, 18, 1, .ro, 0, false, 0, 0, 1, false⟩

/-- The field CAMP_CH_STATUS.HOT of instance `n`. -/
abbrev campChStatusHot (n : Nat) : Fld := campChStatusHotD.at n

/-- CAMP_CH_STATUS.WH_LONG (R172, Table 6-11): RC -/
def campChStatusWhLongD : FldD := ⟨0xa0100, 8, 16, 24, 8, .rc, 0, false, 0, 0, 255, false⟩

/-- The field CAMP_CH_STATUS.WH_LONG of instance `n`. -/
abbrev campChStatusWhLong (n : Nat) : Fld := campChStatusWhLongD.at n

/-- CAMP_CH_STATUS.RFG_DETECT (R172, Table 6-11): RC -/
def campChStatusRfgDetectD : FldD := ⟨0xa0100, 8, 16, 32, 16, .rc, 0, false, 0, 0, 65535, false⟩

/-- The field CAMP_CH_STATUS.RFG_DETECT of instance `n`. -/
abbrev campChStatusRfgDetect (n : Nat) : Fld := campChStatusRfgDetectD.at n

/-- CAMP_CH_STATUS.RETIRED_FRAMES (R172, Table 6-11): RO -/
def campChStatusRetiredFramesD : FldD := ⟨0xa0100, 8, 16, 48, 16, .ro, 0, false, 0, 0, 65535, false⟩

/-- The field CAMP_CH_STATUS.RETIRED_FRAMES of instance `n`. -/
abbrev campChStatusRetiredFrames (n : Nat) : Fld := campChStatusRetiredFramesD.at n

/-- VAL_CFG.VERIFY_DAYS (R229, Table 7-13): RW -/
def valCfgVerifyDaysD : FldD := ⟨0xb0000, 0, 1, 0, 4, .rw, 7, false, 1, 1, 14, false⟩

/-- The field VAL_CFG.VERIFY_DAYS. -/
abbrev valCfgVerifyDays : Fld := valCfgVerifyDaysD.at 0

/-- VAL_CFG.REFRESH_BITS (R229, Table 7-13): RW -/
def valCfgRefreshBitsD : FldD := ⟨0xb0000, 0, 1, 8, 8, .rw, 96, false, 1, 16, 255, false⟩

/-- The field VAL_CFG.REFRESH_BITS. -/
abbrev valCfgRefreshBits : Fld := valCfgRefreshBitsD.at 0

/-- VAL_CFG.STRIPE_CLOSE_MS (R229, Table 7-13): RW -/
def valCfgStripeCloseMsD : FldD := ⟨0xb0000, 0, 1, 16, 8, .rw, 50, false, 1, 10, 255, false⟩

/-- The field VAL_CFG.STRIPE_CLOSE_MS. -/
abbrev valCfgStripeCloseMs : Fld := valCfgStripeCloseMsD.at 0

/-- VAL_CFG.OP_MIN_PCT (R229, Table 7-13): RW -/
def valCfgOpMinPctD : FldD := ⟨0xb0000, 0, 1, 24, 4, .rw, 5, false, 1, 2, 15, false⟩

/-- The field VAL_CFG.OP_MIN_PCT. -/
abbrev valCfgOpMinPct : Fld := valCfgOpMinPctD.at 0

/-- VAL_CFG.PE_RATED (R229, Table 7-13): RO -/
def valCfgPeRatedD : FldD := ⟨0xb0000, 0, 1, 32, 16, .ro, 0, false, 0, 0, 65535, false⟩

/-- The field VAL_CFG.PE_RATED. -/
abbrev valCfgPeRated : Fld := valCfgPeRatedD.at 0

/-- VAL_CFG.SUSPEND_EN (R229, Table 7-13): RW -/
def valCfgSuspendEnD : FldD := ⟨0xb0000, 0, 1, 48, 1, .rw, 1, false, 1, 0, 1, false⟩

/-- The field VAL_CFG.SUSPEND_EN. -/
abbrev valCfgSuspendEn : Fld := valCfgSuspendEnD.at 0

/-- VAL_WEAR_STATUS.LIFE_PCT (R212, Table 7-15): RO -/
def valWearStatusLifePctD : FldD := ⟨0xb0008, 0, 1, 0, 8, .ro, 0, false, 0, 0, 255, false⟩

/-- The field VAL_WEAR_STATUS.LIFE_PCT. -/
abbrev valWearStatusLifePct : Fld := valWearStatusLifePctD.at 0

/-- VAL_WEAR_STATUS.PROG_PCT (R212, Table 7-15): RO -/
def valWearStatusProgPctD : FldD := ⟨0xb0008, 0, 1, 8, 8, .ro, 100, false, 0, 0, 255, false⟩

/-- The field VAL_WEAR_STATUS.PROG_PCT. -/
abbrev valWearStatusProgPct : Fld := valWearStatusProgPctD.at 0

/-- VAL_WEAR_STATUS.ERASE_PCT (R212, Table 7-15): RO -/
def valWearStatusErasePctD : FldD := ⟨0xb0008, 0, 1, 16, 8, .ro, 100, false, 0, 0, 255, false⟩

/-- The field VAL_WEAR_STATUS.ERASE_PCT. -/
abbrev valWearStatusErasePct : Fld := valWearStatusErasePctD.at 0

/-- VAL_WEAR_STATUS.SOFT_RATE (R212, Table 7-15): RO -/
def valWearStatusSoftRateD : FldD := ⟨0xb0008, 0, 1, 24, 16, .ro, 0, false, 0, 0, 65535, false⟩

/-- The field VAL_WEAR_STATUS.SOFT_RATE. -/
abbrev valWearStatusSoftRate : Fld := valWearStatusSoftRateD.at 0

/-- VAL_WEAR_STATUS.OP_PCT (R212, Table 7-15): RO -/
def valWearStatusOpPctD : FldD := ⟨0xb0008, 0, 1, 40, 7, .ro, 0, false, 0, 0, 127, false⟩

/-- The field VAL_WEAR_STATUS.OP_PCT. -/
abbrev valWearStatusOpPct : Fld := valWearStatusOpPctD.at 0

/-- VAL_WEAR_STATUS.WRITE_LIMITED (R212, Table 7-15): RO -/
def valWearStatusWriteLimitedD : FldD := ⟨0xb0008, 0, 1, 47, 1, .ro, 0, false, 0, 0, 1, false⟩

/-- The field VAL_WEAR_STATUS.WRITE_LIMITED. -/
abbrev valWearStatusWriteLimited : Fld := valWearStatusWriteLimitedD.at 0

/-- VAL_WEAR_STATUS.REBUILD_ACTIVE (R212, Table 7-15): RO -/
def valWearStatusRebuildActiveD : FldD := ⟨0xb0008, 0, 1, 48, 1, .ro, 0, false, 0, 0, 1, false⟩

/-- The field VAL_WEAR_STATUS.REBUILD_ACTIVE. -/
abbrev valWearStatusRebuildActive : Fld := valWearStatusRebuildActiveD.at 0

/-- VAL_WEAR_STATUS.VERIFY_PASS_PCT (R212, Table 7-15): RO -/
def valWearStatusVerifyPassPctD : FldD := ⟨0xb0008, 0, 1, 49, 7, .ro, 0, false, 0, 0, 127, false⟩

/-- The field VAL_WEAR_STATUS.VERIFY_PASS_PCT. -/
abbrev valWearStatusVerifyPassPct : Fld := valWearStatusVerifyPassPctD.at 0

/-- VAL_CAIRN_STATUS.BANK_RUNNING (R227, Table 7-16): RO -/
def valCairnStatusBankRunningD : FldD := ⟨0xb0010, 0, 1, 0, 1, .ro, 0, false, 0, 0, 1, false⟩

/-- The field VAL_CAIRN_STATUS.BANK_RUNNING. -/
abbrev valCairnStatusBankRunning : Fld := valCairnStatusBankRunningD.at 0

/-- VAL_CAIRN_STATUS.BANK_A_VALID (R227, Table 7-16): RO -/
def valCairnStatusBankAValidD : FldD := ⟨0xb0010, 0, 1, 1, 1, .ro, 0, false, 0, 0, 1, false⟩

/-- The field VAL_CAIRN_STATUS.BANK_A_VALID. -/
abbrev valCairnStatusBankAValid : Fld := valCairnStatusBankAValidD.at 0

/-- VAL_CAIRN_STATUS.BANK_B_VALID (R227, Table 7-16): RO -/
def valCairnStatusBankBValidD : FldD := ⟨0xb0010, 0, 1, 2, 1, .ro, 0, false, 0, 0, 1, false⟩

/-- The field VAL_CAIRN_STATUS.BANK_B_VALID. -/
abbrev valCairnStatusBankBValid : Fld := valCairnStatusBankBValidD.at 0

/-- VAL_CAIRN_STATUS.CFG_COPY (R227, Table 7-16): RO -/
def valCairnStatusCfgCopyD : FldD := ⟨0xb0010, 0, 1, 3, 1, .ro, 0, false, 0, 0, 1, false⟩

/-- The field VAL_CAIRN_STATUS.CFG_COPY. -/
abbrev valCairnStatusCfgCopy : Fld := valCairnStatusCfgCopyD.at 0

/-- VAL_CAIRN_STATUS.SPARES_LEFT (R227, Table 7-16): RO -/
def valCairnStatusSparesLeftD : FldD := ⟨0xb0010, 0, 1, 8, 7, .ro, 64, false, 0, 0, 127, false⟩

/-- The field VAL_CAIRN_STATUS.SPARES_LEFT. -/
abbrev valCairnStatusSparesLeft : Fld := valCairnStatusSparesLeftD.at 0

/-- VAL_CAIRN_STATUS.MAX_ERASE (R227, Table 7-16): RO -/
def valCairnStatusMaxEraseD : FldD := ⟨0xb0010, 0, 1, 16, 16, .ro, 0, false, 0, 0, 65535, false⟩

/-- The field VAL_CAIRN_STATUS.MAX_ERASE. -/
abbrev valCairnStatusMaxErase : Fld := valCairnStatusMaxEraseD.at 0

/-- VAL_CAIRN_STATUS.FLUSH_SKIPPED (R227, Table 7-16): RC -/
def valCairnStatusFlushSkippedD : FldD := ⟨0xb0010, 0, 1, 32, 16, .rc, 0, false, 0, 0, 65535, false⟩

/-- The field VAL_CAIRN_STATUS.FLUSH_SKIPPED. -/
abbrev valCairnStatusFlushSkipped : Fld := valCairnStatusFlushSkippedD.at 0

/-- VAL_CAIRN_STATUS.BUSY (R227, Table 7-16): RO -/
def valCairnStatusBusyD : FldD := ⟨0xb0010, 0, 1, 48, 1, .ro, 0, false, 0, 0, 1, false⟩

/-- The field VAL_CAIRN_STATUS.BUSY. -/
abbrev valCairnStatusBusy : Fld := valCairnStatusBusyD.at 0

/-- VAL_NV_STATUS.STATE (R212, Table 7-14): RO -/
def valNvStatusStateD : FldD := ⟨0xb0100, 8, 32, 0, 3, .ro, 0, false, 0, 0, 7, false⟩

/-- The field VAL_NV_STATUS.STATE of instance `n`. -/
abbrev valNvStatusState (n : Nat) : Fld := valNvStatusStateD.at n

/-- VAL_NV_STATUS.RATE (R212, Table 7-14): RO -/
def valNvStatusRateD : FldD := ⟨0xb0100, 8, 32, 3, 5, .ro, 0, false, 0, 0, 31, false⟩

/-- The field VAL_NV_STATUS.RATE of instance `n`. -/
abbrev valNvStatusRate (n : Nat) : Fld := valNvStatusRateD.at n

/-- VAL_NV_STATUS.DIES (R212, Table 7-14): RO -/
def valNvStatusDiesD : FldD := ⟨0xb0100, 8, 32, 8, 6, .ro, 0, false, 0, 0, 63, false⟩

/-- The field VAL_NV_STATUS.DIES of instance `n`. -/
abbrev valNvStatusDies (n : Nat) : Fld := valNvStatusDiesD.at n

/-- VAL_NV_STATUS.FAILED_DIES (R212, Table 7-14): RO -/
def valNvStatusFailedDiesD : FldD := ⟨0xb0100, 8, 32, 16, 32, .ro, 0, false, 0, 0, 4294967295, false⟩

/-- The field VAL_NV_STATUS.FAILED_DIES of instance `n`. -/
abbrev valNvStatusFailedDies (n : Nat) : Fld := valNvStatusFailedDiesD.at n

/-- VAL_NV_STATUS.RETIRED_BLOCKS (R212, Table 7-14): RO -/
def valNvStatusRetiredBlocksD : FldD := ⟨0xb0100, 8, 32, 48, 16, .ro, 0, false, 0, 0, 65535, false⟩

/-- The field VAL_NV_STATUS.RETIRED_BLOCKS of instance `n`. -/
abbrev valNvStatusRetiredBlocks (n : Nat) : Fld := valNvStatusRetiredBlocksD.at n

/-- HP_TMT_CFG.UDP_PORT (R81, Table 3-11): RWL -/
def hpTmtCfgUdpPortD : FldD := ⟨0xc0000, 0, 1, 0, 16, .rwl, 47620, false, 2, 0, 65535, false⟩

/-- The field HP_TMT_CFG.UDP_PORT. -/
abbrev hpTmtCfgUdpPort : Fld := hpTmtCfgUdpPortD.at 0

/-- HP_TMT_CFG.JUMBO (R81, Table 3-11): RWL -/
def hpTmtCfgJumboD : FldD := ⟨0xc0000, 0, 1, 16, 1, .rwl, 0, false, 2, 0, 1, false⟩

/-- The field HP_TMT_CFG.JUMBO. -/
abbrev hpTmtCfgJumbo : Fld := hpTmtCfgJumboD.at 0

/-- HP_TMT_CFG.RTX_US (R81, Table 3-11): RW -/
def hpTmtCfgRtxUsD : FldD := ⟨0xc0000, 0, 1, 20, 12, .rw, 64, false, 2, 16, 4000, false⟩

/-- The field HP_TMT_CFG.RTX_US. -/
abbrev hpTmtCfgRtxUs : Fld := hpTmtCfgRtxUsD.at 0

/-- HP_TMT_CFG.RETRY_LIMIT (R81, Table 3-11): RW -/
def hpTmtCfgRetryLimitD : FldD := ⟨0xc0000, 0, 1, 32, 4, .rw, 7, false, 2, 1, 15, false⟩

/-- The field HP_TMT_CFG.RETRY_LIMIT. -/
abbrev hpTmtCfgRetryLimit : Fld := hpTmtCfgRetryLimitD.at 0

/-- HP_TMT_CFG.ACK_PKTS (R81, Table 3-11): RW -/
def hpTmtCfgAckPktsD : FldD := ⟨0xc0000, 0, 1, 36, 8, .rw, 16, false, 2, 1, 128, false⟩

/-- The field HP_TMT_CFG.ACK_PKTS. -/
abbrev hpTmtCfgAckPkts : Fld := hpTmtCfgAckPktsD.at 0

/-- HP_TMT_CFG.ACK_US (R81, Table 3-11): RW -/
def hpTmtCfgAckUsD : FldD := ⟨0xc0000, 0, 1, 44, 4, .rw, 4, false, 2, 1, 15, false⟩

/-- The field HP_TMT_CFG.ACK_US. -/
abbrev hpTmtCfgAckUs : Fld := hpTmtCfgAckUsD.at 0

/-- HP_TMT_CFG.LOSSLESS (R81, Table 3-11): RWL -/
def hpTmtCfgLosslessD : FldD := ⟨0xc0000, 0, 1, 48, 8, .rwl, 8, false, 2, 0, 255, false⟩

/-- The field HP_TMT_CFG.LOSSLESS. -/
abbrev hpTmtCfgLossless : Fld := hpTmtCfgLosslessD.at 0

/-- HP_OP_CFG.BUDGET_WAIT_MS (R118, Table 4-12): RW -/
def hpOpCfgBudgetWaitMsD : FldD := ⟨0xc0008, 0, 1, 0, 10, .rw, 20, false, 2, 1, 1000, false⟩

/-- The field HP_OP_CFG.BUDGET_WAIT_MS. -/
abbrev hpOpCfgBudgetWaitMs : Fld := hpOpCfgBudgetWaitMsD.at 0

/-- HP_OP_CFG.EVT_GAP_US (R118, Table 4-12): RW -/
def hpOpCfgEvtGapUsD : FldD := ⟨0xc0008, 0, 1, 16, 16, .rw, 1000, false, 2, 100, 65535, false⟩

/-- The field HP_OP_CFG.EVT_GAP_US. -/
abbrev hpOpCfgEvtGapUs : Fld := hpOpCfgEvtGapUsD.at 0

/-- HP_OP_CFG.BUDGET_WARN_PCT (R118, Table 4-12): RW -/
def hpOpCfgBudgetWarnPctD : FldD := ⟨0xc0008, 0, 1, 32, 7, .rw, 90, false, 2, 50, 99, false⟩

/-- The field HP_OP_CFG.BUDGET_WARN_PCT. -/
abbrev hpOpCfgBudgetWarnPct : Fld := hpOpCfgBudgetWarnPctD.at 0

/-- HP_OP_CFG.SEND_NQ (R118, Table 4-12): RW -/
def hpOpCfgSendNqD : FldD := ⟨0xc0008, 0, 1, 40, 4, .rw, 3, false, 2, 0, 15, false⟩

/-- The field HP_OP_CFG.SEND_NQ. -/
abbrev hpOpCfgSendNq : Fld := hpOpCfgSendNqD.at 0

/-- HP_CONN_STATUS.CONNS (R482, Table 18-11): RO -/
def hpConnStatusConnsD : FldD := ⟨0xc0010, 0, 1, 0, 15, .ro, 0, false, 0, 0, 32767, false⟩

/-- The field HP_CONN_STATUS.CONNS. -/
abbrev hpConnStatusConns : Fld := hpConnStatusConnsD.at 0

/-- HP_CONN_STATUS.BRAKE_HELD (R482, Table 18-11): RO -/
def hpConnStatusBrakeHeldD : FldD := ⟨0xc0010, 0, 1, 16, 8, .ro, 0, false, 0, 0, 255, false⟩

/-- The field HP_CONN_STATUS.BRAKE_HELD. -/
abbrev hpConnStatusBrakeHeld : Fld := hpConnStatusBrakeHeldD.at 0

/-- HP_CONN_STATUS.LANDINGS (R482, Table 18-11): RO -/
def hpConnStatusLandingsD : FldD := ⟨0xc0010, 0, 1, 24, 19, .ro, 0, false, 0, 0, 524287, false⟩

/-- The field HP_CONN_STATUS.LANDINGS. -/
abbrev hpConnStatusLandings : Fld := hpConnStatusLandingsD.at 0

/-- HP_POOL_CFG.EGRESS_MIB (R68, Table 3-8a): RWL -/
def hpPoolCfgEgressMibD : FldD := ⟨0xc0018, 0, 1, 0, 5, .rwl, 12, false, 2, 8, 16, false⟩

/-- The field HP_POOL_CFG.EGRESS_MIB. -/
abbrev hpPoolCfgEgressMib : Fld := hpPoolCfgEgressMibD.at 0

/-- HP_POOL_CFG.XOFF_16K (R68, Table 3-8a): RWL -/
def hpPoolCfgXoff16kD : FldD := ⟨0xc0018, 0, 1, 8, 8, .rwl, 32, false, 2, 8, 255, false⟩

/-- The field HP_POOL_CFG.XOFF_16K. -/
abbrev hpPoolCfgXoff16k : Fld := hpPoolCfgXoff16kD.at 0

/-- HP_POOL_CFG.XON_GAP_16K (R68, Table 3-8a): RWL -/
def hpPoolCfgXonGap16kD : FldD := ⟨0xc0018, 0, 1, 16, 4, .rwl, 4, false, 2, 1, 15, false⟩

/-- The field HP_POOL_CFG.XON_GAP_16K. -/
abbrev hpPoolCfgXonGap16k : Fld := hpPoolCfgXonGap16kD.at 0

/-- HP_POOL_CFG.CABLE_M (R68, Table 3-8a): RWL -/
def hpPoolCfgCableMD : FldD := ⟨0xc0018, 0, 1, 20, 12, .rwl, 100, false, 2, 1, 2000, false⟩

/-- The field HP_POOL_CFG.CABLE_M. -/
abbrev hpPoolCfgCableM : Fld := hpPoolCfgCableMD.at 0

/-- HP_POOL_CFG.GLOBAL_FREE_16K (R68, Table 3-8a): RWL -/
def hpPoolCfgGlobalFree16kD : FldD := ⟨0xc0018, 0, 1, 32, 8, .rwl, 32, false, 2, 8, 255, false⟩

/-- The field HP_POOL_CFG.GLOBAL_FREE_16K. -/
abbrev hpPoolCfgGlobalFree16k : Fld := hpPoolCfgGlobalFree16kD.at 0

/-- HP_DSCP_MAP.PRI0 (R47, Table 18-11): RW -/
def hpDscpMapPri0D : FldD := ⟨0xc0040, 8, 8, 0, 3, .rw, 0, true, 2, 0, 7, false⟩

/-- The field HP_DSCP_MAP.PRI0 of instance `n`. -/
abbrev hpDscpMapPri0 (n : Nat) : Fld := hpDscpMapPri0D.at n

/-- HP_DSCP_MAP.PRI1 (R47, Table 18-11): RW -/
def hpDscpMapPri1D : FldD := ⟨0xc0040, 8, 8, 8, 3, .rw, 0, true, 2, 0, 7, false⟩

/-- The field HP_DSCP_MAP.PRI1 of instance `n`. -/
abbrev hpDscpMapPri1 (n : Nat) : Fld := hpDscpMapPri1D.at n

/-- HP_DSCP_MAP.PRI2 (R47, Table 18-11): RW -/
def hpDscpMapPri2D : FldD := ⟨0xc0040, 8, 8, 16, 3, .rw, 0, true, 2, 0, 7, false⟩

/-- The field HP_DSCP_MAP.PRI2 of instance `n`. -/
abbrev hpDscpMapPri2 (n : Nat) : Fld := hpDscpMapPri2D.at n

/-- HP_DSCP_MAP.PRI3 (R47, Table 18-11): RW -/
def hpDscpMapPri3D : FldD := ⟨0xc0040, 8, 8, 24, 3, .rw, 0, true, 2, 0, 7, false⟩

/-- The field HP_DSCP_MAP.PRI3 of instance `n`. -/
abbrev hpDscpMapPri3 (n : Nat) : Fld := hpDscpMapPri3D.at n

/-- HP_DSCP_MAP.PRI4 (R47, Table 18-11): RW -/
def hpDscpMapPri4D : FldD := ⟨0xc0040, 8, 8, 32, 3, .rw, 0, true, 2, 0, 7, false⟩

/-- The field HP_DSCP_MAP.PRI4 of instance `n`. -/
abbrev hpDscpMapPri4 (n : Nat) : Fld := hpDscpMapPri4D.at n

/-- HP_DSCP_MAP.PRI5 (R47, Table 18-11): RW -/
def hpDscpMapPri5D : FldD := ⟨0xc0040, 8, 8, 40, 3, .rw, 0, true, 2, 0, 7, false⟩

/-- The field HP_DSCP_MAP.PRI5 of instance `n`. -/
abbrev hpDscpMapPri5 (n : Nat) : Fld := hpDscpMapPri5D.at n

/-- HP_DSCP_MAP.PRI6 (R47, Table 18-11): RW -/
def hpDscpMapPri6D : FldD := ⟨0xc0040, 8, 8, 48, 3, .rw, 0, true, 2, 0, 7, false⟩

/-- The field HP_DSCP_MAP.PRI6 of instance `n`. -/
abbrev hpDscpMapPri6 (n : Nat) : Fld := hpDscpMapPri6D.at n

/-- HP_DSCP_MAP.PRI7 (R47, Table 18-11): RW -/
def hpDscpMapPri7D : FldD := ⟨0xc0040, 8, 8, 56, 3, .rw, 0, true, 2, 0, 7, false⟩

/-- The field HP_DSCP_MAP.PRI7 of instance `n`. -/
abbrev hpDscpMapPri7 (n : Nat) : Fld := hpDscpMapPri7D.at n

/-- HP_PORT_STATUS.MODE (R44, Table 18-11): RO -/
def hpPortStatusModeD : FldD := ⟨0xc1000, 256, 8, 0, 2, .ro, 0, false, 0, 0, 3, false⟩

/-- The field HP_PORT_STATUS.MODE of instance `n`. -/
abbrev hpPortStatusMode (n : Nat) : Fld := hpPortStatusModeD.at n

/-- HP_PORT_STATUS.SUB0 (R44, Table 18-11): RO -/
def hpPortStatusSub0D : FldD := ⟨0xc1000, 256, 8, 8, 4, .ro, 0, false, 0, 0, 15, false⟩

/-- The field HP_PORT_STATUS.SUB0 of instance `n`. -/
abbrev hpPortStatusSub0 (n : Nat) : Fld := hpPortStatusSub0D.at n

/-- HP_PORT_STATUS.SUB1 (R44, Table 18-11): RO -/
def hpPortStatusSub1D : FldD := ⟨0xc1000, 256, 8, 12, 4, .ro, 0, false, 0, 0, 15, false⟩

/-- The field HP_PORT_STATUS.SUB1 of instance `n`. -/
abbrev hpPortStatusSub1 (n : Nat) : Fld := hpPortStatusSub1D.at n

/-- HP_PORT_STATUS.SUB2 (R44, Table 18-11): RO -/
def hpPortStatusSub2D : FldD := ⟨0xc1000, 256, 8, 16, 4, .ro, 0, false, 0, 0, 15, false⟩

/-- The field HP_PORT_STATUS.SUB2 of instance `n`. -/
abbrev hpPortStatusSub2 (n : Nat) : Fld := hpPortStatusSub2D.at n

/-- HP_PORT_STATUS.SUB3 (R44, Table 18-11): RO -/
def hpPortStatusSub3D : FldD := ⟨0xc1000, 256, 8, 20, 4, .ro, 0, false, 0, 0, 15, false⟩

/-- The field HP_PORT_STATUS.SUB3 of instance `n`. -/
abbrev hpPortStatusSub3 (n : Nat) : Fld := hpPortStatusSub3D.at n

/-- HP_PORT_STATUS.LANE_FAIL (R44, Table 18-11): RO -/
def hpPortStatusLaneFailD : FldD := ⟨0xc1000, 256, 8, 24, 8, .ro, 0, false, 0, 0, 255, false⟩

/-- The field HP_PORT_STATUS.LANE_FAIL of instance `n`. -/
abbrev hpPortStatusLaneFail (n : Nat) : Fld := hpPortStatusLaneFailD.at n

/-- HP_PORT_STATUS.PFC_TX (R44, Table 18-11): RO -/
def hpPortStatusPfcTxD : FldD := ⟨0xc1000, 256, 8, 32, 8, .ro, 0, false, 0, 0, 255, false⟩

/-- The field HP_PORT_STATUS.PFC_TX of instance `n`. -/
abbrev hpPortStatusPfcTx (n : Nat) : Fld := hpPortStatusPfcTxD.at n

/-- HP_PORT_STATUS.PFC_RX (R44, Table 18-11): RO -/
def hpPortStatusPfcRxD : FldD := ⟨0xc1000, 256, 8, 40, 8, .ro, 0, false, 0, 0, 255, false⟩

/-- The field HP_PORT_STATUS.PFC_RX of instance `n`. -/
abbrev hpPortStatusPfcRx (n : Nat) : Fld := hpPortStatusPfcRxD.at n

/-- HP_PORT_FEC.CORR (R482, Table 18-11): RC -/
def hpPortFecCorrD : FldD := ⟨0xc1008, 256, 8, 0, 32, .rc, 0, false, 0, 0, 4294967295, false⟩

/-- The field HP_PORT_FEC.CORR of instance `n`. -/
abbrev hpPortFecCorr (n : Nat) : Fld := hpPortFecCorrD.at n

/-- HP_PORT_FEC.UNCORR (R482, Table 18-11): RC -/
def hpPortFecUncorrD : FldD := ⟨0xc1008, 256, 8, 32, 32, .rc, 0, false, 0, 0, 4294967295, false⟩

/-- The field HP_PORT_FEC.UNCORR of instance `n`. -/
abbrev hpPortFecUncorr (n : Nat) : Fld := hpPortFecUncorrD.at n

/-- HP_RX_DROP.COUNT (R45, Table 18-11): RC -/
def hpRxDropCountD : FldD := ⟨0xc1010, 256, 8, 0, 32, .rc, 0, false, 0, 0, 4294967295, false⟩

/-- The field HP_RX_DROP.COUNT of instance `n`. -/
abbrev hpRxDropCount (n : Nat) : Fld := hpRxDropCountD.at n

/-- HP_PORT_CFG.MODE (R42, Table 18-11): RWL -/
def hpPortCfgModeD : FldD := ⟨0xc1018, 256, 8, 0, 2, .rwl, 0, false, 2, 0, 2, false⟩

/-- The field HP_PORT_CFG.MODE of instance `n`. -/
abbrev hpPortCfgMode (n : Nat) : Fld := hpPortCfgModeD.at n

/-- RL_CFG.PREFERRED (R341, Table 11-11): RWL -/
def rlCfgPreferredD : FldD := ⟨0xd0000, 0, 1, 0, 1, .rwl, 0, false, 2, 0, 1, false⟩

/-- The field RL_CFG.PREFERRED. -/
abbrev rlCfgPreferred : Fld := rlCfgPreferredD.at 0

/-- RL_CFG.TEAM_EN (R341, Table 11-11): RWL -/
def rlCfgTeamEnD : FldD := ⟨0xd0000, 0, 1, 1, 1, .rwl, 1, false, 2, 0, 1, false⟩

/-- The field RL_CFG.TEAM_EN. -/
abbrev rlCfgTeamEn : Fld := rlCfgTeamEnD.at 0

/-- RL_CFG.SOLO_OPEN (R341, Table 11-11): RWL -/
def rlCfgSoloOpenD : FldD := ⟨0xd0000, 0, 1, 2, 1, .rwl, 0, false, 2, 0, 1, false⟩

/-- The field RL_CFG.SOLO_OPEN. -/
abbrev rlCfgSoloOpen : Fld := rlCfgSoloOpenD.at 0

/-- RL_CFG.RETURN_EN (R341, Table 11-11): RW -/
def rlCfgReturnEnD : FldD := ⟨0xd0000, 0, 1, 3, 1, .rw, 1, false, 1, 0, 1, false⟩

/-- The field RL_CFG.RETURN_EN. -/
abbrev rlCfgReturnEn : Fld := rlCfgReturnEnD.at 0

/-- RL_CFG.HOLDOFF_S (R341, Table 11-11): RW -/
def rlCfgHoldoffSD : FldD := ⟨0xd0000, 0, 1, 8, 12, .rw, 60, false, 2, 10, 3600, false⟩

/-- The field RL_CFG.HOLDOFF_S. -/
abbrev rlCfgHoldoffS : Fld := rlCfgHoldoffSD.at 0

/-- RL_CFG.HOLD_MS (R341, Table 11-11): RW -/
def rlCfgHoldMsD : FldD := ⟨0xd0000, 0, 1, 20, 10, .rw, 0, false, 2, 0, 1000, false⟩

/-- The field RL_CFG.HOLD_MS. -/
abbrev rlCfgHoldMs : Fld := rlCfgHoldMsD.at 0

/-- RL_CFG.CATCHUP_GBPS (R341, Table 11-11): RW -/
def rlCfgCatchupGbpsD : FldD := ⟨0xd0000, 0, 1, 32, 7, .rw, 100, false, 2, 10, 120, false⟩

/-- The field RL_CFG.CATCHUP_GBPS. -/
abbrev rlCfgCatchupGbps : Fld := rlCfgCatchupGbpsD.at 0

/-- RL_CFG.FILL_WAIT_US (R341, Table 11-11): RW -/
def rlCfgFillWaitUsD : FldD := ⟨0xd0000, 0, 1, 40, 4, .rw, 2, false, 2, 1, 15, false⟩

/-- The field RL_CFG.FILL_WAIT_US. -/
abbrev rlCfgFillWaitUs : Fld := rlCfgFillWaitUsD.at 0

/-- RL_CFG.REPAIR_MS (R341, Table 11-11): RW -/
def rlCfgRepairMsD : FldD := ⟨0xd0000, 0, 1, 44, 4, .rw, 2, false, 2, 1, 10, false⟩

/-- The field RL_CFG.REPAIR_MS. -/
abbrev rlCfgRepairMs : Fld := rlCfgRepairMsD.at 0

/-- RL_CFG.NEGOTIATE_S (R341, Table 11-11): RW -/
def rlCfgNegotiateSD : FldD := ⟨0xd0000, 0, 1, 48, 6, .rw, 5, false, 2, 1, 60, false⟩

/-- The field RL_CFG.NEGOTIATE_S. -/
abbrev rlCfgNegotiateS : Fld := rlCfgNegotiateSD.at 0

/-- RL_STATUS.ROLE (R327, Table 11-12): RO -/
def rlStatusRoleD : FldD := ⟨0xd0008, 0, 1, 0, 2, .ro, 0, false, 0, 0, 3, false⟩

/-- The field RL_STATUS.ROLE. -/
abbrev rlStatusRole : Fld := rlStatusRoleD.at 0

/-- RL_STATUS.STATE (R327, Table 11-12): RO -/
def rlStatusStateD : FldD := ⟨0xd0008, 0, 1, 2, 3, .ro, 0, false, 0, 0, 7, false⟩

/-- The field RL_STATUS.STATE. -/
abbrev rlStatusState : Fld := rlStatusStateD.at 0

/-- RL_STATUS.INST_UP (R327, Table 11-12): RO -/
def rlStatusInstUpD : FldD := ⟨0xd0008, 0, 1, 5, 2, .ro, 0, false, 0, 0, 3, false⟩

/-- The field RL_STATUS.INST_UP. -/
abbrev rlStatusInstUp : Fld := rlStatusInstUpD.at 0

/-- RL_STATUS.BELAY_UP (R327, Table 11-12): RO -/
def rlStatusBelayUpD : FldD := ⟨0xd0008, 0, 1, 7, 1, .ro, 0, false, 0, 0, 1, false⟩

/-- The field RL_STATUS.BELAY_UP. -/
abbrev rlStatusBelayUp : Fld := rlStatusBelayUpD.at 0

/-- RL_STATUS.RETURNS (R327, Table 11-12): RO -/
def rlStatusReturnsD : FldD := ⟨0xd0008, 0, 1, 8, 2, .ro, 0, false, 0, 0, 3, false⟩

/-- The field RL_STATUS.RETURNS. -/
abbrev rlStatusReturns : Fld := rlStatusReturnsD.at 0

/-- RL_STATUS.CATCHUP_PCT (R327, Table 11-12): RO -/
def rlStatusCatchupPctD : FldD := ⟨0xd0008, 0, 1, 16, 7, .ro, 0, false, 0, 0, 127, false⟩

/-- The field RL_STATUS.CATCHUP_PCT. -/
abbrev rlStatusCatchupPct : Fld := rlStatusCatchupPctD.at 0

/-- RL_STATUS.FILLS (R327, Table 11-12): RC -/
def rlStatusFillsD : FldD := ⟨0xd0008, 0, 1, 24, 24, .rc, 0, false, 0, 0, 16777215, false⟩

/-- The field RL_STATUS.FILLS. -/
abbrev rlStatusFills : Fld := rlStatusFillsD.at 0

/-- RL_STATUS.TAKEOVERS (R327, Table 11-12): RC -/
def rlStatusTakeoversD : FldD := ⟨0xd0008, 0, 1, 48, 8, .rc, 0, false, 0, 0, 255, false⟩

/-- The field RL_STATUS.TAKEOVERS. -/
abbrev rlStatusTakeovers : Fld := rlStatusTakeoversD.at 0

/-- RL_STATUS.REPAIR_TIMEOUTS (R327, Table 11-12): RC -/
def rlStatusRepairTimeoutsD : FldD := ⟨0xd0008, 0, 1, 56, 8, .rc, 0, false, 0, 0, 255, false⟩

/-- The field RL_STATUS.REPAIR_TIMEOUTS. -/
abbrev rlStatusRepairTimeouts : Fld := rlStatusRepairTimeoutsD.at 0

/-- RL_INDEX.INDEX (R317, Table 11-13): RO -/
def rlIndexIndexD : FldD := ⟨0xd0010, 0, 1, 0, 64, .ro, 0, false, 0, 0, 18446744073709551615, false⟩

/-- The field RL_INDEX.INDEX. -/
abbrev rlIndexIndex : Fld := rlIndexIndexD.at 0

/-- RL_EPOCH.EPOCH (R304, Table 11-13): RO -/
def rlEpochEpochD : FldD := ⟨0xd0018, 0, 1, 0, 32, .ro, 0, false, 0, 0, 4294967295, false⟩

/-- The field RL_EPOCH.EPOCH. -/
abbrev rlEpochEpoch : Fld := rlEpochEpochD.at 0

/-- KEY_CFG.LIMIT_LOG2 (R303, Table 10-9): RW -/
def keyCfgLimitLog2D : FldD := ⟨0xe0000, 0, 1, 0, 6, .rw, 31, false, 2, 20, 40, false⟩

/-- The field KEY_CFG.LIMIT_LOG2. -/
abbrev keyCfgLimitLog2 : Fld := keyCfgLimitLog2D.at 0

/-- KEY_CFG.AUTO_ROLL (R303, Table 10-9): RW -/
def keyCfgAutoRollD : FldD := ⟨0xe0000, 0, 1, 6, 1, .rw, 1, false, 2, 0, 1, false⟩

/-- The field KEY_CFG.AUTO_ROLL. -/
abbrev keyCfgAutoRoll : Fld := keyCfgAutoRollD.at 0

/-- KEY_CFG.SLOTS_FREE (R303, Table 10-9): RO -/
def keyCfgSlotsFreeD : FldD := ⟨0xe0000, 0, 1, 16, 13, .ro, 4096, false, 0, 0, 8191, false⟩

/-- The field KEY_CFG.SLOTS_FREE. -/
abbrev keyCfgSlotsFree : Fld := keyCfgSlotsFreeD.at 0

/-- KEY_ROOT_STATUS.LOADED (R274, Table 10-10): RO -/
def keyRootStatusLoadedD : FldD := ⟨0xe0008, 0, 1, 0, 16, .ro, 0, false, 0, 0, 65535, false⟩

/-- The field KEY_ROOT_STATUS.LOADED. -/
abbrev keyRootStatusLoaded : Fld := keyRootStatusLoadedD.at 0

/-- KEY_ROOT_STATUS.SESSION (R274, Table 10-10): RO -/
def keyRootStatusSessionD : FldD := ⟨0xe0008, 0, 1, 16, 16, .ro, 0, false, 0, 0, 65535, false⟩

/-- The field KEY_ROOT_STATUS.SESSION. -/
abbrev keyRootStatusSession : Fld := keyRootStatusSessionD.at 0

/-- KEY_ROOT_STATUS.ABSENT_ERR (R274, Table 10-10): W1C -/
def keyRootStatusAbsentErrD : FldD := ⟨0xe0008, 0, 1, 32, 16, .w1c, 0, false, 1, 0, 65535, false⟩

/-- The field KEY_ROOT_STATUS.ABSENT_ERR. -/
abbrev keyRootStatusAbsentErr : Fld := keyRootStatusAbsentErrD.at 0

/-- KEY_SLOT_SEL.SLOT (R276, Table 10-11): RW -/
def keySlotSelSlotD : FldD := ⟨0xe0010, 0, 1, 0, 12, .rw, 0, false, 0, 0, 4095, false⟩

/-- The field KEY_SLOT_SEL.SLOT. -/
abbrev keySlotSelSlot : Fld := keySlotSelSlotD.at 0

/-- KEY_SLOT_STATUS.STATE (R276, Table 10-11): RO -/
def keySlotStatusStateD : FldD := ⟨0xe0018, 0, 1, 0, 2, .ro, 0, false, 0, 0, 3, false⟩

/-- The field KEY_SLOT_STATUS.STATE. -/
abbrev keySlotStatusState : Fld := keySlotStatusStateD.at 0

/-- KEY_SLOT_STATUS.KIND (R276, Table 10-11): RO -/
def keySlotStatusKindD : FldD := ⟨0xe0018, 0, 1, 2, 1, .ro, 0, false, 0, 0, 1, false⟩

/-- The field KEY_SLOT_STATUS.KIND. -/
abbrev keySlotStatusKind : Fld := keySlotStatusKindD.at 0

/-- KEY_SLOT_STATUS.ROOT (R276, Table 10-11): RO -/
def keySlotStatusRootD : FldD := ⟨0xe0018, 0, 1, 3, 4, .ro, 0, false, 0, 0, 15, false⟩

/-- The field KEY_SLOT_STATUS.ROOT. -/
abbrev keySlotStatusRoot : Fld := keySlotStatusRootD.at 0

/-- KEY_SLOT_STATUS.AUTO_ROLL (R276, Table 10-11): RO -/
def keySlotStatusAutoRollD : FldD := ⟨0xe0018, 0, 1, 7, 1, .ro, 0, false, 0, 0, 1, false⟩

/-- The field KEY_SLOT_STATUS.AUTO_ROLL. -/
abbrev keySlotStatusAutoRoll : Fld := keySlotStatusAutoRollD.at 0

/-- KEY_SLOT_STATUS.LIMIT_LOG2 (R276, Table 10-11): RO -/
def keySlotStatusLimitLog2D : FldD := ⟨0xe0018, 0, 1, 8, 6, .ro, 0, false, 0, 0, 63, false⟩

/-- The field KEY_SLOT_STATUS.LIMIT_LOG2. -/
abbrev keySlotStatusLimitLog2 : Fld := keySlotStatusLimitLog2D.at 0

/-- KEY_SLOT_STATUS.GEN_OUT (R276, Table 10-11): RO -/
def keySlotStatusGenOutD : FldD := ⟨0xe0018, 0, 1, 16, 16, .ro, 0, false, 0, 0, 65535, false⟩

/-- The field KEY_SLOT_STATUS.GEN_OUT. -/
abbrev keySlotStatusGenOut : Fld := keySlotStatusGenOutD.at 0

/-- KEY_SLOT_STATUS.GEN_IN (R276, Table 10-11): RO -/
def keySlotStatusGenInD : FldD := ⟨0xe0018, 0, 1, 32, 16, .ro, 0, false, 0, 0, 65535, false⟩

/-- The field KEY_SLOT_STATUS.GEN_IN. -/
abbrev keySlotStatusGenIn : Fld := keySlotStatusGenInD.at 0

/-- KEY_SLOT_STATUS.BOUND_TO (R276, Table 10-11): RO -/
def keySlotStatusBoundToD : FldD := ⟨0xe0018, 0, 1, 48, 14, .ro, 0, false, 0, 0, 16383, false⟩

/-- The field KEY_SLOT_STATUS.BOUND_TO. -/
abbrev keySlotStatusBoundTo : Fld := keySlotStatusBoundToD.at 0

/-- Part 0 of the field table. -/
def fields0 : List FldD := [idDevicePartD, idDeviceGradeD, idDeviceSteppingD, idDeviceSerialD, idBootCountD, idFwSecVersionD, idFwSecCounterD, idFwBuildBuildD, idPciVendorD, idPciDeviceD, idPciRevisionD, idPciClassD, fabTimebaseD, fabTbStatusClkLossD, fabTbStatusSdclkLossD, fabTbStatusOscD]

/-- Part 1 of the field table. -/
def fields1 : List FldD := [fabVcoreReqD, fabVcoreAvsFaultD, fabVcoreRangeErrD, fabVcoreCeilD, fabVcoreTargetD, fabVcoreReadbackMvD, fabWdogThreshD, fabPdIdleTimeD, fabStallMapD, fabPdStatusMapD, fabSramStatusSecCorrD, fabSramStatusUncorrD, fabSramStatusSoftMapUsedD, fabSramStatusSlotsDisabledD, fabLadderCfgAutoResetD, fabLadderCfgAutoCycleD]

/-- Part 2 of the field table. -/
def fields2 : List FldD := [fabLadderStatusResets1hD, fabLadderStatusCycles1hD, fabLadderStatusLastRungD, fabLadderStatusLastClassD, fabLadderStatusLastIndexD, fabLadderStatusHeldOffD, fabStartStatusStageD, fabStartStatusCauseD, fabStartStatusCampTrustedD, fabStartStatusBankD, fabStartStatusRecoveryD, fabStartStatusFallbackD, fabStartStatusFailedStartsD, fabStartStatusBootSrcD, fabStartStatusWaitD, fabStartStatusOpenMsD]

/-- Part 3 of the field table. -/
def fields3 : List FldD := [mbxDoorbellRingD, mbxReleaseFreeD, mbxStateSlot0D, mbxStateSlot1D, mbxStateSlot2D, mbxStateSlot3D, mbxStateSlot4D, mbxStateSlot5D, mbxStateSlot6D, mbxStateSlot7D, mbxStateBellIgnoredD, mbxIntStatusSlotD, mbxIntCfgVectorD, mbxIntCfgEnD, mbxGrantCtrlGoD, mbxGrantCtrlDropD]

/-- Part 4 of the field table. -/
def fields4 : List FldD := [mbxGrantStatusLevelD, mbxGrantStatusResultD, mbxGrantStatusRemainingSD, mbxGrantStatusDeniedD, nqCfgDepthLog2D, nqCfgVectorD, nqCfgEnD, nqStatusCountD, nqStatusResetsD, nqStatusBadReadD, nqStatusLostD, seqCfgAutoOnD, seqCfgAutoRestartD, seqCfgBtnOnD, seqCfgBtnLongSD, seqCfgVinGoodMsD]

/-- Part 5 of the field table. -/
def fields5 : List FldD := [seqCfgBivStep10usD, seqCfgChatterND, seqCfgChatterWinMsD, seqCfgPgLossUsD, seqCfgGraceSD, seqCfgHoldupWaitSD, seqStatusStateD, seqStatusHoldupOkD, seqStatusHoldupLowD, seqStatusVinGoodD, seqStatusWriteThroughD, seqStatusRailsOnD, seqStatusPgStateD, seqFaultRailD, seqFaultCauseD, seqFaultFaultMapD]

/-- Part 6 of the field table. -/
def fields6 : List FldD := [seqFaultDischToMapD, seqFaultChatterCntD, seqReplaySlabsD, seqReplayPoisonedD, seqMonReadC0D, seqMonReadC1D, seqMonReadC2D, seqMonReadC3D, seqRailOrderD, seqRailDelay100usD, seqRailPgTimeoutMsD, seqRailDwell100usD, seqRailDischMsD, seqRailMonD, seqRailMonEnD, seqRailBivNeedD]

/-- Part 7 of the field table. -/
def fields7 : List FldD := [seqRailPgUsedD, seqMonLowMvD, seqMonHighMvD, seqMonOffMvD, seqMonScaleQ4D, seqMonEnD, thmCfgWarnCD, thmCfgSlowCD, thmCfgGraceMsD, thmCfgAutoRestartD, thmStatusWarnD, thmStatusRequestedD, thmStatusEnforcedD, thmStatusTripD, thmStatusCritD, thmStatusCoolD]

/-- Part 8 of the field table. -/
def fields8 : List FldD := [thmStatusTripZoneD, thmStatusHotZoneD, thmStatusHotTempD, thmStatusSuspectD, thmBrokenMapD, thmZoneReadZ0D, thmZoneReadZ1D, thmZoneReadZ2D, thmZoneReadZ3D, logStatusHeldD, logStatusFullD, logStatusStartBufD, logStatusDroppedD, logFirstSeqD, logNextSeqD, plogStatusFrozenD]

/-- Part 9 of the field table. -/
def fields9 : List FldD := [plogStatusImagesD, plogHdrMissedD, plogHdrOldestD, plogHdrFrozenD, cvuCtxSelCtxD, cvuCtxCfgWidthD, cvuCtxCfgRefinD, cvuCtxCfgRefoutD, cvuCtxCfgChainedD, cvuCtxCfgPresetD, cvuCtxCfgOwnerD, cvuCtxCfgBusyD, cvuCtxPolyD, cvuCtxInitD, cvuCtxXoroutD, cvuCtxValueD]

/-- Part 10 of the field table. -/
def fields10 : List FldD := [cvuCtxResultD, sumCfgLockWaysD, sumStatusLockUsedD, sumStatusCleaningD, sumStatusCleanWayD, sumStatusWaysOnD, sumStatusDirtyLinesD, sumCountReadHitD, sumCountReadMissD, sumEvictDirtyEvictD, sumEvictEvictWaitD, sumEvictLockedEmptyD, campRangeCfgRangeGibD, campRangeCfgBudgetGibD, campRangeCfgDestageLowPctD, campRangeCfgLookaheadD]

/-- Part 11 of the field table. -/
def fields11 : List FldD := [campRangeCfgTrailD, campRangeCfgVdirectUsD, campRangeCfgBgRebuildD, campRangeStatusBudgetUsedMibD, campRangeStatusRebuildPctD, campRangeStatusRebuildDoneD, campRangeStatusParkedD, campRangeStatusDeadlineMissD, campSchedCfgWqHighD, campSchedCfgWqLowD, campSchedCfgWhEgrLowKibD, campSchedCfgWhRopeHighD, campSchedCfgWhBivLowMibD, campSchedCfgHitPassD, campRfgCfgSampleShiftD, campRfgCfgThreshD]

/-- Part 12 of the field table. -/
def fields12 : List FldD := [campRfgCfgTokenUsD, campRfgCfgBucketD, campRfgCfgHoldMsD, campRfgCfgWindowMsD, campRfgCfgEnD, campRefCfgDueDebtD, campRefCfgMr4MsD, campRefCfgDqsoscMsD, campRefCfgZqMsD, campRefCfgRetrainPsD, campRefCfgDimmHotCD, campCodeCfgScrubHD, campCodeCfgScrubEnD, campCodeCfgDevThreshD, campCodeCfgRowThreshD, campCodeCfgSramThreshD]

/-- Part 13 of the field table. -/
def fields13 : List FldD := [campCodeCfgSramScrubSD, campCodeStatusCorrWordsD, campCodeStatusUncorrWordsD, campCodeStatusRmwCorrD, campCodeStatusRmwPoisonD, campCodeStatusScrubPctD, campChStatusStateD, campChStatusRateD, campChStatusDimmsD, campChStatusRanksD, campChStatusTypeD, campChStatusWidthD, campChStatusRef2xD, campChStatusHotD, campChStatusWhLongD, campChStatusRfgDetectD]

/-- Part 14 of the field table. -/
def fields14 : List FldD := [campChStatusRetiredFramesD, valCfgVerifyDaysD, valCfgRefreshBitsD, valCfgStripeCloseMsD, valCfgOpMinPctD, valCfgPeRatedD, valCfgSuspendEnD, valWearStatusLifePctD, valWearStatusProgPctD, valWearStatusErasePctD, valWearStatusSoftRateD, valWearStatusOpPctD, valWearStatusWriteLimitedD, valWearStatusRebuildActiveD, valWearStatusVerifyPassPctD, valCairnStatusBankRunningD]

/-- Part 15 of the field table. -/
def fields15 : List FldD := [valCairnStatusBankAValidD, valCairnStatusBankBValidD, valCairnStatusCfgCopyD, valCairnStatusSparesLeftD, valCairnStatusMaxEraseD, valCairnStatusFlushSkippedD, valCairnStatusBusyD, valNvStatusStateD, valNvStatusRateD, valNvStatusDiesD, valNvStatusFailedDiesD, valNvStatusRetiredBlocksD, hpTmtCfgUdpPortD, hpTmtCfgJumboD, hpTmtCfgRtxUsD, hpTmtCfgRetryLimitD]

/-- Part 16 of the field table. -/
def fields16 : List FldD := [hpTmtCfgAckPktsD, hpTmtCfgAckUsD, hpTmtCfgLosslessD, hpOpCfgBudgetWaitMsD, hpOpCfgEvtGapUsD, hpOpCfgBudgetWarnPctD, hpOpCfgSendNqD, hpConnStatusConnsD, hpConnStatusBrakeHeldD, hpConnStatusLandingsD, hpPoolCfgEgressMibD, hpPoolCfgXoff16kD, hpPoolCfgXonGap16kD, hpPoolCfgCableMD, hpPoolCfgGlobalFree16kD, hpDscpMapPri0D]

/-- Part 17 of the field table. -/
def fields17 : List FldD := [hpDscpMapPri1D, hpDscpMapPri2D, hpDscpMapPri3D, hpDscpMapPri4D, hpDscpMapPri5D, hpDscpMapPri6D, hpDscpMapPri7D, hpPortStatusModeD, hpPortStatusSub0D, hpPortStatusSub1D, hpPortStatusSub2D, hpPortStatusSub3D, hpPortStatusLaneFailD, hpPortStatusPfcTxD, hpPortStatusPfcRxD, hpPortFecCorrD]

/-- Part 18 of the field table. -/
def fields18 : List FldD := [hpPortFecUncorrD, hpRxDropCountD, hpPortCfgModeD, rlCfgPreferredD, rlCfgTeamEnD, rlCfgSoloOpenD, rlCfgReturnEnD, rlCfgHoldoffSD, rlCfgHoldMsD, rlCfgCatchupGbpsD, rlCfgFillWaitUsD, rlCfgRepairMsD, rlCfgNegotiateSD, rlStatusRoleD, rlStatusStateD, rlStatusInstUpD]

/-- Part 19 of the field table. -/
def fields19 : List FldD := [rlStatusBelayUpD, rlStatusReturnsD, rlStatusCatchupPctD, rlStatusFillsD, rlStatusTakeoversD, rlStatusRepairTimeoutsD, rlIndexIndexD, rlEpochEpochD, keyCfgLimitLog2D, keyCfgAutoRollD, keyCfgSlotsFreeD, keyRootStatusLoadedD, keyRootStatusSessionD, keyRootStatusAbsentErrD, keySlotSelSlotD, keySlotStatusStateD]

/-- Part 20 of the field table. -/
def fields20 : List FldD := [keySlotStatusKindD, keySlotStatusRootD, keySlotStatusAutoRollD, keySlotStatusLimitLog2D, keySlotStatusGenOutD, keySlotStatusGenInD, keySlotStatusBoundToD]

/-- Every field of the register map (Table 18-5). -/
def allFields : List FldD := fields0 ++ fields1 ++ fields2 ++ fields3 ++ fields4 ++ fields5 ++ fields6 ++ fields7 ++ fields8 ++ fields9 ++ fields10 ++ fields11 ++ fields12 ++ fields13 ++ fields14 ++ fields15 ++ fields16 ++ fields17 ++ fields18 ++ fields19 ++ fields20

/-- The instance of a row that lies at offset `off`, if one does. -/
def FldD.instAt (d : FldD) (off : Nat) : Option Fld :=
  if d.count = 1 then (if off = d.base then some (d.at 0) else none)
  else if d.base ≤ off ∧ (off - d.base) % d.stride = 0 ∧ (off - d.base) / d.stride < d.count then
    some (d.at ((off - d.base) / d.stride)) else none

/-- The fields of the register at offset `off` (none where Table 18-5 names no register: R468). -/
def fieldsAt (off : Nat) : List Fld := allFields.filterMap (·.instAt off)

end Sys2Proof.Machine.Reg
end

