-- ==== Sys2Proof/Machine/State.lean ====
section
/-! DEFINITION. The state of the block: plain data, every register, table, queue, buffer and flag the spec names. -/

namespace Sys2Proof.Machine

/-- Why a step stops. -/
inductive Fault where
  /-- Raised by any command whose operands name a unit, index or field value the part does not have (`wellFormed`
  false). Safe: the hardware has no such event, so no behaviour of the part is left out. -/
  | noSuchUnit
  deriving DecidableEq, Repr

/-- Why a command has no meaning. -/
inductive Refusal where
  /-- Raised by no meaning; only by an arm of `exec` whose command is not modelled. Safe: nothing is claimed of it. -/
  | notModelled (mnemonic : String)
  deriving DecidableEq, Repr

/-- The events that the part writes to its logs, by the model's own names (log entry 4); the first eight are the
logbook's own records of Table 15-4. -/
inductive Ev where
  | timeMark | logFull | logCleared | recordLost | startOverflow | queueReset | restart | freezeGap
  | avsFault | clkLoss | sdClkLoss | stall | pmbAlert | departureSent | departureRecv | portDegraded
  | portDown | portRestored | connError | eventUndelivered | messageCheck | noSlot | campPopulation | campHot
  | whistleLong | aggressor | rankFailed | channelRetired | rowRetired | rowLimit | rowRepaired | rowPermanent
  | deviceMarked | deviceSecond | rankCentring | sramLasting | sramNoSpare | uncorrectable | frameLost | blockRetired
  | dieFailed | channelFailed | wearWarn | wearAct | writeLimited | writeLimitEnd | cairnSpares | flushSkipped
  | rootUnreadable | bankFailed | formatted | bivResizeFailed | titleTag | rootAbsent | internalFault | selfTest
  | belayLost | ropeInstDown | ropeInstUp | ropeLaneLoss | fence | takeover | roleChange | returnDisabled
  | repairTimeout | sameTwin | ropeSingle | ropeRoped | digestMismatch | railFault | dischargeTimeout | monitorFault
  | chatter | collapse | bivouac | holdupLow | holdupWait | holdupRestored | orderlyStop | longPress
  | shortPress | restartDue | sensorBroken | sensorSuspect | thermalWarn | slowdown | slowdownEnforced | slowdownCleared
  | trip | critical | thermalRecord | guideHang | ladderRung | deviceReset | powerCycle | ladderHeld
  | deniedWrite | sdWait | noBoot | fallback | mgmtLinkDown | regionFence | hostFence | chainError
  | valleyPopulation | configMissing | twinAbsent
  deriving DecidableEq, Repr

/-- DDR5 commands that a scheduler issues (R169 to R181). -/
inductive DdrCmd where
  | refSb (rank idx : Nat) | refAb (rank : Nat) | rfm (bank : Nat) | act (bank row : Nat) | pre (bank : Nat)
  | rd (cpa : Nat) | wr (cpa : Nat) | zq (rank : Nat) | mrr (rank : Nat) | centre (rank : Nat) | selfRefresh (rank : Nat) | nop
  deriving DecidableEq, Repr

/-! ## Logbook, pitch logs, notification queues (15) -/

/-- A pitch-log record (Table 15-2). Log entry 4: the event is held by name. -/
structure PitchRec where
  stamp : Nat
  src : Nat
  ev : Ev
  logged : Bool
  detail : List Nat
  deriving DecidableEq, Repr

/-- A pitch log (R410, R413): its records, oldest first, the slot the next record takes, and its frozen state. -/
structure PitchLog where
  recs : List PitchRec := []
  slot : Nat := 0
  frozen : Bool := false
  missed : Nat := 0
  thawAt : Nat := 0
  deriving DecidableEq, Repr

/-- A logbook record (Table 15-3). -/
structure LogRec where
  seq : Nat
  rep : Nat := 1
  src : Nat
  ev : Ev
  unit : Nat
  posted : Bool := false
  sat : Bool := false
  detail : List Nat := []
  deriving DecidableEq, Repr

/-- A committed pitch-log flush image (R414). -/
structure FlushImage where
  seq : Nat
  stamp : Nat
  nextSeq : Nat
  cause : Nat
  logs : Tab PitchLog
  committed : Bool := true
  deriving DecidableEq, Repr

/-- A programmed page of the logbook area (R221): logical page, page sequence, number of its first record, records. -/
structure LogPage where
  page : Nat
  seq : Nat
  first : Nat
  recs : List LogRec
  deriving DecidableEq, Repr

/-- The logbook (R415 to R422): records held, oldest first; the next number; the start buffer before the valley scan;
whether any record was appended or repeated since the last TIME_MARK; operating hours in 1/4,096 h (R412). -/
structure Logbook where
  recs : List LogRec := []
  next : Nat := 1
  loaded : Bool := false
  start : List LogRec := []
  startLost : Nat := 0
  sinceMark : Bool := false
  hours : Nat := 0
  hoursCfg : Nat := 0
  /-- the ring of programmed pages (R221), oldest first; the sequence of the next page; whether a record changed since the page
  that holds it was programmed -/
  area : List LogPage := []
  pageSeq : Nat := 1
  changed : Bool := false
  /-- timebase of the last record of a denied write (R473: one record a second) -/
  deniedAt : Option Nat := none
  deriving DecidableEq, Repr

/-- What a queue entry carries after word 0 (Table 15-5). -/
inductive NqBody where
  | notif (r : LogRec)
  | send (ident conn len msn : Nat) (data : Bytes)
  | cont (data : Bytes)
  deriving DecidableEq, Repr

/-- A notification queue entry (Table 15-5): message number, entries still to follow, body. -/
structure NqEntry where
  num : Nat
  left : Nat
  body : NqBody
  deriving DecidableEq, Repr

/-- A notification queue (R423 to R427). The read and write pointers are kept twice. -/
structure Nq where
  ents : List NqEntry := []
  nextNum : Nat := 1
  rdA : Nat := 0
  rdB : Nat := 0
  wrA : Nat := 0
  wrB : Nat := 0
  deriving DecidableEq, Repr

/-! ## Command packets (14), mailbox (18), I3C -/

/-- The channel a command came by (Table 14-4). -/
inductive Chan where
  | mbx (slot : Nat) | net (conn : Nat) | i3c
  deriving DecidableEq, Repr

/-- A reply (Table 14-2). `fresh` and `key` let the HMAC of R389 be formed when it is read or sent. -/
structure Reply where
  status : Nat
  op : Nat
  tag : Nat
  detail : Nat := 0
  payload : Bytes := []
  final : Bool := true
  responder : Nat := 0
  auth : Option (Bytes × Nat) := none
  deriving DecidableEq, Repr

/-- An accepted command (R394 step 12): waiting for a guide, executing, or holding its reply until its
table-log record is programmed (`log`, R124) and the Second has applied its
order record (`idx`, R321). -/
inductive TkState where
  | waiting | executing | hold (log : Bool) (idx : Nat) (r : Reply)
  deriving DecidableEq, Repr

/-- A command between acceptance and final reply. -/
structure Ticket where
  op : Nat
  level : Nat
  mgmt : Bool
  ident : Nat
  tag : Nat
  fresh : Nat
  par : Bytes
  chan : Chan
  key : Option Bytes := none
  since : Nat := 0
  pendingSent : Bool := false
  /-- what a command that works on in the background keeps: counts, places -/
  aux : List Nat := []
  /-- the guide that executes it (R395), none for a command of the brake engine or the ladder -/
  guide : Option Nat := none
  st : TkState := .waiting
  deriving DecidableEq, Repr

/-- Freshness record of one key (R390): highest value accepted, and the accepted values among the 64 below it. -/
structure Fresh where
  high : Nat
  seen : List Nat
  deriving DecidableEq, Repr

/-- One mailbox slot's areas (R476). -/
structure MbxSlot where
  cmd : Bytes := []
  reply : Option Reply := none
  deriving DecidableEq, Repr

/-- The I3C target (R393): its dynamic address, whether in-band interrupts are enabled, the replies not yet read, oldest
first, each with whether its reading ends the outstanding command, whether an in-band interrupt stands, whether a command
is outstanding. -/
structure I3c where
  addr : Option Nat := none
  ibi : Bool := true
  replies : List (Bool × Reply) := []
  ibiPending : Bool := false
  busy : Bool := false
  /-- what the last private read or GET CCC returned (the model's record of the bus output) -/
  out : Bytes := []
  deriving DecidableEq, Repr

/-- Mailbox, grant, MSI-X and PCIe endpoint (18). -/
structure Mgmt where
  slots : Tab MbxSlot := []
  grantReq : Bytes := []
  grantEnd : Nat := 0
  busMaster : Bool := false
  msixEn : Bool := false
  msix : Tab Nat := []
  pba : Nat := 0
  /-- MSI-X messages sent (address, data), oldest first: the model's record of the link's output -/
  sent : List (Nat × Nat) := []
  linkUp : Bool := false
  /-- what the last window read returned (the model's record) -/
  readOut : Bytes := []
  deriving DecidableEq, Repr

/-- Command execution (14): tickets by number, keys, freshness records, mirrored command tags (R399). -/
structure Cmd where
  tickets : Tab Ticket := []
  nextTicket : Nat := 0
  opKey : Option Bytes := none
  custKey : Option Bytes := none
  fresh : Tab Fresh := []
  /-- mirrored commands applied: principal, opcode, tag, and the reply it gave (R399) -/
  mirrored : List (Nat × Nat × Nat × Reply) := []
  /-- host identities fenced by HOST_FENCE (R406) -/
  fencedIds : List Nat := []
  /-- commands discarded at step 8, BRAKE_STATUS -/
  discarded : Nat := 0
  deriving DecidableEq, Repr

/-- A host identity record (Table 14-8). -/
structure Ident where
  mgmtNet : Bool
  sessRoot : Option Nat
  quota : Nat
  connectKey : Bytes
  cmdKey : Option Bytes
  deriving DecidableEq, Repr

/-! ## The ladder (16) and start-up (17) -/

/-- Ladder state of one function (R442 to R448): rung running (0 none), tries on it, times rung 1 and rung 2 were
needed, whether it is held out of use, the commands that joined the rung, and the time at which a guide's rung 2 has
reloaded it (R10; log entry 92). -/
structure LadFn where
  rung : Nat := 0
  tries : Nat := 0
  t1 : List Nat := []
  t2 : List Nat := []
  held : Bool := false
  joined : List Nat := []
  since : Nat := 0
  until_ : Option Nat := none
  deriving DecidableEq, Repr

/-- The ladder's counts in PD0 (R444). -/
structure Ladder where
  fns : Tab LadFn := []
  resets : List Nat := []
  cycles : List Nat := []
  /-- escalation waiting for DEVICE_RESET (3) or PWR_CYCLE (4) because AUTO_RESET or AUTO_CYCLE is clear -/
  due : Nat := 0
  /-- rung 3 or 4 whose service opening is awaited (0 none), and its start, for its bound -/
  run : Nat := 0
  since : Nat := 0
  /-- rung 3 or 4 that waits for a planned handover (0 none), the function, the start cause -/
  wait : Nat := 0
  waitFn : Nat := 0
  waitCause : Nat := 0
  /-- a camp channel retired by the ladder whose destage runs, before rung 3 (R190) -/
  retiring : Option Nat := none
  deriving DecidableEq, Repr

/-- The warm-reset integrity record (Table 17-6), field by field, with its CRC as good or not. -/
structure Integrity where
  count : Nat
  confirmed : Nat
  live : Nat
  flags : Nat
  rangeGib : Nat
  budgetGib : Nat
  format : Nat
  crcOk : Bool
  deriving DecidableEq, Repr

/-- Start-up state beyond FAB_START_STATUS (17). -/
structure Start where
  integrity : Option Integrity := none
  /-- stage 4 ended without a bank: recovery boot, factory test or WAIT 6 (R454) -/
  halted : Bool := false
  /-- in reset: PS_MRST_N is low (R369) -/
  inReset : Bool := false
  /-- time at which the start was entered, for OPEN_MS -/
  entry : Nat := 0
  /-- ROPE_SOLO has ordered a single opening (Table 11-1) -/
  soloOrdered : Bool := false
  /-- CAUSE of the next stage-4 write -/
  cause : Nat := 0
  deriving DecidableEq, Repr

/-! ## Power (12), thermal (13), fabric (2) -/

/-- Why the rails are going down, and what follows (R352 to R358, R370). -/
inductive StopWhy where
  | railStart | orderly | collapse | railFault | trip | longPress | cycle | grace | critical | aonFail
  deriving DecidableEq, Repr

/-- The sequencer's progress (12): the group being enabled (its ORDER) with its delay end or enable time; rails in
dwell since; rails whose dwell is complete; chatters (rail, time); power-good falls since; monitor channels out of
window at the last reading (`true`: their fault is declared); whether the rail table is locked; a start that waits for
the input; the shutdown in progress (its ORDER), its pace, the rails that discharge, why it runs; the bivouac step in
progress, 1 to 6 (0 none), its header cause, its timebase at the detection, and the bytes read from camp that wait for a valley program (Table 6-5); the press of the button that is held; the end of GRACE_S; the restart
after a power cycle; whether only an operator's start ends the stay off. -/
structure Seq where
  group : Option Nat := none
  delayEnd : Option Nat := none
  enabledAt : Option Nat := none
  dwell : Tab Nat := []
  good : List Nat := []
  chat : List (Nat × Nat) := []
  fell : Tab Nat := []
  monOut : Tab Bool := []
  locked : Bool := false
  startPending : Bool := false
  down : Option Nat := none
  pace : Bool := false
  /-- time at which the group that goes down was disabled (R354) -/
  downAt : Nat := 0
  discharging : List Nat := []
  why : Option StopWhy := none
  bivStep : Nat := 0
  bivCause : Nat := 0
  bivAt : Nat := 0
  staged : Nat := 0
  btnDown : Option Nat := none
  graceEnd : Option Nat := none
  restartAt : Option Nat := none
  stayOff : Bool := false
  deriving DecidableEq, Repr

/-- Pins and straps that are levels (Tables 12-1, 19-2), and outputs that are levels. -/
structure Pins where
  twinId : Nat := 0
  /-- the MAC address of sub-port 0; sub-port k has the k-th after it (R42; log entry 116) -/
  mac : Nat := 0
  bootSrc : Nat := 0
  tripN : Bool := true
  perstN : Bool := true
  belayOut : List (BitVec 32) := []
  boundary : Bool := false
  factory : Bool := false
  deriving DecidableEq, Repr

/-- The thermal monitor (13): readings, failed conversions at the last scan, sensors that differ from their zone since,
zones cool since, whether a trip or critical shutdown keeps starts refused, grace end, next ceiling step and its
direction, the record of a trip that is due at the next start. -/
structure Thermal where
  rd : Tab Int := []
  bad : List Nat := []
  odd : Tab Nat := []
  coolSince : Option Nat := none
  shut : Bool := false
  graceEnd : Option Nat := none
  stepAt : Option Nat := none
  stepUp : Bool := false
  recordDue : Bool := false
  deriving DecidableEq, Repr

/-- The fabric (2): AVSBus step in flight and tries, last acknowledged code, AVSBus writes sent (the model's record);
handshakes stuck; domains waiting for power-up, and power-ups in the last 10 µs; clocks lost; when stage 3 began to wait for SD_REFCLK. -/
structure Fab where
  avsSent : Option Nat := none
  avsTries : Nat := 0
  avsAcked : Nat := 26
  avsLog : List Nat := []
  stuck : Tab Nat := []
  wakeQ : List Nat := []
  ups : List Nat := []
  refOk : Bool := true
  sdOk : Bool := true
  sdSince : Option Nat := none
  deriving DecidableEq, Repr

/-! ## Host ports and transport (3) -/

/-- A frame of the rope (11): its header and body. -/
inductive RopeBody where
  | hello (h : Hello)
  | order (recs : List OrderRec)
  | confirm (idx : Nat)
  | renew (seq : Nat)
  | renewAck (seq : Nat)
  | fillReq (idxs : List Nat)
  | fillData (idx off : Nat) (data : Bytes)
  | fetchReq (f : Fetch)
  | fetchData (f : Fetch) (a : FetchAnswer)
  | catchup (slab : Nat) (data : Bytes) (poison : List Nat) (stamp : Nat)
  | control (c : Control)
  | returnRequest
  | ack
  deriving DecidableEq, Repr

/-- A rope frame with its header (Table 11-3). -/
structure RopeFrame where
  inst : Nat
  seq : Nat
  ack : Nat
  epoch : Nat
  body : RopeBody
  deriving DecidableEq, Repr

/-- A frame in an egress crossing: a TMT packet with its priority, a PFC frame, or a rope frame. -/
inductive Frame where
  | tmt (prio : Nat) (p : Pkt)
  | pfc (prio quanta : Nat)
  | rope (f : RopeFrame)
  deriving DecidableEq, Repr

/-- Ports and buffer pool (3, R66 to R71): ingress occupancy and pause state per sub-port and priority (key
sub × 8 + priority; 512 more for what lies in its headroom), pauses received until, management share, egress hold, brake store, egress crossings, and what has
left the pins (the model's record). -/
structure Port where
  occ : Tab Nat := []
  xoff : List Nat := []
  globalXoff : Bool := false
  rxPause : Tab Nat := []
  mgmtUsed : Nat := 0
  egressUsed : Nat := 0
  brake : Tab Nat := []
  /-- quiesced sub-ports: the state each had before (R406) -/
  quiet : Tab Nat := []
  fifo : Tab (List Frame) := []
  wire : List (Nat × Frame) := []
  /-- time of the last NAK UNKNOWN_CONNECTION per source address (Table 3-5, step 2) -/
  unkAt : Tab Nat := []
  /-- SHUTDOWN_IMMINENT has been sent: no other EVENT follows (R117) -/
  eventsOff : Bool := false
  /-- CONNECTs handled since the second that began at (R78) -/
  rateAt : Nat := 0
  rateN : Nat := 0
  /-- messages from hosts that failed their check (R75) -/
  checkFails : Nat := 0
  /-- sealed or checked packets that wait for a cipher pipeline or check-value unit to wake (R39) -/
  rxWait : List Pkt := []
  deriving DecidableEq, Repr

/-- A sequenced packet sent and not yet acknowledged (R57). -/
structure Held where
  psn : Nat
  pkt : Pkt
  at_ : Nat
  /-- place of the payload's first byte in its 64-byte line of the range (a READ-RESP) -/
  skip : Nat := 0
  /-- a first bit of it has been on the wire (R290) -/
  begun : Bool := false
  deriving DecidableEq, Repr

/-- One path of a connection (3): route, receiver side (expected PSN, NAK suppression, ACK counting, tag failures) and
sender side (next PSN, held packets, retry count, timer, waits, last rewind). `down` keeps a path that was open. -/
structure PathSt where
  up : Bool := true
  sub : Nat
  src : Nat
  sport : Nat
  /-- the part's address that the host uses -/
  dst : Nat := 0
  rxE : Nat
  nakUntil : Option Nat := none
  ackN : Nat := 0
  ackDue : Option Nat := none
  tagFails : Nat := 0
  tagCount : Nat := 0
  txNext : Nat
  held : List Held := []
  retry : Nat := 0
  timer : Option Nat := none
  rnr : Option (Nat × Nat) := none
  msnWait : Option (Nat × Nat) := none
  rewound : Option (Nat × Nat) := none
  /-- control payload accepted on this path and the answer given, for resends (R77, R79) -/
  ctlIn : Bytes := []
  ctlOut : Bytes := []
  /-- PATH-OPENs accepted before, each with its answer (R79) -/
  ctlPast : List (Bytes × Bytes) := []
  deriving DecidableEq, Repr

/-- How an operation ended: a completion (status, flags), a NAK already sent, a READ-RESP with its payload and poisoned
lines (counted from the line of its first byte). -/
inductive Result where
  | comp (status flags : Nat)
  | nak (code : Nat)
  | resp (data : Bytes) (poison : List Nat) (flags : Nat)
  /-- message recorded as refused without NAK (report mode owner, R104) -/
  | silent (code : Nat)
  deriving DecidableEq, Repr

/-- Where a message of the host's sequence stands. -/
inductive MsgSt where
  | placing | budget (id : Nat) | running | destage (r : Result) | rope (idx : Nat) (r : Result) | done (r : Result)
  deriving DecidableEq, Repr

/-- A message of the host's sequence (R61, R62, R88): the header of the first chunk accepted, chunks placed, its data by
offset, the region it holds, its budget, lines applied, faults taken. -/
structure Msg where
  first : Pkt
  mlen : Nat
  chunks : List Nat := []
  data : Tab Bytes := []
  chk : Option Bytes := none
  arrival : Nat := 0
  validated : Bool := false
  region : Option Nat := none
  /-- slabs charged by this message's reservation that have received none of its bytes (R136) -/
  resv : List Nat := []
  /-- destination slabs waiting for write-through destage (R137) -/
  wait : List Nat := []
  wthru : Bool := false
  applied : List Nat := []
  fault : Bool := false
  throttled : Bool := false
  vdirect : Bool := false
  parked : Bool := false
  /-- ingress buffer the message's chunks hold: (sub-port × 8 + priority, bytes) (R66) -/
  occ : List (Nat × Nat) := []
  /-- its summit fills have been asked for (R254) -/
  started : Bool := false
  /-- bytes read, with poisoned lines, while the answer waits; seal units not yet verified; hold mode; whether its
  READ-RESP already stands in the sending queue; invocations reserved (R283, R289) -/
  payload : Option (Bytes × List Nat) := none
  units : List Nat := []
  sealOut : Bool := false
  /-- distance of a sealed READ's first byte from its object's base, from which `units` counts -/
  unitBase : Nat := 0
  hold : Bool := false
  out : Bool := false
  inv : Nat := 0
  st : MsgSt := .placing
  deriving DecidableEq, Repr

/-- A completion sent and not yet covered (R56): its copies as (path, PSN the carrying ACK announced). -/
structure Outst where
  msn : Nat
  status : Nat
  flags : Nat
  copies : List (Nat × Nat) := []
  lastAt : Nat := 0
  lastPath : Nat := 0
  deriving DecidableEq, Repr

/-- A message of the part's own sequence, or a READ-RESP, with the bytes still to be cut into chunks. -/
structure OutMsg where
  ty : Nat
  msn : Nat
  exts : List Ext := []
  last : List Ext := []
  data : Bytes := []
  poison : List Nat := []
  sealIt : Bool := false
  addr : Nat := 0
  mgmt : Bool := false
  sent : Nat := 0
  started : Bool := false
  /-- message check of R74, while one is sent -/
  chk : Option Bytes := none
  /-- order index the Second must have applied before it is sent (R321) -/
  gate : Nat := 0
  /-- path to prefer not to use (port events, R116) -/
  avoid : Option Nat := none
  /-- path of the chunk before: the chunks take the paths in turn (R52) -/
  lastPath : Option Nat := none
  deriving DecidableEq, Repr

/-- Life of a connection (R60, R80). -/
inductive ConnSt where
  | opened | closing (end_ : Nat) | error (until_ : Nat)
  deriving DecidableEq, Repr

/-- A connection (3). -/
structure Conn where
  gen : Nat
  ident : Nat
  hostNum : Nat
  unit : Nat
  checks : Nat
  prio : Nat
  dscp : Nat
  nonce : Bytes
  saltIn : Bytes
  saltOut : Bytes
  winPk : Nat
  winBy : Nat
  st : ConnSt := .opened
  order : Nat
  paths : Tab PathSt
  msgs : Tab Msg := []
  nextDone : Nat := 1
  respQ : List OutMsg := []
  outst : List Outst := []
  partMsn : Nat := 1
  slot : Option Nat := none
  invoc : Nat := 0
  fills : Nat := 0
  reduced : Bool := false
  /-- part-originated messages sent and not wholly acknowledged: MSN and what waits on them (queue × 4096 + slot of a
  PUSH; event of a connection event) -/
  pushes : List (Nat × Nat) := []
  /-- CLOSE sent and unanswered: reason, tries left, next resend (R80) -/
  closeOut : Option (Nat × Nat × Nat) := none
  /-- order index of the connection's record, before which no ACCEPT is sent (R306) -/
  acceptIdx : Option Nat := none
  /-- deadlines of READs whose last chunk has not yet left (R142), by MSN -/
  due : Tab Nat := []
  /-- time when no path to the Lead was left (R308) -/
  leadLost : Option Nat := none
  deriving DecidableEq, Repr

/-! ## Regions, chains (4) and system tables -/

/-- A region descriptor (Table 4-1) with its fence and refusal counts (R105, R406). -/
structure Region where
  key : Nat
  base : Nat
  len : Nat
  obj : Nat
  rights : Nat
  group : Nat
  owner : Nat
  ownConn : Nat
  deadline : Nat
  draining : Bool := false
  inflight : Nat := 0
  fenced : Bool := false
  refusals : Nat := 0
  unreported : Nat := 0
  /-- end of the gap that follows an ACCESS_VIOLATION (R105), as EVT_GAP_US stood at it (R118) -/
  evtUntil : Option Nat := none
  poisonEvt : Option Nat := none
  pendingSent : Bool := false
  revokers : List Nat := []
  deriving DecidableEq, Repr

/-- A trigger waiting to start a run (R112): the SEND's connection and argument. -/
structure Trig where
  conn : Nat
  msn : Nat
  arg : Bytes
  deriving DecidableEq, Repr

/-- A work request in flight: ring slot, region indices it holds, whether it waits for budget, progress offset, running
check value, slabs it charged, its PUSH message; the connection and the number of invocations that a sealed PUSH has
reserved (R283); whether its reservation is write-through, and the slabs whose destage it waits for (R137). -/
structure WrRun where
  slot : Nat
  regions : List Nat
  waiting : Option Nat := none
  offset : Nat := 0
  value : Nat := 0
  resv : List Nat := []
  mover : Option Nat := none
  pushMsn : Option (Nat × Nat) := none
  inv : Nat × Nat := (0, 0)
  wthru : Bool := false
  wait : List Nat := []
  /-- order index of the last record of what it wrote, 0 while there is none (R98, R321) -/
  idx : Nat := 0
  deriving DecidableEq, Repr

/-- A run of a chain (R113): first slot, slot of its END, next slot to start, the trigger, work requests in flight and
completed. -/
structure Run where
  first : Nat
  fin : Nat
  next : Nat
  trig : Trig
  live : List WrRun := []
  done : List Nat := []
  stopped : Bool := false
  ended : Bool := false
  deriving DecidableEq, Repr

/-- State of a chain queue (Table 4-7). -/
inductive QSt where
  | idle | running | error
  deriving DecidableEq, Repr

/-- A chain queue (Table 4-7). -/
structure Queue where
  owner : Nat
  oconn : Nat
  repeatMode : Bool
  depth : Nat
  report : Nat
  ring : Tab Bytes := []
  head : Nat := 0
  used : Nat := 0
  st : QSt := .idle
  pend : List Trig := []
  runs : Nat := 0
  failures : Nat := 0
  run : Option Run := none
  logged : Nat := 0
  deriving DecidableEq, Repr

/-- A trigger binding (R112) with its ACCESS_VIOLATION gap (R105). -/
structure TagB where
  queue : Nat
  group : Nat
  evtUntil : Option Nat := none
  unreported : Nat := 0
  deriving DecidableEq, Repr

/-- An access group (R86): its owner principal and members. -/
structure Group where
  owner : Nat
  members : List Nat
  deriving DecidableEq, Repr

/-- Object states (Table 5-4). -/
inductive ObjSt where
  | opened | publishing | published | deleting
  deriving DecidableEq, Repr

/-- Sealing facts of a published sealed object (10). -/
structure SealInfo where
  root : Nat
  titleGen : Nat
  titleId : Nat
  version : Nat
  dataLen : Nat
  slot : Option Nat
  deriving DecidableEq, Repr

/-- An object record (Table 5-4). -/
structure Obj where
  base : Nat
  len : Nat
  owner : Nat
  cls : Nat
  mirror : Nat
  st : ObjSt := .opened
  sealed_ : Option SealInfo := none
  digest : Bytes := []
  check : Nat := 0
  /-- command waiting for it: OBJECT_PUBLISH, OBJECT_DELETE, OBJECT_SET_PLACEMENT -/
  waiters : List Nat := []
  /-- OBJECT_PUBLISH parameters in force while PUBLISHING -/
  pub : Bytes := []
  deriving DecidableEq, Repr

/-- A topo (5): header, steps as extents (object, start, length), marker. -/
structure Topo where
  owner : Nat
  look : Nat
  trail : Nat
  cmdOnly : Bool
  loop : Bool
  count : Nat
  steps : Tab (List (Nat × Nat × Nat)) := []
  committed : Bool := false
  marker : Nat := 0
  logged : Nat := 0
  loggedAt : Option Nat := none
  deriving DecidableEq, Repr

/-- The system tables (R124). -/
structure Tables where
  objects : Tab Obj := []
  objNext : Nat := 0
  regions : Tab Region := []
  regionGen : Tab Nat := []
  groups : Tab Group := []
  topos : Tab Topo := []
  queues : Tab Queue := []
  tags : Tab TagB := []
  deriving DecidableEq, Repr

/-- A budget reservation that waits (R97): whose it is, the slabs it needs, its deadline. -/
inductive ResvFor where
  | msg (conn msn : Nat) | wr (q slot : Nat)
  deriving DecidableEq, Repr

/-- See `ResvFor`. -/
structure Resv where
  id : Nat
  who : ResvFor
  slabs : List Nat
  until_ : Nat
  deriving DecidableEq, Repr

/-- Operation engine state beyond the tables. -/
structure OpsSt where
  /-- landing buffers: key connection × 2^32 + landing key, value length (R106) -/
  landings : Tab Nat := []
  budgetQ : List Resv := []
  nextId : Nat := 0
  warned : Bool := false
  deriving DecidableEq, Repr

/-! ## The range (5) -/

/-- Slab states (Table 5-2). -/
inductive SlabSt where
  | unwritten | partial_ | dirty | clean | valley | promoting | destaging
  deriving DecidableEq, Repr

/-- A translation entry (Table 5-1) with the facts its job holds: written-line mask of a PARTIAL slab, target page and
write mark of a destage, 4 KiB units filled and in progress of a promotion, its poisoned lines are in `Range.poison`. -/
structure Slab where
  st : SlabSt := .unwritten
  frame : Nat := 0
  pois : Bool := false
  vloc : Option Nat := none
  mask : Nat := 0
  target : Option Nat := none
  wrote : Bool := false
  filled : Nat := 0
  unit : Option Nat := none
  evictAfter : List Nat := []
  deriving DecidableEq, Repr

/-- What a mover job carries (Table 5-6). -/
inductive JobKind where
  | promote (slab : Nat) | destage (slab : Nat) | prefetch (slab topo : Nat) | load (slab : Nat)
  | rebuild (seg : Nat) | chain (q slot : Nat) | repair (slab : Nat) | check (obj : Nat) | unseal (ticket : Nat)
  | move (slab : Nat)
  deriving DecidableEq, Repr

/-- A mover job with its class and progress offset (R145, R146). -/
structure Job where
  cls : Nat
  kind : JobKind
  offset : Nat := 0
  deriving DecidableEq, Repr

/-- The range: its bytes (unlisted byte 0, R127), poisoned lines (R235), translation entries, partial side table order,
charged slabs oldest first, frame reference bits, walker positions, mover jobs, the grant pointer of each mover class
(R33), segments built and being rebuilt. -/
structure Range where
  mem : List Host.Cell := []
  poison : List Nat := []
  slabs : Tab Slab := []
  sideQ : List Nat := []
  dirtyList : List Nat := []
  refBits : List Nat := []
  walker : Tab Nat := []
  jobs : List Job := []
  movers : Tab Job := []
  ptr : Tab Nat := []
  built : List Nat := []
  segQ : List Nat := []
  segRun : List Nat := []
  /-- groups of 8 entries that the translation cache holds, the last used last (R120) -/
  tcache : List Nat := []
  /-- frames that an eviction or a move freed under reads that had translated to them: slab, frame, those reads (R148) -/
  leaving : List (Nat × Nat × List (Nat × Nat)) := []
  deriving DecidableEq, Repr

/-! ## Camp (6) -/

/-- A request in a camp queue: its port (Table 6-3), the connection that caused it (0 internal), its line and the number
of row hits that have passed it (R169). -/
structure CampReq where
  port : CampPort
  conn : Nat
  cpa : Nat
  passed : Nat := 0
  /-- mover class of a mover request (Table 6-4) -/
  cls : Nat := 0
  /-- its place in the order of arrival at the subchannel -/
  no : Nat := 0
  deriving DecidableEq, Repr

/-- The queues of one subchannel (64 reads, 64 writes), its forced drain (R170), its grant pointer (R33) and the requests
that have arrived. -/
structure SubQ where
  rd : List CampReq := []
  wr : List CampReq := []
  drain : Bool := false
  ptr : Nat := 0
  n : Nat := 0
  deriving DecidableEq, Repr

/-- Refresh of one rank (R175, R176): intervals owed less intervals paid ahead, bank indices of a set of REFsb already
refreshed, refresh forced until the debt is 0, double rate, extra REFsb due by bank index (R181). -/
structure RankSt where
  debt : Int := 0
  set : List Nat := []
  force : Bool := false
  x2 : Bool := false
  extra : List Nat := []
  deriving DecidableEq, Repr

/-- One row entry of a rockfall sampler (R180): row, sampled count, last 16 samples as (port, connection), whether it has been
found an aggressor in this window. -/
structure RfgRow where
  row : Nat
  count : Nat
  last : List (CampPort × Nat)
  found : Bool := false
  deriving DecidableEq, Repr

/-- A throttle (R181, R182); `who = none` throttles every requester of the bank. -/
structure Throttle where
  who : Option (CampPort × Nat)
  tokens : Nat
  bucket : Nat
  tokenUs : Nat
  until_ : Nat
  deriving DecidableEq, Repr

/-- The rockfall state of one bank: activations counted toward the next sample, row entries, throttles by place 0 to 4
(place 4 is the common throttle), rolling activation count (R178). -/
structure BankSt where
  acts : Nat := 0
  rows : List RfgRow := []
  thr : Tab Throttle := []
  raa : Nat := 0
  rfmDue : Bool := false
  lastAct : Option Nat := none
  deriving DecidableEq, Repr

/-- One camp channel (R161 to R190): the DIMMs that T1 found, training progress, failures, centring, self-refresh,
re-initialisation tries. -/
structure CampCh where
  spd : List DimmSpd := []
  stage : Nat := 0
  dimm : Nat := 0
  group : Nat := 0
  retried : Bool := false
  failed : List Nat := []
  reinit : Bool := false
  selfRef : Bool := false
  hotDimms : List Nat := []
  deriving DecidableEq, Repr

/-- The camp tier: channels, subchannel queues (channel × 2 + subchannel), open rows by bank, ranks (channel × 16 +
rank), banks (the bank number of RFG_TOKEN), write centring since, ranks whose
remaining centring slices take rank 1 and the end of the slice that runs on a rank (R186), whistles raised since (not yet
logged), retired frames (camp frame numbers) with the rows they hold lines of, rows pending repair, moves off retired frames
(slab, new frame), retired channels, the map in use (channels live). -/
structure Camp where
  ch : Tab CampCh := []
  q : Tab SubQ := []
  open_ : Tab Nat := []
  rank : Tab RankSt := []
  bank : Tab BankSt := []
  centring : Tab Nat := []
  urgent : List Nat := []
  slice : Tab Nat := []
  raised : Tab Nat := []
  whistle : List CampPort := []
  retired : Tab (List Nat) := []
  permanent : List Nat := []
  pendingRows : List Nat := []
  lastingRows : Nat := 0
  moves : Tab Nat := []
  gone : List Nat := []
  liveMap : List Nat := [0, 1, 2, 3, 4, 5, 6, 7, 8, 9, 10, 11, 12, 13, 14, 15]
  /-- DDR5 commands issued (the model's record): subchannel and command name -/
  issued : List (Nat × DdrCmd) := []
  deriving DecidableEq, Repr

/-! ## Valley and cairn (7) -/

/-- A programmed valley page (Table 7-6): kind, the slab it holds or its position within its structure, its bytes other
than 0 by offset, its poisoned lines, write sequence, ROPED and SEALED; `parity`: it is the parity page of its stripe. -/
structure Page where
  kind : Nat
  slab : Nat := 0
  data : List Host.Cell := []
  poison : List Nat := []
  seq : Nat := 0
  roped : Bool := false
  sealed_ : Bool := false
  parity : Bool := false
  deriving DecidableEq, Repr

/-- A durable translation entry: what a journal record or a checkpoint holds (R216). -/
structure DurEntry where
  unw : Bool
  roped : Bool
  sealed_ : Bool
  pois : Bool
  pin : Bool
  vloc : Option Nat
  deriving DecidableEq, Repr

/-- A journal record (R216): 1 a slab's new entry (none: UNWRITTEN), 2 the block that holds a segment's newest image, 3 a block
retired, 4 a die failed. -/
inductive JRec where
  | entry (slab : Nat) (e : Option DurEntry)
  | image (seg block : Nat)
  | retired (block : Nat)
  | dieFailed (die : Nat)
  deriving DecidableEq, Repr

/-- A programmed journal page (R216): its sequence, the number of its first record, its records. -/
structure JPage where
  seq : Nat
  first : Nat
  recs : List JRec
  deriving DecidableEq, Repr

/-- A segment image (R217): its segment, the number of the last record that it holds, its entries. -/
structure SegImage where
  seg : Nat
  seq : Nat
  entries : Tab DurEntry
  deriving DecidableEq, Repr

/-- What a table-log record sets or deletes (R218): the rows of the tables 1 to 10. -/
inductive TVal where
  | object (o : Obj) (next : Nat) | region (r : Region) | group (g : Group) | topo (t : Topo) | step (l : List (Nat × Nat × Nat))
  | queue (q : Queue) | work (b : Bytes) | tag (b : TagB) | marker (m : Nat) | head (h used : Nat)
  deriving DecidableEq, Repr

/-- A table-log record with its continuation records (R218): the sequence of the first, table, key, whether it deletes, the
row. -/
structure TRec where
  seq : Nat
  tbl : Nat
  key : Nat
  del : Bool := false
  val : TVal
  deriving DecidableEq, Repr

/-- A programmed table-log page (R218). -/
structure TPage where
  seq : Nat
  first : Nat
  recs : List TRec
  deriving DecidableEq, Repr

/-- A table image (R218): the record sequence at which it was taken, and every table entry as a set record. -/
structure TImage where
  seq : Nat
  recs : List TRec
  deriving DecidableEq, Repr

/-- An erase-intent record (R219), with whether its erase-done record is programmed. -/
structure Intent where
  block : Nat
  reason : Nat
  seq : Nat
  done : Bool := false
  deriving DecidableEq, Repr

/-- What a page program in flight writes (Table 7-6): a destaged slab, a page relocated for its slab from another place,
the parity of a stripe (key page index × 32 + die position). -/
inductive ProgKind where
  | destage (slab : Nat) (pg : Page)
  | relocate (slab frm : Nat) (pg : Page)
  | parity (stripe : Nat)
  deriving DecidableEq, Repr

/-- Work of a die (R203): a read at one of the ranks 1 to 3, a program, an erase. -/
inductive DieWork where
  | read (rank vloc : Nat) | prog (vloc : Nat) | erase (block : Nat)
  deriving DecidableEq, Repr

/-- A die (chip position `channel × 32 + position`): failed; times of block retirements;
program times of the last 1,024 programs and erase times of the last 256 erases, percent of baseline (Table 7-5); its
erases and programs; by hour, codeword reads and those at L2 or above; bits corrected at L0 (R202); the work in progress and
the work that waits, oldest first; the oldest program or erase that waits has moved up to rank 2 (R203); suspends of the
operation in progress (R204); indicators past their warn and act levels. -/
structure Die where
  failed : Bool := false
  retired : List Nat := []
  progPct : List Nat := []
  erasePct : List Nat := []
  erases : Nat := 0
  progs : Nat := 0
  hist : Tab (Nat × Nat) := []
  bits0 : Nat := 0
  run : Option DieWork := none
  wait : List DieWork := []
  raised : Bool := false
  suspends : Nat := 0
  warned : List Nat := []
  deriving DecidableEq, Repr

/-- A block (block address, R197): erase count, retired, being retired, codeword reads at L2 or above, L4 rebuilds in this
verify pass, erase intent outstanding, erased. -/
structure Block where
  erases : Nat := 0
  retired : Bool := false
  retiring : Bool := false
  soft : Nat := 0
  l4 : Nat := 0
  intent : Option Nat := none
  erased : Bool := true
  deriving DecidableEq, Repr

/-- An open stripe (R199): channels whose page is programmed, time of the first, the running parity, and whether it closes as
soon as the programs under way in it end. -/
structure Stripe where
  pages : List Nat := []
  openedAt : Nat := 0
  sum : Page := { kind := 0 }
  closing : Bool := false
  deriving DecidableEq, Repr

/-- The valley root record (Table 7-7). -/
structure Root where
  seq : Nat
  identity : Nat := 0
  dir : Nat := 0
  jrnlFirst : Nat := 0
  jrnlBlocks : Nat := 0
  intentSet : Nat := 0
  bivFirst : Nat := 0
  bivBlocks : Nat := 0
  lastReplayed : Nat := 0
  logFirst : Nat := 0
  stop : Nat := 0
  rangeGib : Nat := 0
  budgetGib : Nat := 0
  tblFirst : Nat := 0
  tblBlocks : Nat := 0
  imgSlot : Nat := 0
  imgSeq : Nat := 0
  failedDies : List Nat := []
  deriving DecidableEq, Repr

/-- One slab written by a bivouac: index entry and data page (Table 7-8). -/
structure BivSlab where
  slab : Nat
  roped : Bool
  sealed_ : Bool
  pois : Bool
  page : Option Page
  deriving DecidableEq, Repr

/-- The bivouac region (R220): header, index with data pages, and the slabs written that the trailer gives (none: no trailer). -/
structure Bivouac where
  seq : Nat
  cause : Nat
  identity : Nat := 0
  stamp : Nat := 0
  cycle : Nat := 0
  budgetGib : Nat := 0
  jrnl : Nat := 0
  slabs : List BivSlab := []
  trailer : Option Nat := none
  deriving DecidableEq, Repr

/-- The valley tier: programmed pages by VLOC, programs in flight, torn pages, write sequence, dies, blocks, open stripes; the
population found (device, profile, chip enables, dies per chip enable); the root, its copies by channel with their block, the
block in use and its pages; the open journal page with the time of its first record, the next page sequence and record number,
the journal ring, segment images by first page, checkpoint directory as it stands and as it was last rewritten, and the
durable entries that they give; the open table-log page with its time, the tickets that wait with their last record, the next
record and page, the log, the image slots, the tables as last logged and as last programmed; the erase-intent sets and the
current one; bivouac region; blocks that reads and promotions hold (R207); channel re-initialisation failures, pages still to
be rebuilt from failed dies; verify pass: its start, its period in days, pages read. -/
structure Valley where
  pages : Tab Page := []
  progs : Tab ProgKind := []
  torn : List Nat := []
  wseq : Nat := 0
  dies : Tab Die := []
  blocks : Tab Block := []
  stripes : Tab Stripe := []
  dev : Option NandDev := none
  prof : Option NandProfile := none
  ces : Nat := 0
  perCe : Nat := 0
  root : Option Root := none
  rootBad : Bool := false
  rootMedia : Tab (List (Nat × Root)) := []
  rootBlk : Nat := 0
  rootPages : Nat := 0
  jopen : List JRec := []
  jrnlSince : Option Nat := none
  jseq : Nat := 1
  jnext : Nat := 1
  jrnl : List JPage := []
  images : Tab SegImage := []
  dir : Tab Nat := []
  dirMedia : Tab Nat := []
  dirSeq : Nat := 0
  entries : Tab DurEntry := []
  topen : List TRec := []
  tlogSince : Option Nat := none
  tlogTickets : List (Nat × Nat) := []
  tnext : Nat := 1
  tpage : Nat := 1
  tlog : List TPage := []
  timages : Tab TImage := []
  tseen : Tables := {}
  tables : Tables := {}
  intents : Tab (List Intent) := []
  intentSeq : Nat := 0
  biv : Option Bivouac := none
  bivSeq : Nat := 0
  /-- reads served from the valley: block, connection, MSN -/
  held : List (Nat × Nat × Nat) := []
  /-- promotions whose page was relocated under them: slab, block -/
  moved : List (Nat × Nat) := []
  chFails : Tab (List Nat) := []
  rebuild : List Nat := []
  verifyAt : Nat := 0
  verifyDays : Nat := 7
  verified : List VerifyPage := []
  opWarned : Bool := false
  deriving DecidableEq, Repr

/-- Settings a configuration copy holds (Table 7-10, R472): the saved register fields and tables. -/
structure CfgCopy where
  seq : Nat
  committed : Bool
  regs : Tab Nat
  ids : Tab Ident
  opKey : Option Bytes
  custKey : Option Bytes
  /-- root blobs by index (R273) -/
  roots : Tab Bytes
  route : Tab (Option Nat)
  bootPref : Nat
  deriving DecidableEq, Repr

/-- A firmware bank (Table 10-5): its commit row, and the facts of its header. -/
structure Bank where
  committed : Bool := false
  secVersion : Nat := 0
  build : Nat := 0
  deriving DecidableEq, Repr

/-- The cairn (R223 to R227, R390, R436): sector erase counts, remapped sectors, banks, configuration copies, flush
images, rows programmed (the power-cycle counter ring among them), last status, and what must survive a stop. -/
structure Cairn where
  erases : Tab Nat := []
  remapped : List Nat := []
  rows : Tab Bytes := []
  bankA : Bank := {}
  bankB : Bank := {}
  cfg0 : Option CfgCopy := none
  cfg1 : Option CfgCopy := none
  inForce : Nat := 0
  images : List FlushImage := []
  /-- sectors in which a program or erase no longer succeeds, with no spare left for them (R225) -/
  weak : List Nat := []
  lastFlush : Option Nat := none
  status : Nat := 0
  wearOut : List Nat := []
  lowWarned : Bool := false
  epoch : Nat := 0
  role : Nat := 0
  inSync : Bool := true
  ropeMap : Option (List Nat) := none
  retiredCh : List Nat := []
  /-- the pending-repair list: rows with their frames (R191) -/
  pendingRows : Tab (List Nat) := []
  bootPref : Nat := 0
  deriving DecidableEq, Repr

/-! ## Codes, poison, scrub (8) -/

/-- Fault counting windows (R244, Table 8-11): camp corrections as (key, code word or symbols, time) by unit kind. -/
structure FaultWin where
  /-- corrections of a code word that a write or write-back had made clean, by CPA: times; and the words corrected and not
  yet made clean -/
  word : Tab (List Nat) := []
  stale : List Nat := []
  /-- row key → (code word, time) -/
  row : Tab (List (Nat × Nat)) := []
  /-- device key (rank, subchannel, nibble) → (row, code word, symbols, time) -/
  dev : Tab (List (Nat × Nat × Nat × Nat)) := []
  /-- rank key → (nibble, symbols, time) -/
  rank : Tab (List (Nat × Nat × Nat)) := []
  /-- rank key → time of the last centring this window started -/
  rankAt : Tab Nat := []
  /-- SRAM word key → times -/
  sram : Tab (List Nat) := []
  deriving DecidableEq, Repr

/-- Codes and scrub: marked devices by rank and subchannel key with the DIMM serial, windows, soft map, patrol position
and pass start, frames lost to a bad translation group, and lines waiting. -/
structure Codes where
  marked : Tab (Nat × Nat) := []
  win : FaultWin := {}
  soft : List Nat := []
  disabled : List Nat := []
  patrol : Nat := 0
  passAt : Nat := 0
  /-- SCRUB_H of the pass that runs (R251) -/
  passH : Nat := 12
  /-- the pass is more than 10 % behind its schedule (R246) -/
  late : Bool := false
  /-- lines under repair (R237), with the source asked: 2 valley page, 3 line fetch, 4 repair fetch, 5 catch-up (R331) -/
  repairing : Tab Nat := []
  /-- lines whose code word is being read for a narrow write (R239) -/
  merges : List Nat := []
  lostFrames : List Nat := []
  deriving DecidableEq, Repr

/-! ## Summit (9) -/

/-- A valid summit line: its line number (set and tag), dirty and poison bits. -/
structure SumLine where
  line : Nat
  dirty : Bool := false
  poison : Bool := false
  deriving DecidableEq, Repr

/-- A walk over the ways (R261, R266): the way, and whether it locks or powers down. -/
inductive Walk where
  | lock (way : Nat) | off (way : Nat) (ticket : Option Nat)
  deriving DecidableEq, Repr

/-- Summit: lines by slot (set × 16 + way), pseudo-LRU bits by set (bit i is b_i), locked runs by object (first way,
ways), LOCK_WAYS being raised to, walks waiting in order, fills in progress (line → slot), dirty evictions in progress
(line), lines waiting. -/
structure Summit where
  lines : Tab SumLine := []
  plru : Tab Nat := []
  runs : Tab (Nat × Nat) := []
  raising : Option Nat := none
  walks : List Walk := []
  fills : Tab Nat := []
  evicting : Tab Nat := []
  stopped : Bool := false
  deriving DecidableEq, Repr

/-! ## Keys and check values (10) -/

/-- A loaded root (R272): kind (1 content, 2 session), ID, its blob; `key = none` while it must be unwrapped again. -/
structure RootKey where
  kind : Nat
  id : Nat
  key : Option Bytes
  deriving DecidableEq, Repr

/-- State of a key slot (Table 10-3). -/
inductive SlotSt where
  | bound | exhausted
  deriving DecidableEq, Repr

/-- A key slot that is not FREE (Table 10-3). `rootKey`: the root key that the stored key was derived from; `keyLost`: the
stored key must be derived again. -/
structure KeySlot where
  st : SlotSt := .bound
  title : Bool
  root : Nat
  label : Bytes
  limit : Nat
  auto : Bool
  genMax : Nat
  out : Nat := 0
  in_ : Nat := 0
  resv : Nat := 0
  decrypts : Nat := 0
  tagFails : Nat := 0
  users : Nat := 1
  rootKey : Bytes := []
  keyLost : Bool := false
  deriving DecidableEq, Repr

/-- A check-value context (R300). -/
structure CvuCtx where
  width : Nat := 32
  poly : Nat := 0x1EDC6F41
  init : Nat := 0xFFFFFFFF
  refin : Bool := true
  refout : Bool := true
  xorout : Nat := 0xFFFFFFFF
  preset : Nat := 1
  chained : Bool := false
  owner : Nat := 0
  value : Nat := 0xFFFFFFFF
  result : Nat := 0
  busy : Bool := false
  deriving DecidableEq, Repr

/-- A change of a check-value context that waits (R303, R475): for the CHECK that uses it, or for the Second to apply its
order record `idx`. It is the values of CVU_CONTEXT_SET, with the command that waits (`ticket`), or a window write
(`raw`: offset, data). -/
structure CtxWait where
  ctx : Nat
  ticket : Option Nat := none
  idx : Nat := 0
  nums : List Nat := []
  raw : Option (Nat × Bytes) := none
  deriving DecidableEq, Repr

/-- What waits for the cipher engine (R281). -/
inductive CipherUse where
  | title (conn msn unit : Nat) | unseal (ticket unit : Nat)
  deriving DecidableEq, Repr

/-- A cipher request: slot and use. -/
structure CipherReq where
  slot : Nat
  use : CipherUse
  deriving DecidableEq, Repr

/-- Cipher engine and check-value units: roots, blobs stored, slots, request queue, pipelines and units out of use, last
passing self-test, contexts, and the changes of contexts that wait. -/
structure Keys where
  roots : Tab RootKey := []
  blobs : Tab Bytes := []
  slots : Tab KeySlot := []
  queue : List CipherReq := []
  pipesOut : List Nat := []
  unitsOut : List Nat := []
  pipePass : Tab Nat := []
  unitPass : Tab Nat := []
  ctx : Tab CvuCtx := []
  ctxWait : List CtxWait := []
  deriving DecidableEq, Repr

/-! ## Rope (11) -/

/-- One rope instance (R315, R316): up, next frame to send, next frame expected, frames held, retries, timer. -/
structure RopeInst where
  up : Bool := false
  lanes : Nat := 0
  tx : Nat := 0
  rx : Nat := 0
  held : List RopeFrame := []
  retry : Nat := 0
  timer : Option Nat := none
  deriving DecidableEq, Repr

/-- The rope team (11): epoch and role records are kept in the cairn; here the running state of both roles. -/
structure Rope where
  inst : Tab RopeInst := []
  helloAt : Option Nat := none
  peer : Option Hello := none
  /-- frames dropped for a lower epoch (R304) -/
  oldEpoch : Nat := 0
  index : Nat := 0
  confirmed : Nat := 0
  applied : Nat := 0
  release : Nat := 0
  /-- records whose response waits for its host's ACK; they hold the release mark (Table 11-5) -/
  held : Tab OrderRec := []
  /-- records that the Second has not confirmed -/
  sent : Tab OrderRec := []
  /-- frames of a rope with no instance up, for the next instance that comes up (R316) -/
  stash : List RopeBody := []
  payload : Tab Bytes := []
  recs : Tab OrderRec := []
  /-- the state transfer has been taken (R330, R460) -/
  joined : Bool := false
  queue : List (Nat × Nat) := []
  fillAt : Tab Nat := []
  /-- indices whose payload came by FILL_DATA, or whose fill has been asked for -/
  filled : List Nat := []
  renewSeq : Nat := 0
  renewAt : Tab Nat := []
  /-- when the last departure was sent (R505) -/
  departAt : Option Nat := none
  leaseEnd : Option Nat := none
  expiry : Option Nat := none
  guard : Option Nat := none
  fenced : Bool := false
  bitmap : List Nat := []
  oldMap : List Nat := []
  ivRes : Tab Nat := []
  /-- slabs sent by catch-up so far and in all -/
  sentN : Nat := 0
  /-- the digest list of a Second that joins, or comes back, asks for the catch-up (R331) -/
  copyDue : Bool := false
  /-- HOLDOFF_S when the team last became ROPED (R341) -/
  holdoff : Nat := 60
  catchBuf : List (Nat × Bytes × List Nat × Nat) := []
  /-- the catch-up's end was received and waits for the slabs to be installed -/
  doneDue : Bool := false
  /-- HANDOVER waits for the commands in progress (R334) -/
  handDue : Bool := false
  digests : List (Nat × Bytes) := []
  titles : List Nat := []
  fetches : List (Fetch × Nat) := []
  /-- 1 MiB groups whose lost slabs the Lead has asked back (R331), at the Second until it has applied every record -/
  recopy : List Nat := []
  repairAt : Tab Nat := []
  returns : List Nat := []
  /-- a self-driven return of this twin is in progress -/
  returnReq : Bool := false
  handover : Option Nat := none
  handoverTicket : Option Nat := none
  hold : Tab Nat := []
  lastWord : Option Nat := none
  roped : Option Nat := none
  /-- publishes that wait for the Second's check: object, ticket, tries -/
  pubs : List (Nat × Nat × Nat) := []
  deriving DecidableEq, Repr

/-! ## The state -/

/-- The state of the block. `regs` holds every register field that differs from its reset value, by the key of
`Reg.Fld`; `free` is the model's own counter of free values (log entry 3); `pending` is the command queue. -/
structure State where
  pending : List Instr := []
  timebase : Nat := 0
  free : Nat := 0
  regs : Tab Nat := []
  fuse : Tab Nat := []
  pins : Pins := {}
  fab : Fab := {}
  seq : Seq := {}
  thm : Thermal := {}
  start : Start := {}
  ladder : Ladder := {}
  log : Logbook := {}
  plog : Tab PitchLog := []
  nq : Tab Nq := []
  route : Tab (Option Nat) := []
  mgmt : Mgmt := {}
  i3c : I3c := {}
  cmd : Cmd := {}
  ids : Tab Ident := []
  port : Port := {}
  conns : Tab Conn := []
  connGen : Tab Nat := []
  ops : OpsSt := {}
  tables : Tables := {}
  range : Range := {}
  camp : Camp := {}
  val : Valley := {}
  cairn : Cairn := {}
  code : Codes := {}
  sum : Summit := {}
  key : Keys := {}
  rope : Rope := {}
  deriving DecidableEq, Repr

/-- The machine right after reset: PD0 has just powered up, at start stage 1, with nothing else begun; unprogrammed
fuses read 0 (R344). Every register holds its reset value (log entry 2 where the spec gives none). -/
def State.reset : State := {}

end Sys2Proof.Machine
end

