-- ==== Sys2Proof/Machine/Ops.lean ====
section
/-! DEFINITION. The operations that every block shares: register fields, time, free values, MSI-X, notification queues,
pitch logs and the logbook. -/

namespace Sys2Proof.Machine

/-- The outcome of every step in this model. -/
abbrev Out := Host.Outcome State Fault Refusal

/-- One byte of the range: 0 where nothing is listed (R127). -/
def memGet : List Host.Cell → Nat → Byte
  | [], _ => 0
  | (k, b) :: t, a => if k = a then b else memGet t a

/-- Writes one byte, keeping the canonical form: addresses rising, no byte 0 listed. -/
def memSet : List Host.Cell → Nat → Byte → List Host.Cell
  | [], a, b => if b = 0 then [] else [(a, b)]
  | (k, c) :: t, a, b =>
    if a < k then (if b = 0 then (k, c) :: t else (a, b) :: (k, c) :: t)
    else if a = k then (if b = 0 then t else (a, b) :: t)
    else (k, c) :: memSet t a b

/-- The canonical list of the same bytes; a canonical list is left as it is. -/
def memCanon (m : List Host.Cell) : List Host.Cell := m.foldr (fun c acc => memSet acc c.1 c.2) []

/-- eFuse words only rise: a programmed fuse stays programmed (R270, R296). -/
def fuseKeep (old new : Tab Nat) : Tab Nat := old.foldl (fun acc x => tset acc x.1 (max x.2 (tcnt acc x.1))) new

/-- The state after a command: the command queue is as the step left it, the range is in canonical form, and no fuse has
gone back. -/
def commit (s t : State) : State :=
  { t with pending := s.pending, fuse := fuseKeep s.fuse t.fuse, range.mem := memCanon t.range.mem }

/-- Answers `t` when the command is well formed (`b`), else the fault of a command that names no unit of the part. -/
def needs (b : Bool) (s t : State) : Out := if b then .next (commit s t) else .fault .noSuchUnit

/-! ## Register fields -/

/-- The value of a register field (unlisted: its reset value), as wide as the field. -/
def getF (s : State) (f : Reg.Fld) : Nat := (tget s.regs f.key).getD f.reset % 2 ^ f.w

/-- Writes a register field, cut to its width. The table keeps one form: a field at its reset value is not listed. -/
def setF (s : State) (f : Reg.Fld) (v : Nat) : State :=
  { s with regs := if v % 2 ^ f.w = f.reset then tdel s.regs f.key else tset s.regs f.key (v % 2 ^ f.w) }

/-- Whether a one-bit field is set. -/
def isSet (s : State) (f : Reg.Fld) : Bool := getF s f != 0

/-- Sets or clears a one-bit field. -/
def setB (s : State) (f : Reg.Fld) (b : Bool) : State := setF s f (if b then 1 else 0)

/-- Raises a counter field, saturating at its width. -/
def bumpF (s : State) (f : Reg.Fld) (k : Nat := 1) : State := setF s f (satAdd (getF s f) k (2 ^ f.w - 1))

/-- Bit `n` of a bit-map field. -/
def bitF (s : State) (f : Reg.Fld) (n : Nat) : Bool := bit (getF s f) n

/-- Sets bit `n` of a bit-map field. -/
def putF (s : State) (f : Reg.Fld) (n : Nat) (b : Bool) : State := setF s f (putBit (getF s f) n b)

/-! ## Time and free values -/

/-- Time passes to `t` at the latest (R29: the timebase never runs back). -/
def reach (s : State) (t : Nat) : State := { s with timebase := max s.timebase t }

/-- The next free value (log entry 3). -/
def freeVal (s : State) : Nat := Config.freeValue s.free

/-- The free value has been used. -/
def useFree (s : State) : State := { s with free := s.free + 1 }

/-! ## Straps and roles -/

/-- SEQ_STATUS.STATE values (Table 12-9). -/
abbrev stOff : Nat := 0
abbrev stStarting : Nat := 1
abbrev stService : Nat := 2
abbrev stStopping : Nat := 3
abbrev stBivouac : Nat := 4
abbrev stReplay : Nat := 5
abbrev stTest : Nat := 6
abbrev stRecovery : Nat := 7
abbrev stDown : Nat := 8

/-- The sequencer's state. -/
def seqState (s : State) : Nat := getF s Reg.seqStatusState

/-- Sets the sequencer's state. -/
def setSeqState (s : State) (v : Nat) : State := setF s Reg.seqStatusState v

/-- Service is open: stage 12 of FAB_START_STATUS (Table 17-8) with the sequencer in service or stopping. -/
def serviceOpen (s : State) : Bool := getF s Reg.fabStartStatusStage == 12

/-- The part is in bivouac, or its rails go down: no work starts (Table 12-3, R354). -/
def powerStops (s : State) : Bool := seqState s == stBivouac || s.seq.down.isSome

/-- Numbers from `a` to `b - 1`. -/
def span (a b : Nat) : List Nat := (List.range (b - a)).map (a + ·)

/-- Whether power domain `d` is on (R41); PD0 always is. -/
def domOn (s : State) (d : Nat) : Bool := d == 0 || bitF s (Reg.fabPdStatusMap (d / 64)) (d % 64)

/-- Shows domain `d` on or off. -/
def setDom (s : State) (d : Nat) (b : Bool) : State := putF s (Reg.fabPdStatusMap (d / 64)) (d % 64) b

/-- Power-ups in the last 10 µs, oldest first (R40). -/
def recentUps (s : State) : List Nat := s.fab.ups.filter fun t => decide (s.timebase < t + us 10)

/-! ## Fuses (log entry 55) -/

/-- The fused grade (R1), stepping, serial number (Table 18-6) and security counter (R296). -/
def fuseGrade (s : State) : Nat := tcnt s.fuse 65
def fuseStepping (s : State) : Nat := tcnt s.fuse 66
def fuseSerial (s : State) : Nat := tcnt s.fuse 67 % 2 ^ 64
def fuseSecCounter (s : State) : Nat := tcnt s.fuse 68 % 2 ^ 32

/-! ## MSI-X (R477) -/

/-- Word `k` of MSI-X table entry `v`; every entry is masked until it is written (log entry 7). -/
def msixWord (s : State) (v k : Nat) : Nat := (tget s.mgmt.msix (4 * v + k)).getD (if k = 3 then 1 else 0)

/-- Sends vector `v`: nothing while Bus Master Enable or MSI-X Enable is clear; a pending bit while it is masked. -/
def sendVector (s : State) (v : Nat) : State :=
  if s.mgmt.busMaster && s.mgmt.msixEn then
    if bit (msixWord s v 3) 0 then { s with mgmt.pba := putBit s.mgmt.pba v true }
    else { s with mgmt.sent := s.mgmt.sent ++ [(msixWord s v 0 + msixWord s v 1 * 2 ^ 32, msixWord s v 2)] }
  else s

/-- The mailbox vector of R477. -/
def mbxVector (s : State) : State :=
  if isSet s Reg.mbxIntCfgEn then sendVector s (getF s Reg.mbxIntCfgVector) else s

/-! ## Log sources (Table 15-1) -/

abbrev srcSeq : Nat := 0
abbrev srcThm : Nat := 1
abbrev srcFab : Nat := 2
def srcPort (p : Nat) : Nat := 3 + p
abbrev srcRope : Nat := 11
abbrev srcTmt : Nat := 12
abbrev srcOps : Nat := 13
abbrev srcRange : Nat := 14
abbrev srcSum : Nat := 15
def srcCamp (ch : Nat) : Nat := 16 + ch
def srcValley (ch : Nat) : Nat := 32 + ch / 8
abbrev srcCairn : Nat := 36
abbrev srcKey : Nat := 37
abbrev srcCvu : Nat := 38
abbrev srcMgmt : Nat := 39
abbrev srcLog : Nat := 0xF0
/-- No source unit (Table 15-3). -/
abbrev noUnit : Nat := 0xFF

/-- The event's place among the model's event names. -/
def Ev.idx (e : Ev) : Nat := e.ctorIdx

/-- Event code of Table 15-3: [15:8] source, [7:0] event; the logbook's own records have the codes of Table 15-4. -/
def evCode (src : Nat) (e : Ev) : Nat :=
  if e.idx < 8 then 0xF001 + e.idx else src * 256 + Config.eventNumber e.idx % 256

/-- Severity: Table 15-4 for the logbook's own records, open for the others (log entry 4). -/
def evSeverity (e : Ev) : Nat :=
  match e with
  | .timeMark => 0
  | .logFull => 2
  | .logCleared => 1
  | .recordLost => 2
  | .startOverflow => 2
  | .queueReset => 2
  | .restart => 1
  | .freezeGap => 0
  | e => Config.severity e.idx % 5

/-! ## Pitch logs (R410 to R413) -/

/-- The stamp of Table 15-2: hours in 1/4,096 h, and the power-cycle count. -/
def stampNow (s : State) : Nat := s.log.hours % 2 ^ 36 + getF s Reg.idBootCount / 256 * 2 ^ 36

/-- A pitch log. -/
def plogOf (s : State) (n : Nat) : PitchLog := (tget s.plog n).getD {}

/-- Appends a record to a ring of 256; the oldest goes when it is full. -/
def ringAdd (l : PitchLog) (r : PitchRec) : PitchLog :=
  { l with recs := (if l.recs.length < 256 then l.recs else l.recs.drop 1) ++ [r], slot := (l.slot + 1) % 256 }

/-- Records an event in pitch log `n`; a frozen log only counts it as missed (R413). -/
def plogAdd (s : State) (n : Nat) (e : Ev) (detail : List Nat) (logged : Bool) : State :=
  let l := plogOf s n
  let l' := if l.frozen then { l with missed := satAdd l.missed 1 65535 }
    else ringAdd l ⟨stampNow s, n, e, logged, detail⟩
  { s with plog := tset s.plog n l' }

/-- The committed flush images; one without a commit row is absent (R226). -/
def flushImages (s : State) : List FlushImage := s.cairn.images.filter (·.committed)

/-! ## The logbook (R415 to R418) -/

/-- Logical page `k` of 255 records is programmed into the ring of 1,024 pages of the logbook area (R221). -/
def Logbook.program (l : Logbook) (k : Nat) : Logbook :=
  let p : LogPage := { page := k, seq := l.pageSeq, first := (((l.recs.drop (k * 255)).head?).map (·.seq)).getD l.next,
                       recs := (l.recs.drop (k * 255)).take 255 }
  let a := l.area ++ [p]
  { l with area := a.drop (a.length - 1024), pageSeq := l.pageSeq + 1, changed := false }

/-- A record is appended under the next sequence number; a page that it fills is programmed (R221). -/
def Logbook.append (l : Logbook) (r : LogRec) : Logbook :=
  let l := { l with recs := l.recs ++ [{ r with seq := l.next }], next := l.next + 1, changed := true,
                    sinceMark := if r.ev = .timeMark then l.sinceMark else true }
  if l.recs.length % 255 = 0 then l.program (l.recs.length / 255 - 1) else l

/-- Replaces the last record. -/
def Logbook.setLast (l : Logbook) (r : LogRec) : Logbook := { l with recs := l.recs.dropLast ++ [r], changed := true }

/-- Raises a record's repeat count under the saturation rule of R416. -/
def LogRec.again (r : LogRec) : LogRec := if r.rep < 65535 then { r with rep := r.rep + 1 } else { r with sat := true }

/-- Whether an event repeats a record (R416). -/
def LogRec.same (r : LogRec) (src : Nat) (e : Ev) (unit : Nat) (detail : List Nat) : Bool :=
  r.src == src && r.ev == e && r.unit == unit && r.detail == detail

/-- Drops a record after LOG_FULL (R418): DROPPED rises and LOG_FULL's dropped count follows. -/
def logDrop (s : State) : State :=
  let s := bumpF s Reg.logStatusDropped
  match s.log.recs.getLast? with
  | some r => { s with log := s.log.setLast { r with detail := [r.seq + 1, getF s Reg.logStatusDropped] } }
  | none => s

/-- Puts an event into the logbook: start buffer before the valley scan (R422), repeat (R416), full (R418) or append.
Gives the record as posted (sequence number 0 where none was given) and whether a repeat absorbed it. -/
def logPut (s : State) (src : Nat) (e : Ev) (unit : Nat) (detail : List Nat) (posted : Bool) : State × LogRec × Bool :=
  let r : LogRec := { seq := 0, src := src, ev := e, unit := unit, detail := detail, posted := posted }
  let l := s.log
  if ! l.loaded then
    (if l.start.length < 512 then { s with log.start := l.start ++ [r] }
     else { s with log.startLost := l.startLost + 1 }, r, false)
  else if isSet s Reg.logStatusFull then (logDrop s, r, false)
  else match l.recs.getLast? with
    | some last =>
      if last.same src e unit detail then
        ({ s with log := { l.setLast last.again with sinceMark := true } }, last, true)
      else if l.recs.length < 65535 then ({ s with log := l.append r }, { r with seq := l.next }, false)
      else
        let full : LogRec := { seq := 0, src := srcLog, ev := .logFull, unit := noUnit, detail := [l.next + 1, 0] }
        (logDrop (setB { s with log := l.append full } Reg.logStatusFull true), r, false)
    | none => ({ s with log := l.append r }, { r with seq := l.next }, false)

/-! ## Notification queues (R423 to R427) -/

/-- A queue's state. -/
def nqOf (s : State) (q : Nat) : Nq := (tget s.nq q).getD {}

/-- Replaces a queue's state; NQ_STATUSn.COUNT shows its entries. -/
def setNq (s : State) (q : Nat) (n : Nq) : State :=
  setF { s with nq := tset s.nq q n } (Reg.nqStatusCount q) n.ents.length

/-- Drops the oldest message of a queue: its first entry and the entries that continue it. -/
def dropMessage : List NqEntry → List NqEntry
  | [] => []
  | e :: t => if e.left = 0 then t else dropMessage t

/-- Drops whole messages from the oldest end until `k` entries fit in `depth`; gives the rest and the messages lost.
(`fuel` bounds the messages dropped.) -/
def makeRoom (depth k : Nat) : Nat → List NqEntry → List NqEntry × Nat
  | 0, es => (es, 0)
  | fuel + 1, es =>
    if es.length + k ≤ depth then (es, 0)
    else
      let r := makeRoom depth k fuel (dropMessage es)
      (r.1, r.2 + 1)

/-- The entries of a message: bodies in order, with the entries still to follow. -/
def mkEntries (num : Nat) (bodies : List NqBody) : List NqEntry :=
  (bodies.zipIdx).map fun (b, i) => ⟨num, bodies.length - 1 - i, b⟩

/-- The number after a message number, modulo 2^32 (Table 15-5). -/
def nextMsgNum (n : Nat) : Nat := (n + 1) % 2 ^ 32

/-- Messages in a queue: each has one entry with none to follow. -/
def Nq.messages (n : Nq) : Nat := n.ents.countP (·.left == 0)

/-- Every use of a queue compares its pointer copies: where they differ the queue is emptied, its messages are lost, and
QUEUE_RESET is appended (R427). Message numbers go on. -/
def nqCheck (s : State) (q : Nat) : State :=
  let n := nqOf s q
  if n.rdA = n.rdB ∧ n.wrA = n.wrB then s
  else
    let s := setNq s q { n with ents := [], rdA := 0, rdB := 0, wrA := 0, wrB := 0 }
    let s := bumpF (bumpF s (Reg.nqStatusLost q) n.messages) (Reg.nqStatusResets q)
    let s := (logPut s srcLog .queueReset noUnit [q, n.messages] false).1
    if n.messages = 0 then s else sendVector s (getF s (Reg.nqCfgVector q))

/-- Posts a message to queue `q` (R423, R426): with EN clear it takes its number and is counted in LOST; otherwise whole
messages leave from the oldest end until it fits. The vector is sent when the queue stops being empty or LOST rises. -/
def nqPost (s : State) (q : Nat) (bodies : List NqBody) : State :=
  let s := nqCheck s q
  let n := nqOf s q
  if ! isSet s (Reg.nqCfgEn q) then
    sendVector (bumpF (setNq s q { n with nextNum := nextMsgNum n.nextNum }) (Reg.nqStatusLost q))
      (getF s (Reg.nqCfgVector q))
  else
    let r := makeRoom (2 ^ getF s (Reg.nqCfgDepthLog2 q)) bodies.length n.ents.length n.ents
    let gone := n.ents.length - r.1.length
    let n' := { n with
      ents := r.1 ++ mkEntries n.nextNum bodies, nextNum := nextMsgNum n.nextNum,
      rdA := (n.rdA + gone) % 2 ^ 16, rdB := (n.rdB + gone) % 2 ^ 16,
      wrA := (n.wrA + bodies.length) % 2 ^ 16, wrB := (n.wrB + bodies.length) % 2 ^ 16 }
    let s' := setNq s q n'
    let s' := if r.2 = 0 then s' else bumpF s' (Reg.nqStatusLost q) r.2
    if n.ents.isEmpty || r.2 != 0 then sendVector s' (getF s (Reg.nqCfgVector q)) else s'

/-- The queue that a source's notifications go to; the reset assignment is NQ0 (R423). -/
def routeOf (s : State) (src : Nat) : Option Nat := (tget s.route src).getD (some 0)

/-- Posts a record as a notification to the queue of its source. -/
def notify (s : State) (src : Nat) (r : LogRec) : State :=
  match routeOf s src with
  | none => s
  | some q => nqPost s q [.notif r]

/-! ## Recording an event -/

/-- An event of source `src` that writes a logbook record (and, with `post`, posts a notification): it goes to its
pitch log, with its flag where the full logbook did not drop it (R411, R418), the logbook and, unless it repeats the last
record, its notification queue (R410, R416, R423). -/
def logEv (s : State) (src : Nat) (e : Ev) (unit : Nat) (detail : List Nat := []) (post : Bool := false) : State :=
  let p := logPut s src e unit detail post
  let s := if src < 40 then plogAdd p.1 src e detail (! s.log.loaded || p.2.1.seq != 0) else p.1
  if post && ! p.2.2 then notify s src p.2.1 else s

/-- An event that only its pitch log records. -/
def pitchEv (s : State) (src : Nat) (e : Ev) (detail : List Nat := []) : State := plogAdd s src e detail false

/-- The TIME_MARK detail: operating hours, power-cycle count, timebase (Table 15-4). -/
def markDetail (s : State) : List Nat := [s.log.hours, getF s Reg.idBootCount / 256, s.timebase]

/-- The sequence number of the newest record, low 32 bits (Table 14-11, DEVICE_FAULT). -/
def lastSeq (s : State) : Nat := (s.log.next - 1) % 2 ^ 32

end Sys2Proof.Machine
end

