-- ==== Sys2Proof/Machine/Operands.lean ====
section
/-! DEFINITION. Operand forms: packet headers and extensions (3), CRCs (10), the camp code (8), the camp address map
(6), command headers (14). -/

namespace Sys2Proof.Machine

/-! ## Packet types, flags and extensions (Tables 3-1 to 3-4) -/

abbrev tyRead : Nat := 0
abbrev tyWrite : Nat := 1
abbrev tyWritep : Nat := 2
abbrev tyAtomic : Nat := 3
abbrev tySend : Nat := 4
abbrev tyReadResp : Nat := 5
abbrev tyPush : Nat := 6
abbrev tyAck : Nat := 7
abbrev tyNak : Nat := 8
abbrev tyEvent : Nat := 9
abbrev tyMgmt : Nat := 10

abbrev exRange : Nat := 1
abbrev exAtomic : Nat := 2
abbrev exTrigger : Nat := 3
abbrev exNonce : Nat := 4
abbrev exPathAck : Nat := 5
abbrev exCompletion : Nat := 6
abbrev exPoison : Nat := 7
abbrev exLanding : Nat := 8
abbrev exEvent : Nat := 9
abbrev exNak : Nat := 10

/-- The first extension of a type. -/
def findExt (p : Pkt) (ty : Nat) : Option Ext := p.exts.find? (·.ty == ty)

/-- Word `k` (from 1) of an extension. -/
def extW (e : Ext) (k : Nat) : Nat := match e.ws[k - 1]? with
  | some v => v.toNat
  | none => 0

/-- A word of an extension. -/
def word (n : Nat) : BitVec 32 := BitVec.ofNat 32 n

/-- A range extension's facts: region key, range address, operation length. -/
structure RangeX where
  key : Nat
  addr : Nat
  len : Nat
  deriving DecidableEq, Repr

/-- The range extension of a packet (Table 3-4). -/
def rangeOf (p : Pkt) : Option RangeX :=
  (findExt p exRange).map fun e => ⟨extW e 1, extW e 2 % 65536 * 2 ^ 32 + extW e 3, extW e 4⟩

/-- An atomic extension's facts: operation (1 CAS64, 2 FADD64, 3 CAS128) and operands, as numbers. -/
structure AtomX where
  op : Nat
  a : Nat
  b : Nat
  deriving DecidableEq, Repr

/-- Words `k` to `k + n - 1` of an extension, in network order, as one number. -/
def extNum (e : Ext) (k : Nat) : Nat → Nat
  | 0 => 0
  | n + 1 => extNum e k n * 2 ^ 32 + extW e (k + n)

/-- The atomic extension of a packet: operands in network order (R100). -/
def atomOf (p : Pkt) : Option AtomX :=
  (findExt p exAtomic).map fun e =>
    let op := e.lo.toNat / 256
    if op = 3 then ⟨op, extNum e 1 4, extNum e 5 4⟩ else ⟨op, extNum e 1 2, extNum e 3 2⟩

/-- The operand size of an atomic: 8, or 16 for CAS128. -/
def atomSize (op : Nat) : Nat := if op = 3 then 16 else 8

/-- The words that Table 3-4 gives an extension of a known type. -/
def extWords (e : Ext) : Option Nat :=
  if e.ty = exRange then some 5 else if e.ty = exAtomic then some (if e.lo.toNat / 256 = 3 then 9 else 5)
  else if e.ty = exTrigger then some 1 else if e.ty = exNonce then some 4 else if e.ty = exPathAck then some 3
  else if e.ty = exCompletion then some 3 else if e.ty = exPoison then some 5 else if e.ty = exLanding then some 3
  else if e.ty = exEvent then some 4 else if e.ty = exNak then some 4 else none

/-- The chain of extensions adds up and holds no unknown type of 0x80–0xFF (R51). -/
def chainOk (p : Pkt) : Bool :=
  (p.exts.map (·.len)).sum == p.extLen &&
  p.exts.all fun e => e.ws.length + 1 == e.len &&
    (match extWords e with
     | some n => e.len == n
     | none => e.ty < 0x80 && e.ty != 0)

/-- The payload length that a chunk at this offset must have (R52). -/
def chunkLenOk (unit : Nat) (p : Pkt) : Bool :=
  if p.mlen = 0 then p.payload.isEmpty && p.off == 0 && p.first && p.last
  else p.off % unit == 0 && p.off < p.mlen &&
    (if p.off + unit < p.mlen then p.payload.length == unit && ! p.last
     else p.payload.length == p.mlen - p.off && p.last) &&
    (p.first == (p.off == 0))

/-- Number of extensions of a type. -/
def extCount (p : Pkt) (ty : Nat) : Nat := p.exts.countP (·.ty == ty)

/-- The extension set of a row of Table 3-3: each of `req` once, each of `opt` at most once, no other known type; a sealed
packet carries a nonce too (R72). Extensions of unknown type are skipped (R51). -/
def extSet (p : Pkt) (req opt : List Nat) : Bool :=
  let opt := if p.seald then exNonce :: opt else opt
  req.all (extCount p · == 1) && opt.all (fun t => decide (extCount p t ≤ 1)) &&
  p.exts.all fun e => (extWords e).isNone || req.contains e.ty || opt.contains e.ty

/-- The type's row of Table 3-3 for a packet from a host: direction, extension set, flags, payload. -/
def rowOk (p : Pkt) : Bool :=
  ! p.unseq && ! p.poison &&
  (if p.ty = tyRead then extSet p [exRange] [] && p.mlen == 0 && ! p.mgmt
   else if p.ty = tyWrite ∨ p.ty = tyWritep then extSet p [exRange] [] && ! p.mgmt
   else if p.ty = tyAtomic then
     extSet p [exRange, exAtomic] [] && p.mlen == 0 && ! p.mgmt &&
     (match atomOf p, rangeOf p with
      | some a, some r => decide (1 ≤ a.op ∧ a.op ≤ 3) && r.len == atomSize a.op && (a.op != 2 || a.b == 0)
      | _, _ => false)
   else if p.ty = tySend then extSet p [] [exTrigger] && ! p.mgmt
   else if p.ty = tyMgmt then extSet p [] [] && p.mgmt && ! p.seald
   else false)

/-- The malformed cases that Table 3-9 gives for LENGTH. -/
def lengthFault (p : Pkt) : Bool :=
  decide (p.mlen > 16777216) ||
  (match rangeOf p with
   | some r => (p.ty == tyRead && decide (r.len > 16777216)) ||
               ((p.ty == tyWrite || p.ty == tyWritep) && r.len != p.mlen)
   | none => false)

/-- The flags byte of Table 3-2. -/
def flagsOf (p : Pkt) : Nat :=
  p.first.toNat * 128 + p.last.toNat * 64 + p.ackReq.toNat * 32 + p.poison.toNat * 16 + p.mgmt.toNat * 8 +
  p.seald.toNat * 4 + p.check.toNat * 2 + p.unseq.toNat

/-- The base header's 24 bytes (Table 3-1, network order). -/
def headerBytes (p : Pkt) : Bytes :=
  beBytes 4 (2 * 2 ^ 28 + p.ty % 16 * 2 ^ 24 + flagsOf p * 2 ^ 16 + p.path % 4 * 2 ^ 14) ++
  beBytes 4 (p.extLen % 256 * 2 ^ 24 + p.conn % 2 ^ 24) ++ beBytes 4 (p.psn % 2 ^ 32) ++ beBytes 4 (p.msn % 2 ^ 32) ++
  beBytes 4 ((match p.exts with | [] => 0 | e :: _ => e.ty) % 256 * 2 ^ 24 + p.off % 2 ^ 24) ++ beBytes 4 (p.mlen % 2 ^ 25)

/-- An extension's bytes: next type, its length, its low half, its words (R51). -/
def extBytes (next : Nat) (e : Ext) : Bytes :=
  beBytes 4 (next % 256 * 2 ^ 24 + e.len % 256 * 2 ^ 16 + e.lo.toNat) ++ (e.ws.map fun w => beBytes 4 w.toNat).flatten

/-- The extension headers' bytes. -/
def extsBytes : List Ext → Bytes
  | [] => []
  | [e] => extBytes 0 e
  | e :: f :: t => extBytes f.ty e ++ extsBytes (f :: t)

/-- The TMT packet's bytes: base header, extension headers, payload, message check, tag (R45). -/
def tmtBytes (p : Pkt) : Bytes := headerBytes p ++ extsBytes p.exts ++ p.payload ++ p.chk ++ p.tag

/-- Sum of the 16-bit words of a byte string in network order, the last padded with a zero byte. -/
def sum16 : Bytes → Nat
  | [] => 0
  | [a] => a.toNat * 256
  | a :: b :: t => a.toNat * 256 + b.toNat + sum16 t

/-- The one's complement sum folded to 16 bits and complemented; 0 is sent as 65,535. -/
def fold16 (n : Nat) : Nat :=
  let a := n % 65536 + n / 65536
  let b := a % 65536 + a / 65536
  let c := b % 65536 + b / 65536
  if c = 65535 then 65535 else 65535 - c

/-- The UDP checksum of a packet that the part sends (R46): over the IPv4 or IPv6 pseudo-header, the UDP header with a zero
checksum, and the TMT packet. -/
def udpChecksum (p : Pkt) : Nat :=
  let b := tmtBytes p
  let n := 8 + b.length
  let addr := if p.src < 2 ^ 32 then 4 else 16
  let len := if p.src < 2 ^ 32 then 2 else 4
  fold16 (sum16 (beBytes addr p.dst ++ beBytes addr p.src ++ beBytes len n ++ beBytes 2 17 ++
    beBytes 2 p.sport ++ beBytes 2 p.dport ++ beBytes 2 n ++ [0, 0] ++ b))

/-- Additional authenticated data of a sealed packet (R72): Path and PSN zero. -/
def aadOf (p : Pkt) : Bytes := headerBytes { p with path := 0, psn := 0 } ++ extsBytes p.exts

/-- A NAK extension (Table 3-4). -/
def nakExt (code wait e msn detail : Nat) : Ext :=
  ⟨exNak, 4, BitVec.ofNat 16 (code * 256 + wait % 256), [word e, word msn, word detail]⟩

/-- A completion extension. -/
def compExt (status msn flags : Nat) : Ext := ⟨exCompletion, 3, BitVec.ofNat 16 status, [word msn, word flags]⟩

/-- A path-ack extension: next expected PSN, window packets and bytes. -/
def pathAckExt (e pk by_ : Nat) : Ext := ⟨exPathAck, 3, 0, [word e, word (pk % 512 * 2 ^ 23 + by_ % 2 ^ 21)]⟩

/-- An event extension. -/
def eventExt (code qual detail : Nat) : Ext :=
  ⟨exEvent, 4, BitVec.ofNat 16 code, [word qual, word (detail / 2 ^ 32), word detail]⟩

/-- A landing extension. -/
def landingExt (key off : Nat) : Ext := ⟨exLanding, 3, 0, [word key, word off]⟩

/-- A nonce extension: key slot and the 96-bit IV. -/
def nonceExt (slot iv : Nat) : Ext :=
  ⟨exNonce, 4, BitVec.ofNat 16 (slot % 4096), [word (iv / 2 ^ 64), word (iv / 2 ^ 32), word iv]⟩

/-- A poison-mask extension (W4 bit 0 is bit 0). -/
def poisonExt (mask : Nat) : Ext :=
  ⟨exPoison, 5, 0, [word (mask / 2 ^ 96), word (mask / 2 ^ 64), word (mask / 2 ^ 32), word mask]⟩

/-- A PSN ahead of another (R53). -/
def psnAhead (a b : Nat) : Bool := let d := (a + 2 ^ 32 - b) % 2 ^ 32; decide (1 ≤ d ∧ d < 2 ^ 31)

/-- A PSN behind another (R53). -/
def psnBehind (a b : Nat) : Bool := decide ((a + 2 ^ 32 - b) % 2 ^ 32 ≥ 2 ^ 31)

/-- The PSN after one. -/
def psnNext (a : Nat) : Nat := (a + 1) % 2 ^ 32

/-- The MSN `k` places after `a`, over 1 to 2^32 − 1 (R506). -/
def msnAdd (a k : Nat) : Nat := (a - 1 + k) % (2 ^ 32 - 1) + 1

/-- Distance from MSN `a` forward to `b` over the values 1 to 2^32 − 1 (R506). -/
def msnDist (a b : Nat) : Nat := (b + (2 ^ 32 - 1) - a) % (2 ^ 32 - 1)

/-- MSN `b` lies within the 256 that start at `a` (R61). -/
def msnInSpan (a b : Nat) : Bool := b != 0 && decide (msnDist a b < 256)

/-- MSN `b` lies before `a` (R61). -/
def msnBefore (a b : Nat) : Bool := b != 0 && decide (msnDist a b ≥ 2 ^ 31)

/-! ## CRCs (R297, Tables 10-6 and 10-7) -/

/-- Reflects the lowest `n` bits. -/
def reflect : Nat → Nat → Nat
  | 0, _ => 0
  | n + 1, v => v % 2 * 2 ^ n + reflect n (v / 2)

/-- One bit into the register. -/
def crcBit (w poly reg : Nat) (b : Nat) : Nat :=
  let top := reg / 2 ^ (w - 1) % 2
  let sh := reg * 2 % 2 ^ w
  if (top + b) % 2 = 1 then Nat.xor sh poly else sh

/-- The bits of a byte into the register, from bit `n - 1` down. -/
def crcBits (w poly : Nat) (x : Nat) : Nat → Nat → Nat
  | 0, reg => reg
  | n + 1, reg => crcBits w poly x n (crcBit w poly reg (x / 2 ^ n % 2))

/-- One byte into the register, least significant bit first when `refin`. -/
def crcByte (w poly : Nat) (refin : Bool) (reg : Nat) (x : Byte) : Nat :=
  crcBits w poly (if refin then reflect 8 x.toNat else x.toNat) 8 reg

/-- The register after the bytes. -/
def crcRun (w poly : Nat) (refin : Bool) (reg : Nat) (d : Bytes) : Nat := d.foldl (crcByte w poly refin) reg

/-- The result of R297 from a register. -/
def crcFinish (w : Nat) (refout : Bool) (xorout reg : Nat) : Nat :=
  Nat.xor (if refout then reflect w reg else reg) xorout

/-- Parameters of a preset (Table 10-7): width, polynomial, initial value, reflections, final XOR. -/
def crcPreset : Nat → Option (Nat × Nat × Nat × Bool × Bool × Nat)
  | 1 => some (32, 0x1EDC6F41, 0xFFFFFFFF, true, true, 0xFFFFFFFF)
  | 2 => some (64, 0x42F0E1EBA9EA3693, 0, false, false, 0)
  | 3 => some (64, 0x42F0E1EBA9EA3693, 2 ^ 64 - 1, true, true, 2 ^ 64 - 1)
  | 4 => some (32, 0x04C11DB7, 0xFFFFFFFF, true, true, 0xFFFFFFFF)
  | 5 => some (16, 0x1021, 0xFFFF, false, false, 0)
  | 6 => some (8, 0x07, 0, false, false, 0)
  | _ => none

/-- The CRC of a preset over bytes. -/
def crcOf (preset : Nat) (d : Bytes) : Nat :=
  match crcPreset preset with
  | some (w, poly, init, ri, ro, xo) => crcFinish w ro xo (crcRun w poly ri init d)
  | none => 0

/-- CRC-64/ECMA-182, the message and object check (R74, R299). -/
def crc64 (d : Bytes) : Nat := crcOf 2 d

/-- CRC-32C. -/
def crc32c (d : Bytes) : Nat := crcOf 1 d

/-! ## The camp code RS(80,64) (R230 to R232) -/

/-- Multiplication by α in GF(2^8) with 0x11D. -/
def gfX (a : Nat) : Nat := if a < 128 then a * 2 else Nat.xor (a * 2 % 256) 0x1D

/-- Multiplication in the field, over `n` bits of `b`. -/
def gfMulN (a b : Nat) : Nat → Nat
  | 0 => 0
  | n + 1 => let r := gfX (gfMulN a b n); if bit b (7 - n) then Nat.xor r a else r

/-- Multiplication in GF(2^8). -/
def gfMul (a b : Nat) : Nat := gfMulN a b 8

/-- A power in the field. -/
def gfPow (a : Nat) : Nat → Nat
  | 0 => 1
  | n + 1 => gfMul a (gfPow a n)

/-- α to a power. -/
def gfAlpha (n : Nat) : Nat := gfPow 2 (n % 255)

/-- The inverse: a^254. -/
def gfInv (a : Nat) : Nat :=
  let a2 := gfMul a a; let a4 := gfMul a2 a2; let a8 := gfMul a4 a4; let a16 := gfMul a8 a8
  let a32 := gfMul a16 a16; let a64 := gfMul a32 a32; let a128 := gfMul a64 a64
  gfMul a128 (gfMul a64 (gfMul a32 (gfMul a16 (gfMul a8 (gfMul a4 a2)))))

/-- A polynomial over the field, constant term first; its value at `x`. -/
def polyEval (x : Nat) : List Nat → Nat
  | [] => 0
  | c :: t => Nat.xor c (gfMul x (polyEval x t))

/-- Sum of polynomials. -/
def polyAdd : List Nat → List Nat → List Nat
  | [], b => b
  | a, [] => a
  | x :: a, y :: b => Nat.xor x y :: polyAdd a b

/-- Product by a constant. -/
def polyScale (c : Nat) (p : List Nat) : List Nat := p.map (gfMul c)

/-- Product of polynomials. -/
def polyMul : List Nat → List Nat → List Nat
  | [], _ => []
  | c :: t, q => polyAdd (polyScale c q) (0 :: polyMul t q)

/-- The sixteen syndromes of a word; symbol 0 is the highest-order coefficient (R230). -/
def syndromes (w : List Nat) : List Nat :=
  let p := w.reverse
  (List.range 16).map fun i => polyEval (gfAlpha i) p

/-- The generator polynomial (x − α^0) … (x − α^15), constant term first. -/
def rsGen : List Nat := (List.range 16).foldl (fun g i => polyMul g [gfAlpha i, 1]) [1]

/-- Division step: the remainder register (16 coefficients, highest first) after one more data symbol. -/
def rsStep (g : List Nat) (reg : List Nat) (d : Nat) : List Nat :=
  let f := Nat.xor d (reg.headD 0)
  (polyAdd (reg.drop 1 ++ [0]) (polyScale f g))

/-- The 16 check symbols of 64 line bytes. -/
def rsCheck (data : List Nat) : List Nat :=
  data.foldl (rsStep ((rsGen.take 16).reverse)) (List.replicate 16 0)

/-- The poison pattern (Table 8-4). -/
def poisonPattern : List Nat :=
  [0xB4, 0x1E, 0x6C, 0xD2, 0x39, 0x87, 0x5F, 0xA1, 0x0D, 0xE6, 0x73, 0x48, 0xC9, 0x2B, 0x95, 0x5A]

/-- The poison syndrome: the syndromes of the pattern on the check symbols. -/
def poisonSyndrome : List Nat := syndromes (List.replicate 64 0 ++ poisonPattern)

/-- Berlekamp–Massey over `n` syndromes: locator, previous locator, length, shift, previous discrepancy. -/
def bmStep (syn : List Nat) (st : List Nat × List Nat × Nat × Nat × Nat) (n : Nat) :
    List Nat × List Nat × Nat × Nat × Nat :=
  let (c, b, l, m, bd) := st
  let d := (List.range (l + 1)).foldl (fun acc i => Nat.xor acc (gfMul (c.getD i 0) (syn.getD (n - i) 0))) 0
  if d = 0 then (c, b, l, m + 1, bd)
  else
    let c' := polyAdd c (List.replicate m 0 ++ polyScale (gfMul d (gfInv bd)) b)
    if 2 * l ≤ n then (c', c, n + 1 - l, 1, d) else (c', b, l, m + 1, bd)

/-- The error locator of modified syndromes. -/
def bmRun (syn : List Nat) : List Nat × Nat :=
  let r := (List.range syn.length).foldl (bmStep syn) ([1], [1], 0, 1, 1)
  (r.1, r.2.2.1)

/-- Formal derivative of a polynomial in characteristic 2. -/
def polyDeriv (p : List Nat) : List Nat := (p.drop 1).zipIdx.map fun (c, i) => if i % 2 = 0 then c else 0

/-- Decodes syndromes with erased positions (symbol numbers) and at most `t` further errors: the error value by symbol,
or `none` (R232). Positions are exponents 79 − symbol. -/
def rsDecode (syn : List Nat) (erase : List Nat) (t : Nat) : Option (List (Nat × Nat)) :=
  if syn.all (· == 0) then some [] else
  let e := erase.length
  let gam := erase.foldl (fun g s => polyMul g [1, gfAlpha (79 - s)]) [1]
  let fs := (polyMul syn gam ++ List.replicate 16 0).take 16
  let r := bmRun (fs.drop e)
  if r.2 > t then none else
  let loc := polyMul r.1 gam
  let omega := (polyMul syn loc).take 16
  let der := polyDeriv loc
  let pos := (List.range 80).filter fun s => polyEval (gfInv (gfAlpha (79 - s))) loc == 0
  if pos.length ≠ r.2 + e then none else
  let errs := pos.map fun s =>
    let xi := gfInv (gfAlpha (79 - s))
    (s, gfMul (gfAlpha (79 - s)) (gfMul (polyEval xi omega) (gfInv (polyEval xi der))))
  let back := (List.range 80).map fun s => ((errs.find? (·.1 == s)).map (·.2)).getD 0
  if syndromes back == syn then some (errs.filter (·.2 != 0)) else none

/-- How a camp word decodes (R232). -/
inductive WordIs where
  | clean | poisoned | corrected (errs : List (Nat × Nat)) | uncorrectable
  deriving DecidableEq, Repr

/-- Symbols of a nibble. -/
def nibbleSyms (n : Nat) : List Nat := (List.range 8).map (8 * n + ·)

/-- The decode order of R232; `marked` is the nibble of the device marked failed (R234). -/
def decodeWord (w : List Nat) (marked : Option Nat) : WordIs :=
  let syn := syndromes w
  if syn.all (· == 0) then .clean
  else if syn == poisonSyndrome then .poisoned
  else
    let er := match marked with | some n => nibbleSyms n | none => []
    match rsDecode syn er (if marked.isSome then 4 else 8) with
    | some errs => .corrected errs
    | none =>
      match rsDecode (List.zipWith Nat.xor syn poisonSyndrome) er (if marked.isSome then 0 else 4) with
      | some _ => .poisoned
      | none => .uncorrectable

/-! ## The camp address map (R165 to R167, Table 6-2) -/

/-- A DRAM location. -/
structure Dram where
  ch : Nat
  sub : Nat
  rank : Nat
  bg : Nat
  ba : Nat
  row : Nat
  col : Nat
  deriving DecidableEq, Repr

/-- The map of Table 6-2 for `k` rank bits; with x8 devices every field above C9 moves down by one bit (R166). -/
def cpaMap (x8 : Bool) (k cpa : Nat) : Dram :=
  let d := if x8 then 1 else 0
  let row := cpa / 2 ^ (23 - d + k)
  { ch := Nat.xor (bits cpa 8 4) (bits cpa (18 - d) 4), sub := bits cpa 7 1, rank := bits cpa (23 - d) k,
    bg := Nat.xor (bits cpa (20 - d) 3) (row % 8), ba := bits cpa (18 - d) 2, row := row,
    col := (bits cpa 12 (6 - d) * 2 + bits cpa 6 1) * 16 }

/-- The map in use: all channels, or the reduced map of R167 over the live channels (the channel field removed). -/
def cpaLoc (live : List Nat) (x8 : Bool) (k cpa : Nat) : Dram :=
  if live.length = 16 then cpaMap x8 k cpa
  else
    let g := cpa / 256
    let n := live.length
    let inner := g / n
    let d := if x8 then 1 else 0
    -- within the channel the group number divides as CPA[63:12] does in Table 6-2
    let up := inner * 2 ^ 12
    let row := up / 2 ^ (23 - d + k)
    { ch := live.getD (g % n) 0, sub := bits cpa 7 1, rank := bits up (23 - d) k,
      bg := Nat.xor (bits up (20 - d) 3) (row % 8), ba := bits up (18 - d) 2, row := row,
      col := (bits up 12 (6 - d) * 2 + bits cpa 6 1) * 16 }

/-- The bank number of RFG_TOKEN and RFG_HOLD_EXPIRY. -/
def Dram.bank (d : Dram) : Nat := ((d.ch * 2 + d.sub) * 16 + d.rank % 16) * 32 + d.bg * 4 + d.ba

/-! ## Work requests (Table 4-8) -/

def wrOp (w : Bytes) : Nat := le w 0 1
def wrEnd (w : Bytes) : Bool := bit (le w 1 1) 0
def wrFence (w : Bytes) : Bool := bit (le w 1 1) 1
def wrPersist (w : Bytes) : Bool := bit (le w 1 1) 2
def wrArgSrc (w : Bytes) : Bool := bit (le w 1 1) 3
def wrToSender (w : Bytes) : Bool := bit (le w 1 1) 4
def wrNoCompare (w : Bytes) : Bool := bit (le w 1 1) 5
def wrCtx (w : Bytes) : Nat := le w 2 2
def wrLen (w : Bytes) : Nat := le w 4 4
def wrSrcKey (w : Bytes) : Nat := le w 8 4
def wrSrc (w : Bytes) : Nat := le w 12 6
def wrDstKey (w : Bytes) : Nat := le w 20 4
def wrDst (w : Bytes) : Nat := le w 24 6
def wrConn (w : Bytes) : Nat := le w 32 3
def wrImm (w : Bytes) : Bytes := bsub w 40 16
def wrTag (w : Bytes) : Nat := le w 56 8

abbrev woPush : Nat := 1
abbrev woCopy : Nat := 2
abbrev woCheck : Nat := 3
abbrev woNotify : Nat := 4
abbrev woWrite : Nat := 5

/-- The work request in a slot. -/
def Queue.wr (x : Queue) (slot : Nat) : Bytes := (tget x.ring slot).getD []

end Sys2Proof.Machine
end

