-- ==== Sys2Proof/Machine/RopeTx.lean ====
section
/-! DEFINITION. What the rope and the belay wires send (11): frames, order records, belay and departure words; the
team's role and state. -/

namespace Sys2Proof.Machine

/-- RL_STATUS.ROLE values (Table 11-12). -/
abbrev roleSingle : Nat := 0
abbrev roleLead : Nat := 1
abbrev roleSecond : Nat := 2
abbrev roleFenced : Nat := 3

/-- RL_STATUS.STATE values (Table 11-12). -/
abbrev teamNegotiating : Nat := 0
abbrev teamCatchUp : Nat := 1
abbrev teamRoped : Nat := 2
abbrev teamCut : Nat := 3
abbrev teamSingle : Nat := 4
abbrev teamConflict : Nat := 5
abbrev teamReturning : Nat := 6
abbrev teamFenced : Nat := 7

/-- The role and the team state. -/
def role (s : State) : Nat := getF s Reg.rlStatusRole
def team (s : State) : Nat := getF s Reg.rlStatusState
def setRole (s : State) (v : Nat) : State := setF s Reg.rlStatusRole v
def setTeam (s : State) (v : Nat) : State := setF s Reg.rlStatusState v
def isSecond (s : State) : Bool := role s == roleSecond

/-- A Second stands behind this Lead: records go into the order stream (R317). -/
def hasSecond (s : State) : Bool :=
  role s == roleLead && (team s == teamCatchUp || team s == teamRoped || team s == teamReturning || team s == teamCut)

/-- The Second confirms records over the rope (R321, Table 11-9). -/
def ropeSynced (s : State) : Bool :=
  role s == roleLead && (team s == teamCatchUp || team s == teamRoped || team s == teamReturning)

/-- Nothing is sent or served while fenced (Table 11-8, step 4). -/
def silent (s : State) : Bool := s.rope.fenced

/-- Nothing arrives: the part is fenced (R437), held in reset (R369), off, in bivouac, or its rails go down. -/
def rxOff (s : State) : Bool := silent s || s.start.inReset || seqState s == stOff || powerStops s

/-- Puts a frame into the FIFO of an egress crossing: 0–31 sub-ports, 32 and 33 rope instances (R21). -/
def emit (s : State) (x : Nat) (f : Frame) : State :=
  { s with port.fifo := tset s.port.fifo x ((tget s.port.fifo x).getD [] ++ [f]) }

/-! ## Rope frames (R315, R316) -/

def ropeInst (s : State) (i : Nat) : RopeInst := (tget s.rope.inst i).getD {}
def setRopeInst (s : State) (i : Nat) (r : RopeInst) : State := { s with rope.inst := tset s.rope.inst i r }

/-- The retransmit timer of R316. -/
abbrev ropeRtx : Nat := us 4

/-- The instance a new frame takes: the lowest-numbered one that is up. -/
def ropePick (s : State) : Option Nat :=
  if (ropeInst s 0).up then some 0 else if (ropeInst s 1).up then some 1 else none

/-- Sends a frame on one instance; a sequenced one is held until acknowledged. -/
def ropeSendOn (s : State) (i : Nat) (seqd : Bool) (body : RopeBody) : State :=
  let r := ropeInst s i
  let f : RopeFrame := ⟨i, if seqd then r.tx else 0, r.rx, s.cairn.epoch, body⟩
  let r' := if seqd then { r with tx := psnNext r.tx, held := r.held ++ [f],
                                  timer := some (r.timer.getD (s.timebase + ropeRtx)) } else r
  emit (setRopeInst s i r') (32 + i) (.rope f)

/-- Sends a frame on the rope; nothing leaves while no instance is up. -/
def ropeSend (s : State) (seqd : Bool) (body : RopeBody) : State :=
  match ropePick s with
  | some i => ropeSendOn s i seqd body
  | none => s

/-- Sends a frame on every instance that is up (R324, R435). -/
def ropeSendAll (s : State) (seqd : Bool) (body : RopeBody) : State :=
  [0, 1].foldl (fun s i => if (ropeInst s i).up then ropeSendOn s i seqd body else s) s

/-! ## Belay words (R324, R435) -/

abbrev belayRenew : Nat := 0x5
abbrev belayAck : Nat := 0xA
abbrev belayHello : Nat := 0x3
abbrev belayDepart : Nat := 0xC

/-- A belay word: type, sender, sequence, CRC-8 over bits [31:8] (R324). -/
def belayWord (ty twin seq : Nat) : BitVec 32 :=
  let hi := ty % 16 * 2 ^ 20 + twin % 2 * 2 ^ 19 + seq % 65536
  BitVec.ofNat 32 (hi * 256 + crcOf 6 (beBytes 3 hi))

/-- The fields of a belay word: type, twin, sequence, CRC good. -/
def belayTy (w : BitVec 32) : Nat := w.toNat / 2 ^ 28
def belayTwin (w : BitVec 32) : Nat := w.toNat / 2 ^ 27 % 2
def belaySeqOf (w : BitVec 32) : Nat := w.toNat / 256 % 65536
def belayCrcOk (w : BitVec 32) : Bool := crcOf 6 (beBytes 3 (w.toNat / 256)) == w.toNat % 256

/-- Sends a word on BW_OUT. -/
def belaySend (s : State) (ty seq : Nat) : State :=
  { s with pins.belayOut := s.pins.belayOut ++ [belayWord ty s.pins.twinId seq] }

/-- Departure (R435): the word three times with the last renewal sequence sent or acknowledged, and a DEPART control on
every rope instance that is up. Events of one instant give one departure (Table 19-10; log entry 141). -/
def departNow (s : State) : State :=
  if s.rope.departAt = some s.timebase then s
  else
    let w := belayWord belayDepart s.pins.twinId s.rope.renewSeq
    let s := { s with pins.belayOut := s.pins.belayOut ++ [w, w, w], rope.departAt := some s.timebase }
    ropeSendAll (pitchEv s srcRope .departureSent [s.rope.renewSeq]) true (.control .depart)

/-- A Lead fences (Table 11-8 step 4, R30, R437): it orders nothing, sends no response or renewal and drops all host
packets without answer. -/
def fenceLead (s : State) : State :=
  if role s == roleLead then
    logEv (setTeam (setRole { s with rope.fenced := true, rope.renewAt := [], rope.leaseEnd := none } roleFenced) teamFenced)
      srcRope .fence noUnit [s.rope.index] true
  else s

/-- Fence and departure together: a Lead sends the departure word only after it has fenced (R435). -/
def departFenced (s : State) : State := departNow (fenceLead s)

/-! ## Order records (R317, R320) -/

/-- The release mark: one less than the oldest record whose response waits for its host's ACK. -/
def releaseMark (held : Tab OrderRec) (index : Nat) : Nat :=
  match held with
  | [] => index
  | (k, _) :: _ => k - 1

/-- A record whose response an ACK covers; what the part itself wrote (connection 0) has none, a NAK carries no PSN, and the other records have no response on a path (Table
11-5; log entry 112). -/
def hostAnswers : OrderBody → Bool
  | .operation _ _ _ _ _ c _ _ _ status .. => decide (status < 0xFF00) && c != 0
  | .partMsg .. => true
  | _ => false

/-- Gives a record its order index, keeps it above the release mark and sends it. -/
def order (s : State) (b : OrderBody) : State × Nat :=
  let idx := s.rope.index + 1
  let r : OrderRec := ⟨idx, s.rope.release, b⟩
  let held := if hostAnswers b then tset s.rope.held idx r else s.rope.held
  let s := setF { s with rope.index := idx, rope.held := held, rope.sent := tset s.rope.sent idx r,
                         rope.release := releaseMark held idx } Reg.rlIndexIndex idx
  (ropeSend s true (.order [r]), idx)

/-- Orders a record when a Second stands behind this Lead, which orders none once it has sent HANDOVER (R334); gives its
index, else 0 (nothing to wait for). -/
def orderIf (s : State) (b : OrderBody) : State × Nat := if hasSecond s && s.rope.handover.isNone then order s b else (s, 0)

/-- Drops the records `p` accepts from those above the release mark, which then advances (Table 11-5). -/
def uncover (s : State) (p : OrderRec → Bool) : State :=
  let h := s.rope.held.filter fun x => ! p x.2
  { s with rope.held := h, rope.release := releaseMark h s.rope.index }

/-- The record of a response that its host has acknowledged is covered. -/
def coverResponse (s : State) (num msn : Nat) : State :=
  uncover s fun r => match r.body with
    | .operation _ _ _ _ _ c m .. => c == num && m == msn
    | .partMsg c m .. => c == num && m == msn
    | _ => false

/-- No response of a connection that is given up is waited for. -/
def uncoverConn (s : State) (num : Nat) : State :=
  uncover s fun r => match r.body with
    | .operation _ _ _ _ _ c .. => c == num
    | .partMsg c .. => c == num
    | _ => false

/-- Whether a new request may be ordered: its index at most 8,192 above the release mark (R320), and no HANDOVER sent
(R334). -/
def mayOrder (s : State) : Bool := ! hasSecond s || s.rope.handover.isNone && decide (s.rope.index + 1 ≤ s.rope.release + 8192)

end Sys2Proof.Machine
end

