-- ==== Sys2Proof/Machine/Net.lean ====
section
/-! DEFINITION. The sending side of the transport (3): connections and paths, ports and the buffer pool, windows, ACK,
NAK and EVENT packets, and the cutting of messages into chunks. -/

namespace Sys2Proof.Machine

/-! ## Connections and paths -/

/-- Connection number: index in [13:0], generation in [23:14]. -/
def connNum (ci : Nat) (c : Conn) : Nat := ci % 16384 + c.gen * 16384

/-- The index part of a connection number. -/
def connIdx (num : Nat) : Nat := num % 16384

/-- The connection that bears a number, if its generation is current. -/
def connOf (s : State) (num : Nat) : Option Conn :=
  match tget s.conns (connIdx num) with
  | some c => if c.gen = num / 16384 then some c else none
  | none => none

/-- Whether a connection takes packets: a number held in error is refused (R60). -/
def ConnSt.live : ConnSt → Bool
  | .error _ => false
  | _ => true

def ConnSt.isOpen : ConnSt → Bool
  | .opened => true
  | _ => false

def setConn (s : State) (ci : Nat) (c : Conn) : State := { s with conns := tset s.conns ci c }
def modConn (s : State) (ci : Nat) (f : Conn → Conn) : State := { s with conns := tmod s.conns ci f }
def Conn.path (c : Conn) (k : Nat) : Option PathSt := tget c.paths k
def Conn.setPath (c : Conn) (k : Nat) (p : PathSt) : Conn := { c with paths := tset c.paths k p }
def modPath (s : State) (ci k : Nat) (f : PathSt → PathSt) : State :=
  modConn s ci fun c => { c with paths := tmod c.paths k f }
def Conn.upPaths (c : Conn) : List (Nat × PathSt) := c.paths.filter (·.2.up)

/-- Payload bytes of the packets a path holds. -/
def heldBytes (p : PathSt) : Nat := (p.held.map (·.pkt.payload.length)).sum

/-- Open connections of an identity, oldest first. -/
def connsOf (s : State) (ident : Nat) : List (Nat × Conn) :=
  sortBy (fun a b => decide (a.2.order ≤ b.2.order)) (s.conns.filter fun x => x.2.ident == ident && x.2.st.isOpen)

/-- An identity's event connection: its oldest open connection (R116). -/
def eventConn (s : State) (ident : Nat) : Option Nat := ((connsOf s ident).head?).map (·.1)

def rtxTicks (s : State) : Nat := us (getF s Reg.hpTmtCfgRtxUs)

/-! ## Ports (R42, R44) -/

/-- HP_PORTn_STATUS.SUBk of sub-port `sub` (4 × port + first lane ÷ 2). -/
def subFld (sub : Nat) : Reg.Fld :=
  match sub % 4 with
  | 0 => Reg.hpPortStatusSub0 (sub / 4)
  | 1 => Reg.hpPortStatusSub1 (sub / 4)
  | 2 => Reg.hpPortStatusSub2 (sub / 4)
  | _ => Reg.hpPortStatusSub3 (sub / 4)

abbrev subAbsent : Nat := 0
abbrev subTraining : Nat := 1
abbrev subUp : Nat := 2
abbrev subDegraded : Nat := 3
abbrev subDown : Nat := 4
abbrev subQuiesced : Nat := 5
abbrev subHeld : Nat := 6

def subState (s : State) (sub : Nat) : Nat := getF s (subFld sub)
def setSub (s : State) (sub v : Nat) : State := setF s (subFld sub) v
def subRuns (s : State) (sub : Nat) : Bool := subState s sub == subUp || subState s sub == subDegraded

/-- The sub-ports that a mode defines, by place (R42). -/
def modeSubs : Nat → List Nat
  | 0 => [0]
  | 1 => [0, 2]
  | _ => [0, 1, 2, 3]

/-- Whether a priority is lossless (R47). -/
def lossless (s : State) (prio : Nat) : Bool := bitF s Reg.hpTmtCfgLossless prio

/-- The priority of a frame: its PCP, else the map of its DSCP (R47). -/
def prioOf (s : State) (p : Pkt) : Nat :=
  match p.pcp with
  | some v => v % 8
  | none =>
    let n := p.dscp % 64 / 8
    match p.dscp % 8 with
    | 0 => getF s (Reg.hpDscpMapPri0 n) | 1 => getF s (Reg.hpDscpMapPri1 n) | 2 => getF s (Reg.hpDscpMapPri2 n)
    | 3 => getF s (Reg.hpDscpMapPri3 n) | 4 => getF s (Reg.hpDscpMapPri4 n) | 5 => getF s (Reg.hpDscpMapPri5 n)
    | 6 => getF s (Reg.hpDscpMapPri6 n) | _ => getF s (Reg.hpDscpMapPri7 n)

/-- A frame dropped at ingress is counted at its port (R43, R45, R49, R71, Table 3-5). -/
def rxDrop (s : State) (sub : Nat) : State := bumpF s (Reg.hpRxDropCount (sub / 4))

/-! ## The buffer pool and PFC (R66 to R69) -/

/-- Headroom in KiB of one lossless priority of a sub-port in a mode (R67), for a cable length in metres. -/
def headroomKib (mode cableM : Nat) : Nat :=
  let more := cableM - 100
  match mode with
  | 0 => 224 + more
  | 1 => 112 + cdiv more 2
  | _ => 56 + cdiv more 4

/-- Lossless priorities. -/
def losslessCount (map : Nat) : Nat := popcount map 8

/-- Shared ingress in KiB for port modes, a LOSSLESS map and HP_POOL_CFG values, `none` when the shares exceed the pool
(R66, R68). -/
def sharedKib (modes : List Nat) (losslessMap egressMib cableM : Nat) : Option Nat :=
  let head := (modes.map fun m => (modeSubs m).length * headroomKib m cableM).sum * losslessCount losslessMap
  let used := 256 + 2048 + egressMib * 1024 + head
  if used ≤ 24576 then some (24576 - used) else none

/-- The configured modes of the eight ports. -/
def portModes (s : State) : List Nat := (List.range 8).map fun n => getF s (Reg.hpPortCfgMode n)

/-- Shared ingress in bytes. -/
def sharedBytes (s : State) : Nat :=
  (sharedKib (portModes s) (getF s Reg.hpTmtCfgLossless) (getF s Reg.hpPoolCfgEgressMib) (getF s Reg.hpPoolCfgCableM)).getD 0
    * 1024

def occKey (sub prio : Nat) : Nat := sub * 8 + prio
/-- The key of what lies in a priority's headroom. -/
def headKey (sub prio : Nat) : Nat := 512 + occKey sub prio
def occOf (s : State) (sub prio : Nat) : Nat := tcnt s.port.occ (occKey sub prio) + tcnt s.port.occ (headKey sub prio)
def xoffBytes (s : State) : Nat := getF s Reg.hpPoolCfgXoff16k * 16384
def xonBytes (s : State) : Nat := xoffBytes s - getF s Reg.hpPoolCfgXonGap16k * 16384
def globalFree (s : State) : Nat := getF s Reg.hpPoolCfgGlobalFree16k * 16384

/-- Shared ingress in use: what lies in a headroom does not count (R67, R68). -/
def sharedUsed (s : State) : Nat := ((s.port.occ.filter fun x => decide (x.1 < 256)).map (·.2)).sum

def sharedFree (s : State) : Nat := sharedBytes s - sharedUsed s

/-- HP_PORTn_STATUS.PFC_TX shows whether any sub-port of the port pauses the priority. -/
def showPfcTx (s : State) (sub prio : Nat) : State :=
  putF s (Reg.hpPortStatusPfcTx (sub / 4)) prio
    ([0, 1, 2, 3].any fun k => s.port.xoff.contains (occKey (sub / 4 * 4 + k) prio))

/-- Pauses or releases a priority of a sub-port: a PFC frame with the greatest pause time, or with none (R67). -/
def setPause (s : State) (sub prio : Nat) (on : Bool) : State :=
  let key := occKey sub prio
  if s.port.xoff.contains key == on then s
  else
    let s := { s with port.xoff := if on then s.port.xoff ++ [key] else s.port.xoff.filter (· != key) }
    emit (showPfcTx s sub prio) sub (.pfc prio (if on then 65535 else 0))

/-- Each lossless priority of a sub-port follows its thresholds while the global reserve holds (R67, R68). PFC is never
sent on priority 7 (R69). -/
def pfcCheck (s : State) (sub prio : Nat) : State :=
  if lossless s prio && prio != 7 then
    if s.port.globalXoff || occOf s sub prio ≥ xoffBytes s then setPause s sub prio true
    else if occOf s sub prio < xonBytes s then setPause s sub prio false
    else s
  else s

/-- Every lossless priority of every sub-port that the configured modes define. -/
def pausable (s : State) : List (Nat × Nat) :=
  ((List.range 8).flatMap fun n => (modeSubs (getF s (Reg.hpPortCfgMode n))).flatMap fun k =>
    ((List.range 7).filter (lossless s)).map fun p => (4 * n + k, p))

/-- The global reserve of shared ingress (R68). -/
def globalCheck (s : State) : State :=
  if s.port.globalXoff then
    if sharedFree s > 2 * globalFree s then
      (pausable s).foldl (fun s x => pfcCheck s x.1 x.2) { s with port.globalXoff := false }
    else s
  else if sharedFree s < globalFree s then
    (pausable s).foldl (fun s x => pfcCheck s x.1 x.2) { s with port.globalXoff := true }
  else s

/-- The key under which a chunk counts in the management share and not in the shared pool (R66, R71). -/
abbrev mgmtShare : Nat := 256

/-- Ingress occupancy changes by a signed amount. -/
def occChange (s : State) (key : Nat) (add sub_ : Nat) : State :=
  if key = mgmtShare then { s with port.mgmtUsed := s.port.mgmtUsed + add - sub_ }
  else
  let s := { s with port.occ := tcntSet s.port.occ key (tcnt s.port.occ key + add - sub_) }
  globalCheck (pfcCheck s (key % 256 / 8) (key % 8))

/-- Where a packet's payload is counted: the management share, the headroom of its lossless priority while that is at XOFF by
either rule, else shared ingress (R66 to R68). -/
def roomKey (s : State) (p : Pkt) : Nat :=
  let prio := prioOf s p
  if p.ty = tyMgmt then mgmtShare
  else if lossless s prio && s.port.xoff.contains (occKey p.sub prio) then headKey p.sub prio
  else occKey p.sub prio

/-- The ingress that a message held is free again. -/
def occRelease (s : State) (l : List (Nat × Nat)) : State := l.foldl (fun s x => occChange s x.1 0 x.2) s

/-! ## Windows (R64, R65, Table 3-7) -/

/-- A region that the connection registered is fenced (Table 3-7, last row; log entry 118). -/
def regionFenced (s : State) (c : Conn) : Bool :=
  s.tables.regions.any fun r => r.2.fenced && (match connOf s r.2.ownConn with
    | some o => o.order == c.order && o.gen == c.gen && o.hostNum == c.hostNum
    | none => false)

/-- The share of the full window, in eighths, that Table 3-7 leaves a connection. -/
def windowEighths (s : State) (c : Conn) : Nat :=
  let worst := (c.paths.map fun x => occOf s x.2.sub c.prio).foldl max 0
  let base := if worst * 4 > xoffBytes s * 3 then 2 else if worst * 2 > xoffBytes s then 4 else 8
  if s.cmd.fencedIds.contains c.ident || regionFenced s c then 0
  else if isSet s Reg.thmStatusEnforced then base / 2 else base

/-- The window that the part advertises: packets and payload bytes. -/
def windowOf (s : State) (c : Conn) : Nat × Nat := (32 * windowEighths s c, 131072 * windowEighths s c)

/-- The window in the form of the path-ack W2. -/
def windowWord (w : Nat × Nat) : Nat := w.1 % 512 * 2 ^ 23 + w.2 % 2 ^ 21

/-! ## Packets from the part -/

/-- The addressing of a packet on a path of a connection (R46). -/
def outPkt (c : Conn) (k : Nat) (p : PathSt) (ty : Nat) : Pkt :=
  { sub := p.sub, src := p.src, dst := p.dst, sport := 49152 + Config.flowHash c.hostNum k % 16384, pcp := some c.prio,
    dscp := c.dscp, ty := ty, path := k, conn := c.hostNum, psn := p.txNext }

/-- Sets the extension chain and its length. -/
def withExts (p : Pkt) (es : List Ext) : Pkt := { p with exts := es, extLen := (es.map (·.len)).sum }

/-- The MAC address of a sub-port (R42). -/
def subMac (s : State) (sub : Nat) : Nat := s.pins.mac + sub

/-- The encapsulation of a packet that the part sends (R45 to R47): its MAC address, UDP ports, DF, TTL, flow label and
checksum; the tag of a MGMT packet with Management set carries priority 7. -/
def encap (s : State) (p : Pkt) : Pkt :=
  let hash := Config.flowHash p.conn p.path
  let p := { p with
    pcp := if p.mgmt then some 7 else p.pcp, mac := subMac s p.sub, sport := 49152 + hash % 16384,
    dport := getF s Reg.hpTmtCfgUdpPort, df := decide (p.src < 2 ^ 32), ttl := 64,
    flow := if p.src < 2 ^ 32 then 0 else hash % 2 ^ 20 }
  { p with udpSum := udpChecksum p }

/-- Puts a packet into its sub-port's crossing; MGMT with the management flag travels on priority 7 (R47). -/
def sendPkt (s : State) (prio : Nat) (p : Pkt) : State :=
  if silent s then s else emit s p.sub (.tmt (if p.mgmt then 7 else prio) (encap s p))

/-! ## Domains of the cipher engine and the check-value units (R39) -/

/-- Whether a pipeline, or a unit, is awake. -/
def cipherAwake (s : State) : Bool := (span 90 98).any (domOn s)
def cvuAwake (s : State) : Bool := (span 98 102).any (domOn s)

/-- Whether sealing and checking can be done now: a pipeline or unit is awake, and the cipher queue is not full (R39, R281). -/
def workAwake (s : State) (seald check : Bool) : Bool :=
  (! seald || cipherAwake s && decide (s.key.queue.length < 4096)) && (! check || cvuAwake s)

/-- Room in the egress share: the management share for MGMT packets, else the egress hold (R66). -/
def egressFull (s : State) (mgmt : Bool) (len : Nat) : Bool :=
  if mgmt then decide (s.port.mgmtUsed + len > 262144)
  else decide (s.port.egressUsed + len > getF s Reg.hpPoolCfgEgressMib * 1048576)

/-- The room that packets take in the egress shares, and give back. -/
def egressTake (s : State) (mgmt : Bool) (len : Nat) : State :=
  if mgmt then { s with port.mgmtUsed := s.port.mgmtUsed + len } else { s with port.egressUsed := s.port.egressUsed + len }
def egressGone (s : State) (l : List Pkt) : State :=
  { s with port.egressUsed := s.port.egressUsed - ((l.filter (! ·.mgmt)).map (·.payload.length)).sum,
           port.mgmtUsed := s.port.mgmtUsed - ((l.filter (·.mgmt)).map (·.payload.length)).sum }

/-- An ACK on path `k`: path ack with the window, and up to 16 outstanding completions, oldest first (R56). -/
def sendAck (s : State) (ci k : Nat) (req : Bool := false) : State :=
  match tget s.conns ci with
  | none => s
  | some c =>
    match c.path k with
    | none => s
    | some p =>
      if silent s then s else
      let w := windowOf s c
      let now := s.timebase
      let carried := if isSecond s then [] else c.outst.take 16
      let pkt := { withExts (outPkt c k p tyAck)
        (pathAckExt p.rxE w.1 w.2 :: carried.map fun o => compExt o.status o.msn o.flags) with
        ackReq := req || ! carried.isEmpty }
      let outst := (c.outst.take carried.length).map (fun o =>
        { o with copies := o.copies ++ [(k, p.txNext)], lastAt := now, lastPath := k }) ++ c.outst.drop carried.length
      let c := { (c.setPath k { p with ackN := 0, ackDue := none }) with outst := outst, reduced := w != (256, 1048576) }
      sendPkt (setConn s ci c) c.prio pkt

/-- A NAK on path `k` (Table 3-9). -/
def sendNak (s : State) (ci k code wait msn detail : Nat) : State :=
  match tget s.conns ci with
  | none => s
  | some c =>
    match c.path k with
    | none => s
    | some p => sendPkt s c.prio (withExts (outPkt c k p tyNak) [nakExt code wait p.rxE msn detail])

/-- The path the first packet of a message takes: the least occupied open path; the lowest-numbered of equals; `avoid`
only if no other is open (R52, R116). -/
def choosePath (c : Conn) (avoid : Option Nat) : Option (Nat × PathSt) :=
  let up := c.upPaths
  let pool := match up.filter (fun x => some x.1 != avoid) with | [] => up | l => l
  pool.foldl (fun best x => match best with
    | none => some x
    | some b => if x.2.held.length < b.2.held.length then some x else best) none

/-- The next open path after `k`, in turn. -/
def nextPath (c : Conn) (k : Nat) : Option Nat := (((List.range 4).map fun i => (k + 1 + i) % 4).find? fun j =>
  match c.path j with | some p => p.up | none => false)

/-- The path of a message's next chunk: the least occupied for the first, then the open ones in turn (R52). -/
def chunkPath (c : Conn) (m : OutMsg) : Option (Nat × PathSt) :=
  match m.lastPath.bind (nextPath c) with
  | some k => (c.path k).map (k, ·)
  | none => choosePath c m.avoid

/-- Sends an ACK on the path a completion travels by. -/
def ackAny (s : State) (ci : Nat) : State :=
  match tget s.conns ci with
  | none => s
  | some c => match choosePath c none with
    | some (k, _) => sendAck s ci k
    | none => s

/-! ## Keys of a session slot (R275, R284) -/

def partSerial (s : State) : Nat := fuseSerial s

/-- The key that a root blob unwraps to, with its index, kind and ID; `none` where a check or the tag fails (R273). -/
def unwrapRoot (s : State) (b : Bytes) : Option (Nat × RootKey) :=
  if b.length = 96 ∧ le b 0 4 = 0x4B425452 ∧ le b 4 1 < 16 ∧ (le b 5 1 = 1 ∨ le b 5 1 = 2) ∧ le b 6 2 = 0 ∧ le b 8 8 = partSerial s then
    (gcmOpen (wrapKey (partSerial s)) (bsub b 24 12) (bsub b 0 24) (bsub b 36 32) (bsub b 68 16)).map fun k =>
      (le b 4 1, { kind := le b 5 1, id := le b 16 8, key := some k })
  else none

/-- The key of a root for what needs it: one that is lost is unwrapped from its stored blob first (R274). -/
def rootKeyOf (s : State) (n : Nat) : Option Bytes :=
  match tget s.key.roots n with
  | some r => if r.key.isSome then r.key else ((tget s.key.blobs n).bind (unwrapRoot s)).bind (·.2.key)
  | none => none

/-- The key of generation `g` of a slot (R275, R284). -/
def slotKey (k : KeySlot) (g : Nat) : Bytes :=
  kdf k.rootKey (if k.title then k.label else k.label.take 14 ++ beBytes 2 g)

/-- The key slot of a connection. -/
def connSlot (s : State) (c : Conn) : Option (Nat × KeySlot) :=
  match c.slot with
  | some n => (tget s.key.slots n).map fun k => (n, k)
  | none => none

/-- The state that a session slot's counts give it (R283). -/
def slotState (k : KeySlot) : SlotSt :=
  if ! k.title && k.out + k.resv ≥ 2 ^ k.limit * (k.genMax + 1) then .exhausted else .bound

def setSlot (s : State) (n : Nat) (k : KeySlot) : State :=
  { s with key.slots := tset s.key.slots n { k with st := slotState k } }

/-- Seals an outgoing packet under the connection's slot: the next invocation count, and a nonce extension before the
rest (R72, R284). -/
def sealPkt (s : State) (ci : Nat) (c : Conn) (p : Pkt) : State × Pkt :=
  match connSlot s c with
  | none => (s, p)
  | some (n, k) =>
    let inv := c.invoc
    let iv := c.saltOut ++ beBytes 8 inv
    let p := { withExts p (nonceExt n (beNat iv) :: p.exts) with seald := true }
    let r := gcmSeal (slotKey k (inv / 2 ^ k.limit)) iv (aadOf p) (p.payload ++ p.chk)
    let s := setSlot s n { k with out := k.out + 1, resv := k.resv - 1 }
    (modConn s ci fun c => { c with invoc := inv + 1 },
     { p with payload := r.1.take p.payload.length, chk := r.1.drop p.payload.length, tag := r.2 })

/-! ## Cutting messages into chunks (R52, R57, R64, R66) -/

/-- Poison mask of a chunk: bit i for the i-th line from the line of its first byte; bit 127 also stands for the 129th
line (R95). -/
def chunkMask (poison : List Nat) (addr len : Nat) : Nat :=
  let first := addr / 64
  (poison.filter fun l => first ≤ l && l * 64 < addr + len).foldl (fun m l => putBit m (min (l - first) 127) true) 0

/-- How many bytes of a message of the sending queue may leave: a sealed READ's chunks wait for their seal units; the
chunk with Last waits for every unit (R101, Table 10-4). -/
def sendLimit (c : Conn) (m : OutMsg) : Nat :=
  if m.ty != tyReadResp then m.data.length
  else match tget c.msgs m.msn with
    | some g =>
      match g.units with
      | [] => m.data.length
      | u :: us =>
        if g.hold then us.foldl min u * 4096 - g.unitBase
        else (m.data.length - 1) / c.unit * c.unit
    | none => m.data.length

/-- Whether the order stream lets a message leave: its record is applied at the Second (R321). -/
def gateOpen (s : State) (m : OutMsg) : Bool := ! ropeSynced s || decide (m.gate ≤ s.rope.confirmed)

/-- The limit of invocations that the Second has recorded for a connection's sealed packets (R322). -/
def ivLimit (s : State) (ci : Nat) : Nat := tcnt s.rope.ivRes ci

/-- Whether a sealed packet may leave: without a Second always, else below the reserved limit. -/
def ivOk (s : State) (ci : Nat) (c : Conn) (m : OutMsg) : Bool :=
  ! (m.sealIt && hasSecond s) || decide (c.invoc < ivLimit s ci)

/-- Whether a queued frame is a packet that a path holds. -/
def isHeld (c : Conn) (k : Nat) (p : PathSt) (h : Held) : Frame → Bool
  | .tmt _ q => q.sub == p.sub && q.src == p.src && q.conn == c.hostNum && q.path == k && q.psn == h.psn && q.ty == h.pkt.ty
  | _ => false

/-- A frame starts on the wire: the packet that holds it is marked. -/
def markBegun (s : State) (f : Frame) : State :=
  { s with conns := s.conns.map fun x => (x.1, { x.2 with paths := x.2.paths.map fun y =>
      (y.1, { y.2 with held := y.2.held.map fun h => if isHeld x.2 y.1 y.2 h f then { h with begun := true } else h }) }) }

/-- The chunks of a READ on a path that have not started on the wire are discarded (R290); what follows them takes their packet
sequence numbers. DESIGN CHOICE (log entry 139): a chunk that stands before a packet already started stays. -/
def discardChunks (s : State) (ci k msn : Nat) : State :=
  match tget s.conns ci with
  | none => s
  | some c =>
    match tget c.paths k with
    | none => s
    | some p =>
      let wait := (p.held.reverse.takeWhile (! ·.begun)).reverse
      let gone (h : Held) : Bool := h.pkt.ty == tyReadResp && h.pkt.msn == msn
      match wait with
      | [] => s
      | w :: _ =>
        let left := (wait.filter (! gone ·)).zipIdx.map fun x => (x.1, (w.psn + x.2) % 2 ^ 32)
        let frame (f : Frame) : Option Frame :=
          if wait.any fun h => gone h && isHeld c k p h f then none
          else match f, left.find? fun x => isHeld c k p x.1 f with
            | .tmt prio q, some x => some (.tmt prio (encap s { q with psn := x.2 }))
            | f, _ => some f
        let q := ((tget s.port.fifo p.sub).getD []).filterMap frame
        let kept := p.held.take (p.held.length - wait.length) ++ left.map fun x => { x.1 with psn := x.2, pkt := { x.1.pkt with psn := x.2 } }
        let s := egressGone s ((wait.filter gone).map (·.pkt))
        let s := { s with port.fifo := if q.isEmpty then tdel s.port.fifo p.sub else tset s.port.fifo p.sub q }
        modPath s ci k fun p => { p with
          held := kept, txNext := (w.psn + left.length) % 2 ^ 32, timer := if kept.isEmpty then none else p.timer }

/-- Builds the next chunk of a message on a path. -/
def chunkPkt (c : Conn) (k : Nat) (p : PathSt) (m : OutMsg) (len : Nat) : Pkt :=
  let last := m.sent + len == m.data.length
  let mask := if m.ty = tyReadResp then chunkMask m.poison (m.addr + m.sent) len else 0
  let es := (if mask != 0 then [poisonExt mask] else []) ++ m.exts ++ (if last then m.last else [])
  { withExts (outPkt c k p m.ty) es with
    first := m.sent == 0, last := last, ackReq := last && m.ty == tyPush, poison := mask != 0, mgmt := m.mgmt,
    check := last && m.chk.isSome, msn := m.msn, off := m.sent, mlen := m.data.length,
    payload := bsub m.data m.sent len, chk := if last then m.chk.getD [] else [] }

/-- Sends the next chunk of a connection's oldest message, if the window, the egress hold and the order stream allow it;
`none` when nothing may leave. -/
def pumpOne (s : State) (ci : Nat) : Option State :=
  match tget s.conns ci with
  | none => none
  | some c =>
    match c.respQ with
    | [] => none
    | m :: rest =>
      let len := min c.unit (m.data.length - m.sent)
      match chunkPath c m with
      | none => none
      | some (k, p) =>
        let inFlight := (c.paths.map fun x => x.2.held.length).sum
        let bytes := (c.paths.map fun x => heldBytes x.2).sum
        if silent s || ! gateOpen s m || ! ivOk s ci c m || decide (m.sent + len > sendLimit c m)
          || decide (inFlight + 1 > c.winPk) || decide (bytes + len > c.winBy)
          || egressFull s m.mgmt len || ! workAwake s m.sealIt m.chk.isSome then none
        else
          let pkt := chunkPkt c k p m len
          let done := pkt.last
          let r := if m.sealIt then sealPkt s ci c pkt else (s, pkt)
          let pkt := r.2
          let s := egressTake r.1 m.mgmt len
          let s := modConn s ci fun c => { c with
            respQ := if done then rest else { m with sent := m.sent + len, started := true, lastPath := some k } :: rest }
          let now := s.timebase
          let rtx := rtxTicks s
          let s := modPath s ci k fun p => { p with
            txNext := psnNext p.txNext, held := p.held ++ [{ psn := pkt.psn, pkt := pkt, at_ := now, skip := (m.addr + m.sent) % 64 }],
            timer := some (p.timer.getD (now + rtx)) }
          some (sendPkt s c.prio pkt)

/-- Sends what may leave (`fuel`: the window is below 512 packets). -/
def pumpN (ci : Nat) : Nat → State → State
  | 0, s => s
  | fuel + 1, s => match pumpOne s ci with
    | some s' => pumpN ci fuel s'
    | none => s

/-- A connection with a session slot keeps a whole block of 65,536 invocations reserved beyond the one in use, in the order
stream (R322; log entry 112). -/
def reserveIv (s : State) (ci : Nat) : State :=
  match tget s.conns ci with
  | some c =>
    let limit := (c.invoc / 65536 + 2) * 65536
    if c.slot.isSome && c.st.live && ropeSynced s && s.rope.handover.isNone && decide (ivLimit s ci < limit) &&
        ! (s.rope.sent.any fun x => match x.2.body with | .ivReserve n _ => n == connNum ci c | _ => false) then
      (order s (.ivReserve (connNum ci c) limit)).1
    else s
  | none => s

/-- Sends what may leave of a connection. -/
def pump (s : State) (ci : Nat) : State := reserveIv (pumpN ci 512 s) ci

/-- Sends what may leave of every connection (room in the egress hold, an advance of the order stream). -/
def pumpAll (s : State) : State := (tkeys s.conns).foldl pump s

/-! ## Messages of the part's own sequence: EVENT, PUSH, MGMT (R61, R116) -/

/-- Message check of a connection's outgoing messages (R74). -/
def outCheck (c : Conn) (data : Bytes) : Option Bytes :=
  if c.checks ≥ 1 then some (beBytes 8 (crc64 data)) else none

/-- Queues a message of the part's sequence with its record in the order stream, and sends what may leave; none is ordered
once a HANDOVER has been sent (R334). Gives its MSN. `tag`: what waits for its acknowledgement. -/
def partMessage (s : State) (ci ty : Nat) (exts : List Ext) (data : Bytes) (tag : Nat) (rec : Nat × Nat × Nat)
    (seald : Bool := false) (avoid : Option Nat := none) : State × Nat :=
  match (if s.rope.handover.isSome && ty != tyMgmt then none else tget s.conns ci) with
  | none => (s, 0)
  | some c =>
    let msn := c.partMsn
    let o := if ty = tyMgmt then (s, 0)
      else orderIf s (.partMsg (connNum ci c) msn rec.1 rec.2.1 rec.2.2 (ty == tyPush))
    let m : OutMsg := { ty := ty, msn := msn, exts := exts, data := data, sealIt := seald, mgmt := ty == tyMgmt,
                        chk := outCheck c data, gate := o.2, avoid := avoid }
    (pump (modConn o.1 ci fun c => { c with
      partMsn := msnAdd msn 1, respQ := c.respQ ++ [m], pushes := c.pushes ++ [(msn, tag)] }) ci, msn)

/-- What waits for an EVENT: a number above every chain slot, with the event code. -/
def evTag (code : Nat) : Nat := 2 ^ 32 + code

/-- An EVENT that has nowhere to go is written to the logbook (R116). -/
def undelivered (s : State) (code qual detail : Nat) : State := logEv s srcTmt .eventUndelivered noUnit [code, qual, detail]

/-- An EVENT on one connection (R116); nothing follows SHUTDOWN_IMMINENT (R117), and a Second sends none (R309). -/
def sendEvent (s : State) (ci code qual detail : Nat) (payload : Bytes := []) (avoid : Option Nat := none) : State :=
  if s.port.eventsOff || isSecond s || silent s then s
  else (partMessage s ci tyEvent [eventExt code qual detail] payload (evTag code) (code, qual, detail) false avoid).1

/-- A region or chain event: the owner connection if open, else the owner's event connection (R116). -/
def ownerEvent (s : State) (oconn ident code qual detail : Nat) (payload : Bytes := []) : State :=
  match connOf s oconn with
  | some c =>
    if c.st.isOpen then sendEvent s (connIdx oconn) code qual detail payload
    else match eventConn s ident with
      | some ci => sendEvent s ci code qual detail payload
      | none => undelivered s code qual detail
  | none => match eventConn s ident with
    | some ci => sendEvent s ci code qual detail payload
    | none => undelivered s code qual detail

/-- A device event goes to the event connection of every identity that has one (R116). -/
def deviceEvent (s : State) (code qual detail : Nat) (payload : Bytes := []) : State :=
  match ((s.conns.filter (·.2.st.isOpen)).map (·.2.ident)).eraseDups.filterMap (eventConn s) with
  | [] => if s.port.eventsOff || isSecond s then s else undelivered s code qual detail
  | cs => cs.foldl (fun s ci => sendEvent s ci code qual detail payload) s

/-- A port event goes to every connection with a path through the sub-port, on another path where one is open; with none it
has nowhere to go (R116). -/
def portEvent (s : State) (sub code detail : Nat) : State :=
  match s.conns.filter fun x => x.2.st.isOpen && x.2.paths.any fun p => p.2.sub == sub with
  | [] => if s.port.eventsOff || isSecond s || silent s then s else undelivered s code sub detail
  | cs => cs.foldl (fun s x =>
      sendEvent s x.1 code sub detail [] ((x.2.paths.find? fun p => p.2.sub == sub).map (·.1))) s

/-- A window that Table 3-7 reduced is advertised again on every open connection whose window has grown (R65): the rows
that show it are WINDOW_RESTORE's. -/
def windowGrew (s : State) (c : Conn) : Bool := c.reduced && windowOf s c == (256, 1048576)

end Sys2Proof.Machine
end

