-- ==== Sys2Proof/Machine/Slabs.lean ====
section
/-! DEFINITION. The slabs of the range (5, 8): its bytes, camp channels and translation, slabs and camp frames, poison, the
bivouac charge. -/

namespace Sys2Proof.Machine

/-! ## The bytes of the range -/

/-- Writes bytes from an address. -/
def memPut : List Host.Cell → Nat → Bytes → List Host.Cell
  | m, _, [] => m
  | m, a, b :: t => memPut (memSet m a b) (a + 1) t

/-- Reads `n` bytes from an address. -/
def memRead (m : List Host.Cell) (a : Nat) : Nat → Bytes
  | 0 => []
  | n + 1 => memGet m a :: memRead m (a + 1) n

/-- Bytes `a` to `a + n - 1` read 0 again. -/
def memDrop (m : List Host.Cell) (a n : Nat) : List Host.Cell := m.filter fun c => ! (decide (a ≤ c.1 ∧ c.1 < a + n))

/-- The bytes of the range from an address. -/
def rangeRead (s : State) (a n : Nat) : Bytes := memRead s.range.mem a n

/-! ## Slabs and objects -/

abbrev slabBytes : Nat := 16384
def slabOf (s : State) (n : Nat) : Slab := (tget s.range.slabs n).getD {}

/-! ## Camp channels and the DIMMs on them (R161 to R167) -/

def CampCh.dimms (x : CampCh) : Nat := x.spd.length
/-- The channel's DIMMs are alike (R162): the first speaks for them. -/
def CampCh.one (x : CampCh) : DimmSpd := x.spd.headD {}
/-- Ranks that train together on one DIMM (R184): its package ranks, or the two pseudo-channels behind each of them on an
MRDIMM (R163). -/
def dimmGroups (d : DimmSpd) : Nat := if d.mr then 2 * d.pkg else d.pkg
def CampCh.groups (x : CampCh) : Nat := (x.spd.map dimmGroups).sum
/-- Logical ranks of the channel: the dies of a 3DS stack are ranks of their own (R165). -/
def CampCh.ranks (x : CampCh) : Nat := (x.spd.map fun d => dimmGroups d * d.height).sum
/-- Installed capacity of the channel. -/
def CampCh.gib (x : CampCh) : Nat := (x.spd.map (·.gib)).sum
/-- The DIMM of a logical rank. -/
def CampCh.dimmOf (x : CampCh) (rank : Nat) : DimmSpd := x.spd.getD (rank * x.dimms / max 1 x.ranks) {}

/-- Rank bits, device width and live channels of the map in use. -/
def rankBits (s : State) : Nat :=
  match s.camp.liveMap.filterMap (fun c => tget s.camp.ch c) with
  | c :: _ => Nat.log2 c.ranks
  | [] => 0
def campX8 (s : State) : Bool :=
  match s.camp.liveMap.filterMap (fun c => tget s.camp.ch c) with
  | c :: _ => c.one.x8
  | [] => false
def campLoc (s : State) (cpa : Nat) : Dram := cpaLoc s.camp.liveMap (campX8 s) (rankBits s) cpa

/-- A camp access joins the queue of its subchannel (R169); a read that matches a queued write is served from the write
queue (R170). -/
def campAskAt (s : State) (write : Bool) (port : CampPort) (conn cls cpa : Nat) : State :=
  let d := campLoc s cpa
  let key := d.ch * 2 + d.sub
  let q := (tget s.camp.q key).getD {}
  let r : CampReq := { port := port, conn := conn, cpa := cpa, cls := cls, no := q.n }
  if write then { s with camp.q := tset s.camp.q key { q with wr := q.wr ++ [r], n := q.n + 1 } }
  else if (q.wr.take 64).any (·.cpa == cpa) then s
  else { s with camp.q := tset s.camp.q key { q with rd := q.rd ++ [r], n := q.n + 1 } }

/-! ## The translation table in camp (R120, R164) -/

/-- The camp address of the line of the table that holds a slab's entry: the table stands after the system area of 1 GiB. -/
def entryCpa (n : Nat) : Nat := 2 ^ 30 + n / 8 * 64

/-- A group of 8 entries comes to the end of the translation cache, which holds 786,432 groups (48 MiB). DESIGN CHOICE (log
entry 127): the group that was used longest ago leaves a full cache. -/
def cacheUse (s : State) (g : Nat) : State :=
  let l := s.range.tcache.filter (· != g)
  { s with range.tcache := (if l.length < 786432 then l else l.drop 1) ++ [g] }

/-- A slab is translated: its group is read from camp when the cache lacks it (Table 6-3, demand port). -/
def translate (s : State) (n : Nat) : State :=
  let s := if s.range.tcache.contains (n / 8) then s else campAskAt s false .demand 0 0 (entryCpa n)
  cacheUse s (n / 8)

/-- A translation entry changes: in the table, in the cache, and in the camp line that holds it (Table 6-3, demand port). -/
def setSlab (s : State) (n : Nat) (x : Slab) : State :=
  let s := { s with range.slabs := if x = {} then tdel s.range.slabs n else tset s.range.slabs n x }
  cacheUse (campAskAt s true .demand 0 0 (entryCpa n)) (n / 8)

/-- Slabs and lines that an extent touches. -/
def slabsOf (a len : Nat) : List Nat := if len = 0 then [] else span (a / 16384) ((a + len - 1) / 16384 + 1)
def linesOf (a len : Nat) : List Nat := if len = 0 then [] else span (a / 64) ((a + len - 1) / 64 + 1)

/-- Slabs of an object: whole slabs (R129). -/
def Obj.slabCount (o : Obj) : Nat := cdiv o.len 16384
def Obj.slabs (o : Obj) : List Nat := span (o.base / 16384) (o.base / 16384 + o.slabCount)

/-- The object that holds a slab. -/
def objOfSlab (s : State) (n : Nat) : Option (Nat × Obj) :=
  s.tables.objects.find? fun x => decide (x.2.base / 16384 ≤ n ∧ n < x.2.base / 16384 + x.2.slabCount)

def objAt (s : State) (a : Nat) : Option (Nat × Obj) := objOfSlab s (a / 16384)

abbrev mirUnroped : Nat := 0
abbrev mirRoped : Nat := 1
abbrev mirPublished : Nat := 2

/-- Attributes of a slab, which follow its object (R125). -/
def slabRoped (s : State) (n : Nat) : Bool := match objOfSlab s n with | some (_, o) => o.mirror == mirRoped | none => false
def slabPublished (s : State) (n : Nat) : Bool := match objOfSlab s n with | some (_, o) => o.mirror == mirPublished | none => false
def slabSealed (s : State) (n : Nat) : Bool := match objOfSlab s n with | some (_, o) => o.sealed_.isSome | none => false
def slabPin (s : State) (n : Nat) : Bool := match objOfSlab s n with | some (_, o) => decide (o.cls ≤ 1) | none => false

/-- States in which camp holds the slab (RES of Table 5-2). -/
def SlabSt.resident : SlabSt → Bool
  | .partial_ | .dirty | .clean | .destaging => true
  | _ => false

/-- States that are charged to the budget (R136). -/
def SlabSt.charged : SlabSt → Bool
  | .partial_ | .dirty | .destaging => true
  | _ => false

/-- The translation entry of a slab as the word of Table 5-1. -/
def entryWord (s : State) (n : Nat) : Nat :=
  let x := slabOf s n
  let b (c : Bool) (k : Nat) : Nat := if c then 2 ^ k else 0
  b (x.st == .unwritten) 63 + b (x.st == .partial_) 62 + b x.st.resident 61 + b x.st.charged 60 + b (slabRoped s n) 59
    + b (slabSealed s n) 58 + b x.pois 57 + b (slabPin s n) 56 + b (x.st == .promoting || x.st == .destaging) 55
    + x.frame % 2 ^ 21 * 2 ^ 34 + (match x.vloc with | some v => v % 2 ^ 34 | none => 2 ^ 34 - 1)

/-! ## Camp frames (R123) -/

/-- Installed camp capacity in GiB: the DIMMs of the live channels (R163, R167). -/
def campGib (s : State) : Nat := (s.camp.liveMap.map fun c => ((tget s.camp.ch c).map (·.gib)).getD 0).sum

def rangeGib (s : State) : Nat := getF s Reg.campRangeCfgRangeGib
def budgetGib (s : State) : Nat := getF s Reg.campRangeCfgBudgetGib

/-- Frames before the pool: the translation reserve (R16) and the system area. -/
def poolBase (s : State) : Nat := rangeGib s * 32 + 65536

/-- Frames of each of the 256 partitions. -/
def partFrames (s : State) : Nat := (campGib s * 65536 - poolBase s) / 256

/-- Pool frames in use in a partition, by index. -/
def framesUsed (s : State) (part : Nat) : List Nat :=
  (s.range.slabs.filter fun x => x.1 % 256 == part && (x.2.st.resident || x.2.st == .promoting)).map (·.2.frame) ++
    (s.camp.moves.filter fun x => x.1 % 256 == part).map (·.2) ++
    (s.range.leaving.filter fun x => x.1 % 256 == part).map (·.2.1)

/-- Frames of a partition taken out of use (R191, and Table 8-10 for a lost translation group), by index. -/
def framesRetired (s : State) (part : Nat) : List Nat :=
  (((tkeys s.camp.retired ++ s.code.lostFrames).eraseDups.filter fun f => f % 256 == part).map (· / 256)).filter fun f =>
    ! (framesUsed s part).contains f

def freeFrames (s : State) (part : Nat) : Nat :=
  partFrames s - (framesUsed s part).length - (framesRetired s part).length

/-- Slabs of partition `p` among `k` slabs from `f`. -/
def slabsIn (f k p : Nat) : Nat := (k + 255 - (p + 256 - f % 256) % 256) / 256

/-- Frames of a partition reserved for slabs of pinned objects that have none yet (R131). -/
def pinnedMissing (s : State) (part : Nat) : Nat :=
  ((s.tables.objects.filter fun x => decide (x.2.cls ≤ 1)).map fun x => slabsIn (x.2.base / 16384) x.2.slabCount part).sum -
    s.range.slabs.countP fun x => x.1 % 256 == part && (x.2.st.resident || x.2.st == .promoting) && slabPin s x.1

/-- A frame of the pool is free for a slab (R123): of those reserved for pinned objects only such an object takes one (R131). -/
def frameFree (s : State) (n : Nat) : Bool :=
  decide ((if slabPin s n then 0 else pinnedMissing s (n % 256)) < freeFrames s (n % 256))

/-- Whether a write may reach a slab's entry: where it takes a frame, one is free. -/
def frameOk (s : State) (n : Nat) : Bool := (slabOf s n).st.resident || frameFree s n

/-- The lowest index not in a list, from `n` (`fuel` numbers are tried). -/
def lowestNotIn (l : List Nat) (n : Nat) : Nat → Nat
  | 0 => n
  | fuel + 1 => if l.contains n then lowestNotIn l (n + 1) fuel else n

/-- The frame a slab takes: the part's pick among the free ones (log entry 3). -/
def pickFrame (s : State) (n : Nat) : Nat :=
  let used := framesUsed s (n % 256) ++ framesRetired s (n % 256)
  let want := freeVal s % max 1 (partFrames s)
  if used.contains want then lowestNotIn used 0 (used.length + 1) else want

/-- The camp physical address of a line of a resident slab. -/
def cpaOf (s : State) (line : Nat) : Nat :=
  let n := line / 256
  (poolBase s + (slabOf s n).frame * 256 + n % 256) * 16384 + line % 256 * 64

/-- A camp access to a line of the range. -/
def campAsk (s : State) (write : Bool) (port : CampPort) (conn cls line : Nat) : State :=
  campAskAt s write port conn cls (cpaOf s line)

/-- The part's own reads or writes of lines that camp holds, through one of its ports (Table 6-3). -/
def campLines (s : State) (write : Bool) (port : CampPort) (cls : Nat) (l : List Nat) : State :=
  (l.filter fun n => (slabOf s (n / 256)).st.resident).foldl (fun s n => campAsk s write port 0 cls n) s

/-! ## Poison (R235 to R238) -/

def lineBad (s : State) (line : Nat) : Bool := s.range.poison.contains line

/-- A line becomes poisoned: its summit line, its list entry and its slab's POIS bit (R238). -/
def poisonLine (s : State) (line : Nat) : State :=
  let s := if lineBad s line then s else { s with range.poison := s.range.poison ++ [line] }
  let n := line / 256
  let x := slabOf s n
  if x.st == .unwritten then s else setSlab s n { x with pois := true }

def cleanLine (s : State) (line : Nat) : State := { s with range.poison := s.range.poison.filter (· != line) }

/-! ## The bivouac charge (R97, R136) -/

def budgetSlabs (s : State) : Nat := budgetGib s * 65536

/-- Whether a slab is charged already, by a reservation or by its state. -/
def isCharged (s : State) (n : Nat) : Bool := s.range.dirtyList.contains n

/-- The bivouac budget in use, in whole MiB: 64 slabs of 16 KiB are one. -/
def budgetUsedMib (s : State) : Nat := s.range.dirtyList.length / 64

/-- Shows the charge in MiB. -/
def showBudget (s : State) : State := setF s Reg.campRangeStatusBudgetUsedMib (budgetUsedMib s)

def charge (s : State) (n : Nat) : State :=
  if isCharged s n then s else showBudget { s with range.dirtyList := s.range.dirtyList ++ [n] }

def uncharge (s : State) (n : Nat) : State :=
  showBudget { s with range.dirtyList := s.range.dirtyList.filter (· != n) }

/-- The percent of R117, with a budget that is not 0. -/
def budgetPct (s : State) : Nat := getF s Reg.campRangeStatusBudgetUsedMib * 100 / (budgetGib s * 1024)

/-- BUDGET_PRESSURE and BUDGET_CLEARED (R117). -/
def budgetCheck (s : State) : State :=
  if budgetGib s = 0 then s
  else
    let pct := budgetPct s
    let warn := getF s Reg.hpOpCfgBudgetWarnPct
    if ! s.ops.warned && decide (pct ≥ warn) then
      deviceEvent { s with ops.warned := true } 0x0405 pct (budgetGib s * 1024)
    else if s.ops.warned && decide (pct + 10 ≤ warn) then
      deviceEvent { s with ops.warned := false } 0x0406 pct (budgetGib s * 1024)
    else s

/-- Write-through holds in place of the budget (R137, R363). -/
def writeThrough (s : State) : Bool := budgetGib s == 0 || isSet s Reg.seqStatusWriteThrough

/-- Slabs of an extent that a reservation must charge. -/
def uncharged (s : State) (a len : Nat) : List Nat := (slabsOf a len).filter fun n => ! isCharged s n

/-! ## Segments (R156, R158) -/

def segOf (n : Nat) : Nat := n / 65536
def segBuilt (s : State) (g : Nat) : Bool := isSet s Reg.campRangeStatusRebuildDone || s.range.built.contains g

end Sys2Proof.Machine
end

