-- ==== Sys2Proof/Machine/Nand.lean ====
section
/-! DEFINITION. The valley as stored (7): the population and its system areas, the work of the dies, stripes and their parity,
pages, the valley root, erase intents, journal, segment images, table log, relocation, wear and retirement. -/

namespace Sys2Proof.Machine

/-! ## The population (R195 to R197, R200) -/

/-- TLC pages per block, P, and P × L of R197. -/
def nandP (s : State) : Nat := max 1 ((s.val.dev.map (·.pages)).getD 384)
def ppb (s : State) : Nat := max 1 ((s.val.dev.map fun d => d.pages * d.planes).getD 768)

/-- PE_RATED of the device profile (Table 7-1a). -/
def peRated (s : State) : Nat := max 1 ((s.val.prof.map (·.rated)).getD 1000)

/-- The used blocks of a die: those whose pages a VLOC can name (R197). -/
def dieBlocks (s : State) : Nat := min (2 ^ 24) (((s.val.dev.map (·.gib)).getD 0) * 65536) / ppb s

/-- Dies on each channel (R197). -/
def diesPerCh (s : State) : Nat := s.val.ces * s.val.perCe

/-- Raw valley capacity, in pages of 16 KiB and in GiB: the used blocks of every die that is not failed (R200). -/
def rawPages (s : State) : Nat := (32 * diesPerCh s - s.val.dies.countP (·.2.failed)) * (dieBlocks s * ppb s)
def valleyRawGib (s : State) : Nat := rawPages s / 65536

/-! ## Places in the valley (R122, R197) -/

/-- Fields of a VLOC: channel, die position on it, page index; and its chip position (channel × 32 + die position). -/
def vCh (v : Nat) : Nat := v / 2 ^ 29 % 32
def vPos (v : Nat) : Nat := v / 2 ^ 24 % 32
def vPage (v : Nat) : Nat := v % 2 ^ 24
def vDie (v : Nat) : Nat := v / 2 ^ 24 % 1024
def mkVloc (ch pos pg : Nat) : Nat := (ch * 32 + pos) * 2 ^ 24 + pg

/-- Page and plane within the block of a place (R197). -/
def vPageNo (s : State) (v : Nat) : Nat := vPage v % nandP s
def vPlane (s : State) (v : Nat) : Nat := vPage v / nandP s % max 1 ((s.val.dev.map (·.planes)).getD 2)

/-- A block address: channel, die position, block number (R197). -/
def blockOn (ch pos no : Nat) : Nat := ch + pos / 4 * 32 + pos % 4 * 256 + no * 1024
def blockAt (s : State) (ch pos pg : Nat) : Nat := blockOn ch pos (pg / ppb s)
def vBlock (s : State) (v : Nat) : Nat := blockAt s (vCh v) (vPos v) (vPage v)

/-- The chip position of a block address. -/
def blockDie (b : Nat) : Nat := b % 32 * 32 + b / 32 % 8 * 4 + b / 256 % 4

def dieOf (s : State) (d : Nat) : Die := (tget s.val.dies d).getD {}
def setDie (s : State) (d : Nat) (x : Die) : State := { s with val.dies := tset s.val.dies d x }
def blockOf (s : State) (b : Nat) : Block := (tget s.val.blocks b).getD {}
def setBlock (s : State) (b : Nat) (x : Block) : State := { s with val.blocks := tset s.val.blocks b x }

/-- A die is read through its stripes: it is failed, or its channel re-initialises (R212). -/
def dieDown (s : State) (d : Nat) : Bool := (dieOf s d).failed || getF s (Reg.valNvStatusState (d / 32)) == 3

/-! ## The system areas (R205, R215 to R221; Table 7-3) -/

/-- Pages of an SLC-mode block, a third of its TLC pages; data pages of a row of blocks: one on every channel, of which one
holds parity (R198, R220). -/
def slcPages (s : State) : Nat := max 1 (ppb s / 3)
def rowPages (s : State) : Nat := 31 * slcPages s

/-- Rows of blocks of the areas: 0 journal, 1 and 2 the erase-intent sets, 3 logbook, 4 checkpoint directory, 5 table log, 6 and
7 table images, 8 bivouac region. DESIGN CHOICE (log entry 130): in this order, from block number 2 on, over the die positions
in turn; the bivouac region, whose size changes, stands last. -/
def areaRows (s : State) : List Nat :=
  let rows (pages : Nat) : Nat := cdiv pages (rowPages s)
  let budget := (s.val.root.map (·.budgetGib)).getD (budgetGib s)
  [rows 262144, 1, 1, rows 1024, rows (cdiv (rangeGib s * 8) 16384), rows 262144, rows 131072, rows 131072, rows ((budget + 1) * 65536)]

/-- First row of an area; the block of a row on a channel; an area's first block address and its blocks. -/
def areaRow (s : State) (k : Nat) : Nat := ((areaRows s).take k).sum
def rowBlock (s : State) (r ch : Nat) : Nat :=
  let n := max 1 (diesPerCh s)
  let p := r % n
  blockOn ch (p / max 1 s.val.perCe * 4 + p % max 1 s.val.perCe) (2 + r / n)
def areaFirst (s : State) (k : Nat) : Nat := rowBlock s (areaRow s k) 0
def areaBlocks (s : State) (k : Nat) : Nat := 32 * (areaRows s).getD k 0

/-- Whether a block belongs to the system: the root's blocks 0 and 1 of die position 0 on NV00 to NV03 (R215), and the rows of
the areas. No VLOC names such a block. -/
def isSys (s : State) (b : Nat) : Bool :=
  let no := b / 1024
  if no < 2 then b / 32 % 8 == 0 && b / 256 % 4 == 0 && decide (b % 32 < 4)
  else decide ((no - 2) * diesPerCh s + (b / 32 % 8 * s.val.perCe + b / 256 % 4) < (areaRows s).sum)

/-! ## The work of a die (R203, R204) -/

/-- Rank of work in the order of R203. -/
def DieWork.rank : DieWork → Nat
  | .read r _ => r
  | .prog _ => 4
  | .erase _ => 5

/-- What a free die takes next: the lowest rank, the oldest of one rank; the oldest program or erase counts as rank 2 once it has
waited 5 ms. -/
def nextWork (d : Die) : Option DieWork :=
  let slow := d.wait.find? fun w => decide (4 ≤ w.rank)
  let rk (w : DieWork) : Nat := if d.raised && slow == some w then 2 else w.rank
  d.wait.foldl (fun b w => match b with
    | some x => if rk w < rk x then some w else b
    | none => some w) none

/-- A free die takes its work: reads in their order, up to the next program or erase, which it starts (`fuel` bounds the
reads). What a read delivers comes with the command of its own. -/
def Die.go : Nat → Die → Die
  | 0, x => x
  | fuel + 1, x =>
    match x.run, nextWork x with
    | none, some (.read r v) => Die.go fuel { x with wait := x.wait.erase (.read r v) }
    | none, some w => { x with run := some w, wait := x.wait.erase w, suspends := 0, raised := false }
    | _, _ => x

/-- Work for a die; its end. -/
def dieAsk (s : State) (d : Nat) (w : DieWork) : State :=
  let x := dieOf s d
  setDie s d (Die.go (x.wait.length + 2) { x with wait := x.wait ++ [w] })
def dieEnd (s : State) (d : Nat) (w : DieWork) : State :=
  let x := dieOf s d
  if x.run = some w then setDie s d (Die.go (x.wait.length + 1) { x with run := none })
  else setDie s d { x with wait := x.wait.erase w }

/-- A program is the work in progress of its die; one that still waits cannot have ended (R203). -/
def progRuns (s : State) (v : Nat) : Bool := (dieOf s (vDie v)).run == some (.prog v)

/-- Whether a read of a place waits for its die. -/
def readWaits (s : State) (v : Nat) : Bool := (dieOf s (vDie v)).wait.any fun w => match w with | .read _ x => x == v | _ => false

/-- Every die drops its work: a stop, or the bivouac, which takes every die for its own programs (R203). -/
def diesFree (v : Valley) : Tab Die := v.dies.map fun x => (x.1, { x.2 with run := none, wait := [], raised := false, suspends := 0 })

/-- A program or erase of the die may be suspended once more: SUSPEND_EN, a profile that allows it, and fewer than 4 so far
(R204). -/
def canSuspend (s : State) (x : Die) : Bool :=
  isSet s Reg.valCfgSuspendEn && ((s.val.prof.map (·.suspend)).getD false) && decide (x.suspends < 4)

/-- Whether a die is programming or erasing. -/
def dieSlow (x : Die) : Bool := match x.run with | some w => decide (4 ≤ w.rank) | none => false

/-- A valley-direct read of a slab finds its die free, or suspends what it does; else it waits for that to end (R204). -/
def directOk (s : State) (n : Nat) : Bool :=
  match (slabOf s n).vloc with
  | some v => dieDown s (vDie v) || ! dieSlow (dieOf s (vDie v)) || canSuspend s (dieOf s (vDie v))
  | none => true

/-- The programs and erases that a valley-direct read finds on the dies of its slabs are suspended, and resumed after it. -/
def suspendFor (s : State) (slabs : List Nat) : State :=
  (((slabs.filterMap fun n => (slabOf s n).vloc).map vDie).eraseDups.filter fun d => ! dieDown s d && dieSlow (dieOf s d)).foldl
    (fun s d => setDie s d { dieOf s d with suspends := (dieOf s d).suspends + 1 }) s

/-! ## Stripes (R198, R199) -/

/-- A channel takes part in the stripe of a die position and page index (R198). -/
def stripeLive (s : State) (pos pg ch : Nat) : Bool :=
  ! (dieOf s (ch * 32 + pos)).failed && ! (blockOf s (blockAt s ch pos pg)).retired

def stripeChs (s : State) (pos pg : Nat) : List Nat := (List.range 32).filter (stripeLive s pos pg)

/-- The channel of a stripe's parity page (R198). -/
def parityCh (s : State) (pos pg : Nat) : Option Nat :=
  ((List.range 32).map fun i => (pg / ppb s + pos + i) % 32).find? (stripeLive s pos pg)

/-- The stripe of a place: page index × 32 + die position; its places. -/
def stripeOf (v : Nat) : Nat := vPage v * 32 + vPos v
def stripeVlocs (k : Nat) : List Nat := (List.range 32).map fun c => mkVloc c (k % 32) (k / 32)

/-- XOR of two pages, byte by byte with their metadata (R198, R214). -/
def cellsXor (a b : List Host.Cell) : List Host.Cell := b.foldl (fun m c => memSet m c.1 (memGet m c.1 ^^^ c.2)) a
def Page.xor (a b : Page) : Page :=
  { kind := Nat.xor a.kind b.kind, slab := Nat.xor a.slab b.slab, seq := Nat.xor a.seq b.seq, data := cellsXor a.data b.data,
    poison := (List.range 256).filter fun i => a.poison.contains i != b.poison.contains i,
    roped := a.roped != b.roped, sealed_ := a.sealed_ != b.sealed_ }

/-- XOR of the programmed pages of a page's stripe but itself: what a die-parity rebuild gives (R199, R202). An open stripe's
running parity stands for its parity page. -/
def rebuildPage (s : State) (v : Nat) : Page :=
  let k := stripeOf v
  let others := ((stripeVlocs k).filter (· != v)).filterMap fun w => tget s.val.pages w
  let base : Page := match tget s.val.stripes k with | some x => x.sum | none => { kind := 0 }
  others.foldl Page.xor base

/-- The rest of a page's stripe can be read: no other member stands on a die that is down, and its parity page is programmed or
its stripe open (R202, R212). -/
def stripeSound (s : State) (v : Nat) : Bool :=
  let k := stripeOf v
  let own := ((tget s.val.pages v).map (·.parity)).getD false
  let others := (stripeVlocs k).filter fun w => w != v && thas s.val.pages w
  (others.all fun w => ! dieDown s (vDie w)) &&
  (own || thas s.val.stripes k || others.any fun w => ((tget s.val.pages w).map (·.parity)).getD false)

/-- A page as it can be read: rebuilt from its stripe where its die is down. -/
def readPage (s : State) (v : Nat) : Option Page :=
  match tget s.val.pages v with
  | some p => if ! dieDown s (vDie v) then some p else if stripeSound s v then some (rebuildPage s v) else none
  | none => none

/-! ## Wear (Table 7-5) -/

/-- Mean of percentages; 100 before any was measured. -/
def meanPct (l : List Nat) : Nat := if l.isEmpty then 100 else l.sum / l.length

/-- The last `k` of a list with one more. -/
def lastK {α : Type} (k : Nat) (l : List α) (x : α) : List α := let l := l ++ [x]; l.drop (l.length - k)

/-- Codeword reads of a die in the last 24 h, and those at L2 or above. -/
def dieReads (s : State) (d : Die) : Nat × Nat :=
  let h := s.timebase / sec 3600
  let w := d.hist.filter fun x => decide (h < x.1 + 24)
  ((w.map (·.2.1)).sum, (w.map (·.2.2)).sum)

/-- Soft-decode rate per 10^6 codeword reads. -/
def softRate (s : State) (d : Die) : Nat := let r := dieReads s d; r.2 * 1000000 / max 1 r.1

/-- Mean erase count of a die's data blocks in percent of PE_RATED. -/
def lifePct (s : State) (d : Die) : Nat := d.erases * 100 / (max 1 (dieBlocks s) * peRated s)

/-! ## Places for data pages (R197 to R199, R205) -/

/-- A free block: erased, usable, no part of a system area, and with no program on its way to it. -/
def freeBlock (s : State) (b : Nat) : Bool :=
  let x := blockOf s b
  x.erased && ! x.retired && ! x.retiring && x.intent.isNone && ! isSys s b && ! s.val.progs.any fun p => vBlock s p.1 == b

/-- No free block of the place's die has a lower erase count than the place's own block (R205). -/
def leastErased (s : State) (v : Nat) : Bool :=
  let e := (blockOf s (vBlock s v)).erases
  e == 0 || (List.range (dieBlocks s)).all fun k =>
    let b := blockOn (vCh v) (vPos v) k
    ! freeBlock s b || decide (e ≤ (blockOf s b).erases)

/-- A torn page and every page after it in its block are unusable (R222, V5). -/
def pageUsable (s : State) (v : Nat) : Bool :=
  ! s.val.torn.any fun t => vBlock s t == vBlock s v && decide (vPageNo s t ≤ vPageNo s v)

/-- A place that may take a data page: an existing die position, a free page of a data block in use, a stripe that is open or
may be opened (64 at once, at least 17 live channels), not its parity page (R197 to R199). A stripe that would open in a
free block takes the least-erased one of its die (R205). -/
def placeOk (s : State) (v : Nat) : Bool :=
  let pos := vPos v; let pg := vPage v; let ch := vCh v; let b := blockOf s (vBlock s v)
  decide (pos / 4 < s.val.ces ∧ pos % 4 < s.val.perCe ∧ pg / ppb s < dieBlocks s ∧ v < 2 ^ 34 - 1) && ! isSys s (vBlock s v) &&
  stripeLive s pos pg ch && ! b.retiring && b.intent.isNone && parityCh s pos pg != some ch &&
  decide (17 ≤ (stripeChs s pos pg).length) && ! thas s.val.pages v && ! thas s.val.progs v && pageUsable s v &&
  (match parityCh s pos pg with | some c => ! thas s.val.pages (mkVloc c pos pg) | none => false) &&
  (match tget s.val.stripes (stripeOf v) with
   | some x => ! x.closing
   | none => decide (s.val.stripes.length < 64) && (! freeBlock s (vBlock s v) || leastErased s v))

/-- Place `i` in an order that takes channels first, then die positions, then pages. -/
def placeNo (s : State) (i : Nat) : Nat :=
  let k := i / 32
  let n := max 1 (diesPerCh s)
  let p := k % n
  mkVloc (i % 32) (p / max 1 s.val.perCe * 4 + p % max 1 s.val.perCe) (k / n)

/-- The first place from number `i` that `ok` accepts (`fuel` places are tried). -/
def firstPlace (s : State) (ok : Nat → Bool) (i : Nat) : Nat → Option Nat
  | 0 => none
  | fuel + 1 => if ok (placeNo s i) then some (placeNo s i) else firstPlace s ok (i + 1) fuel

/-- Blocks of a die that has passed its rated erase count are allocated only after those of less-worn dies (Table 7-5). -/
def unworn (s : State) (v : Nat) : Bool := placeOk s v && decide (lifePct s (dieOf s (vDie v)) < 100)

/-- Where the next data page goes: the part's choice (R205; log entry 3). -/
def pickPlace (s : State) : Option Nat :=
  let want := freeVal s % 2 ^ 34
  let fuel := 32 * diesPerCh s * (dieBlocks s * ppb s)
  if unworn s want then some want
  else match firstPlace s (unworn s) 0 fuel with
    | some v => some v
    | none => if placeOk s want then some want else firstPlace s (placeOk s) 0 fuel

/-! ## Pages -/

/-- A slab as camp holds it, for a page of a kind (Table 7-6): data, poison mask, attributes. -/
def slabPage (s : State) (n kind : Nat) : Page :=
  { kind := kind, slab := n, seq := s.val.wseq,
    data := (s.range.mem.filter fun c => c.1 / 16384 == n).map fun c => ⟨c.1 % 16384, c.2⟩,
    poison := (s.range.poison.filter (· / 256 == n)).map (· % 256), roped := slabRoped s n, sealed_ := slabSealed s n }

/-- A page's bytes and poison stand for its slab. -/
def loadPage (s : State) (n : Nat) (p : Page) : State :=
  let m := memDrop s.range.mem (n * 16384) 16384
  { s with range.mem := p.data.foldl (fun m c => memSet m (n * 16384 + c.1) c.2) m,
           range.poison := (s.range.poison.filter (· / 256 != n)) ++ p.poison.map (n * 256 + ·) }

/-- A program waits for its die (R203). -/
def startProg (s : State) (v : Nat) (k : ProgKind) : State :=
  dieAsk { s with val.progs := tset s.val.progs v k, val.wseq := s.val.wseq + 1 } (vDie v) (.prog v)

/-- A program leaves the list of those under way. -/
def progGone (s : State) (v : Nat) : State := dieEnd { s with val.progs := tdel s.val.progs v } (vDie v) (.prog v)

/-- A page is programmed; its block is no longer erased. -/
def putPage (s : State) (v : Nat) (p : Page) : State :=
  let s := progGone s v
  setBlock { s with val.pages := tset s.val.pages v p } (vBlock s v) { blockOf s (vBlock s v) with erased := false }

/-- A page counts in its stripe's running parity. -/
def inStripe (s : State) (v : Nat) : State :=
  let k := stripeOf v
  let st := (tget s.val.stripes k).getD { openedAt := s.timebase }
  { s with val.stripes := tset s.val.stripes k { st with
      pages := st.pages ++ [vCh v], sum := st.sum.xor ((tget s.val.pages v).getD { kind := 0 }) } }

/-- A stripe ends: its parity page holds the XOR of its pages (R198), if a channel for it is left. -/
def endStripe (s : State) (k : Nat) : State :=
  match parityCh s (k % 32) (k / 32), tget s.val.stripes k with
  | some c, some x =>
    let s := putPage s (mkVloc c (k % 32) (k / 32)) { x.sum with parity := true }
    { s with val.stripes := tdel s.val.stripes k, val.wseq := s.val.wseq + 1 }
  | _, _ => { s with val.stripes := tdel s.val.stripes k }

/-- Pad pages on the channels of a stripe that have no page (R199). -/
def padStripe (s : State) (k : Nat) : State :=
  let pos := k % 32; let pg := k / 32
  ((stripeChs s pos pg).filter fun c => parityCh s pos pg != some c && ! thas s.val.pages (mkVloc c pos pg) &&
      pageUsable s (mkVloc c pos pg)).foldl (fun s c =>
    let v := mkVloc c pos pg
    inStripe { putPage s v { kind := 12, seq := s.val.wseq } with val.wseq := s.val.wseq + 1 } v) s

/-- Whether programs are under way in a stripe. -/
def stripeBusy (s : State) (k : Nat) : Bool := s.val.progs.any fun p => stripeOf p.1 == k

/-- A stripe is closed with pad pages and its parity page, once the programs under way in it have ended (R199). -/
def closeStripe (s : State) (k : Nat) : State :=
  if stripeBusy s k then { s with val.stripes := tmod s.val.stripes k fun x => { x with closing := true } }
  else endStripe (padStripe s k) k

/-- A data page joins its stripe; after the last data page the parity page is programmed (R199). -/
def joinStripe (s : State) (v : Nat) : State :=
  let s := inStripe s v
  let k := stripeOf v
  let st := (tget s.val.stripes k).getD {}
  if st.closing && ! stripeBusy s k then closeStripe s k
  else match parityCh s (vPos v) (vPage v) with
    | some c =>
      if (stripeChs s (vPos v) (vPage v)).all fun x => x == c || st.pages.contains x then
        startProg s (mkVloc c (vPos v) (vPage v)) (.parity k)
      else s
    | none => s

/-- The segment image whose 32 pages hold a place (R217). -/
def imageAt (s : State) (v : Nat) : Option SegImage := (s.val.images.find? fun x => decide (x.1 ≤ v ∧ v < x.1 + 32)).map (·.2)

/-- A page is in use: a translation entry names it, or a durable entry of a segment that is not yet built, or a segment image
holds it. -/
def pageValid (s : State) (v : Nat) : Bool :=
  s.range.slabs.any (fun x => x.2.vloc == some v) ||
  (s.val.entries.any fun x => x.2.vloc == some v && ! segBuilt s (segOf x.1)) || (imageAt s v).isSome

/-- A parity page is in use while a page of its stripe is (R207). -/
def pageLive (s : State) (x : Nat × Page) : Bool :=
  if x.2.parity then (stripeVlocs (stripeOf x.1)).any fun w => w != x.1 && pageValid s w else pageValid s x.1

/-- Valid pages of a block, and of a die. -/
def validPages (s : State) (b : Nat) : List Nat := ((s.val.pages.filter fun x => vBlock s x.1 == b).filter (pageLive s)).map (·.1)
def diePagesLive (s : State) (d : Nat) : List Nat := ((s.val.pages.filter fun x => vDie x.1 == d).filter (pageLive s)).map (·.1)

/-- The slab that a page holds. -/
def slabAt (s : State) (v : Nat) : Option Nat := (s.range.slabs.find? fun x => x.2.vloc == some v).map (·.1)

/-! ## The valley root (R215) -/

/-- The root as it now stands: sizes, areas, failed dies. -/
def rootNow (s : State) (r : Root) : Root :=
  { r with
    seq := r.seq + 1, rangeGib := rangeGib s, budgetGib := budgetGib s,
    jrnlFirst := areaFirst s 0, jrnlBlocks := areaBlocks s 0, logFirst := areaFirst s 3, dir := areaFirst s 4,
    tblFirst := areaFirst s 5, tblBlocks := areaBlocks s 5 + areaBlocks s 6 + areaBlocks s 7,
    bivFirst := areaFirst s 8, bivBlocks := areaBlocks s 8,
    failedDies := (s.val.dies.filter (·.2.failed)).map (·.1) }

/-- An erase-intent record is programmed into the current set (R219). -/
def logIntent (s : State) (b reason : Nat) : State :=
  let cur := (s.val.root.map (·.intentSet)).getD 0
  let n := s.val.intentSeq + 1
  { s with val.intentSeq := n,
           val.intents := tset s.val.intents cur ((tget s.val.intents cur).getD [] ++ [{ block := b, reason := reason, seq := n }]) }

/-- The erase-done record of an intent (R219). -/
def intentDone (s : State) (n : Nat) : State :=
  { s with val.intents := s.val.intents.map fun x => (x.1, x.2.map fun i => if i.seq = n then { i with done := true } else i) }

/-- A block of a system area is erased: intent, erase, done record. -/
def eraseSys (reason : Nat) (s : State) (b : Nat) : State :=
  let s := logIntent s b reason
  setBlock (intentDone s s.val.intentSeq) b { blockOf s b with erases := (blockOf s b).erases + 1, erased := true }

/-- The same record goes into the next page of the current block on NV00 to NV03; when the block is full the other one is
erased and taken (R215). -/
def programRoot (s : State) (r : Root) : State :=
  let s := if s.val.rootPages < slcPages s then { s with val.rootPages := s.val.rootPages + 1 }
    else
      let k := 1 - s.val.rootBlk
      let s := (List.range 4).foldl (fun s c => eraseSys 3 s (blockOn c 0 k)) s
      { s with val.rootBlk := k, val.rootPages := 1, val.rootMedia := s.val.rootMedia.map fun x => (x.1, x.2.filter (·.1 != k)) }
  let put (m : Tab (List (Nat × Root))) (c : Nat) : Tab (List (Nat × Root)) :=
    if (dieOf s (c * 32)).failed then m else tset m c ((tget m c).getD [] ++ [(s.val.rootBlk, r)])
  { s with val.root := some r, val.rootMedia := (List.range 4).foldl put s.val.rootMedia, val.wseq := s.val.wseq + 1 }

/-- The root record is programmed again. -/
def writeRoot (s : State) (stop : Nat) : State :=
  match s.val.root with
  | some r => programRoot s { rootNow s r with stop := stop }
  | none => s

/-- What the root says of the last stop. -/
def rootStop (s : State) : Nat := (s.val.root.map (·.stop)).getD 0

/-- The copy with the highest sequence among those whose CRC holds; `bad` names the others by channel and sequence (R215). -/
def bestRoot (s : State) (bad : List (Nat × Nat)) : Option Root :=
  (s.val.rootMedia.flatMap fun x => (x.2.filter fun r => ! bad.contains (x.1, r.2.seq)).map (·.2)).foldl
    (fun b r => match b with | some x => if x.seq < r.seq then some r else b | none => some r) none

/-! ## Erases (R207, R219) -/

/-- Room in the current erase-intent set, whose records and done records take a page each: when it is full a root update names
the other set, which takes over what is not done, and then the full one is erased (R219). -/
def intentRoom (s : State) : State :=
  match s.val.root with
  | none => s
  | some r =>
    let cur := r.intentSet
    let l := (tget s.val.intents cur).getD []
    if 2 * l.length + 2 ≤ rowPages s then s
    else
      let s := programRoot s { rootNow s r with intentSet := 1 - cur }
      let s := { s with val.intents := tset (tdel s.val.intents cur) (1 - cur) (l.filter fun i => ! i.done) }
      (List.range 32).foldl (fun s c => eraseSys 3 s (rowBlock s (areaRow s (1 + cur)) c)) s

/-- A block may be erased when every page in it is released, every journal record that released them has been programmed, no
program touches it, and no operation that read it has yet to pass its release point (R207). -/
def erasable (s : State) (b : Nat) (x : Block) : Bool :=
  ! x.erased && ! x.retired && ! x.retiring && x.intent.isNone &&
  ! (s.val.stripes.any fun k => k.2.pages.any fun c => blockAt s c (k.1 % 32) (k.1 / 32) == b) &&
  ! (s.val.progs.any fun p => vBlock s p.1 == b || (match p.2 with | .relocate _ f _ => vBlock s f == b | _ => false)) &&
  ! (s.val.held.any (·.1 == b)) && ! (s.val.moved.any fun m => m.2 == b && (slabOf s m.1).st == .promoting) &&
  (validPages s b).isEmpty && ! (s.val.entries.any fun e => match e.2.vloc with | some v => vBlock s v == b | none => false)

/-- Erase-intent records for the blocks that may be erased, each before its erase (R219); a block of data that the bivouac region
has grown into is prepared for it. -/
def intendErases (s : State) : State :=
  s.val.blocks.foldl (fun s x =>
    if erasable s x.1 x.2 then
      let s := logIntent (intentRoom s) x.1 (if isSys s x.1 then 2 else 1)
      dieAsk (setBlock s x.1 { x.2 with intent := some s.val.intentSeq }) (blockDie x.1) (.erase x.1)
    else s) s

/-! ## Journal and segment images (R216, R217) -/

/-- The durable entry of a slab; none while it is UNWRITTEN. -/
def durOf (s : State) (n : Nat) : Option DurEntry :=
  let x := slabOf s n
  if x.st == .unwritten then none
  else some { unw := false, roped := slabRoped s n, sealed_ := slabSealed s n, pois := x.pois, pin := slabPin s n, vloc := x.vloc }

/-- A durable entry as the word of Table 5-1, with PART, RES, DIRTY, MIG and CFRAME zero (R216). -/
def durWord (e : Option DurEntry) : Nat :=
  match e with
  | none => 2 ^ 63 + (2 ^ 34 - 1)
  | some x =>
    x.roped.toNat * 2 ^ 59 + x.sealed_.toNat * 2 ^ 58 + x.pois.toNat * 2 ^ 57 + x.pin.toNat * 2 ^ 56 + x.vloc.getD (2 ^ 34 - 1)

/-- The bytes other than 0 of page `i` of a segment image: 2,048 entries of 8 bytes (R217). -/
def imageCells (e : Tab DurEntry) (g i : Nat) : List Host.Cell :=
  (List.range 2048).flatMap fun k =>
    ((leBytes 8 (durWord (tget e (g * 65536 + i * 2048 + k)))).zipIdx.filter (·.1 != 0)).map fun b => ⟨k * 8 + b.2, b.1⟩

/-- The first of 32 consecutive pages of one block that may all take a page (`fuel` runs are tried). -/
def firstRun (s : State) (i : Nat) : Nat → Option Nat
  | 0 => none
  | fuel + 1 =>
    let v := placeNo s (i % (32 * max 1 (diesPerCh s)) + i / (32 * max 1 (diesPerCh s)) * (32 * max 1 (diesPerCh s)) * 32)
    if vPageNo s v + 32 ≤ nandP s && s.val.stripes.length ≤ 32 && (List.range 32).all fun k => placeOk s (v + k) then some v
    else firstRun s (i + 1) fuel

/-- A new image of a segment is written, in TLC stripes (R205), and a kind 2 record names its block (R217). -/
def writeImage (s : State) (g : Nat) : State :=
  match firstRun s 0 (diesPerCh s * (dieBlocks s * ppb s)) with
  | none => s
  | some v =>
    let im : SegImage := { seg := g, seq := s.val.jnext - 1, entries := s.val.entries.filter fun x => segOf x.1 == g }
    let s := (List.range 32).foldl (fun s i =>
      let p : Page := { kind := 2, slab := g * 32 + i, seq := s.val.wseq, data := imageCells im.entries g i }
      joinStripe { putPage s (v + i) p with val.wseq := s.val.wseq + 1 } (v + i)) s
    { s with val.images := tset s.val.images v im, val.jopen := s.val.jopen ++ [.image g (vBlock s v)] }

/-- What a journal record does to the durable entries and the checkpoint directory; an image that a newer one replaces is
released. -/
def applyJrec (s : State) (r : JRec) : State :=
  match r with
  | .entry n e => { s with val.entries := tput s.val.entries n e }
  | .image g b =>
    let newest := (s.val.images.filter (·.2.seg == g)).foldl (fun m x => max m x.2.seq) 0
    { s with val.dir := tset s.val.dir g b, val.images := s.val.images.filter fun x => x.2.seg != g || x.2.seq == newest }
  | _ => s

/-- Cuts records into journal pages of 1,020 (`fuel` bounds the pages). -/
def jrnlPages : Nat → Nat → Nat → List JRec → List JPage
  | 0, _, _, _ => []
  | fuel + 1, seq, first, l =>
    if l.isEmpty then [] else { seq := seq, first := first, recs := l.take 1020 } :: jrnlPages fuel (seq + 1) (first + 1020) (l.drop 1020)

/-- The open records are programmed, into a ring of 262,144 pages (R216). -/
def programRecs (s : State) : State :=
  let l := s.val.jopen
  let pages := jrnlPages l.length s.val.jseq s.val.jnext l
  let all := s.val.jrnl ++ pages
  l.foldl applyJrec { s with
    val.jrnl := all.drop (all.length - 262144), val.jseq := s.val.jseq + pages.length, val.jnext := s.val.jnext + l.length,
    val.wseq := s.val.wseq + pages.length, val.jopen := [], val.jrnlSince := none }

/-- The checkpoint directory is rewritten whole each time the journal wraps (R217). -/
def wrapJournal (s : State) (old : Nat) : State :=
  if (old - 1) / 262144 = (s.val.jseq - 1) / 262144 then s else { s with val.dirMedia := s.val.dir, val.dirSeq := s.val.jnext - 1 }

/-- Before the oldest quarter of a full ring is overwritten, each segment with records in it gets a new image (R217). -/
def saveQuarter (s : State) (old : Nat) : State :=
  if s.val.jseq ≤ 262144 ∨ (old - 1) / 65536 = (s.val.jseq - 1) / 65536 then s
  else
    let quarter := s.val.jrnl.filter fun p => decide (p.seq + 262144 < s.val.jseq + 65536)
    let segs := (quarter.flatMap fun p => p.recs.filterMap fun r => match r with | .entry n _ => some (segOf n) | _ => none).eraseDups
    programRecs (segs.foldl writeImage s)

/-- The journal page is programmed (R216); what it releases may be erased. -/
def flushJournal (s : State) : State :=
  let old := s.val.jseq
  intendErases (saveQuarter (wrapJournal (programRecs s) old) old)

/-- A journal record goes into the open page, which is programmed when it holds 1,020 (R216). -/
def journalRec (s : State) (r : JRec) : State :=
  let s := { s with val.jopen := s.val.jopen ++ [r], val.jrnlSince := some (s.val.jrnlSince.getD s.timebase) }
  if s.val.jopen.length ≥ 1020 then flushJournal s else s

/-- A translation entry has changed. -/
def journal (s : State) (n : Nat) : State := journalRec s (.entry n (durOf s n))

/-- Whether the open page holds a record of a slab. -/
def journalOpen (s : State) (n : Nat) : Bool := s.val.jopen.any fun r => match r with | .entry m _ => m == n | _ => false

/-- The records of the ring with their numbers. -/
def ringRecs (v : Valley) : List (Nat × JRec) := v.jrnl.flatMap fun p => p.recs.zipIdx.map fun r => (p.first + r.2, r.1)

/-- The checkpoint directory that the media give: as last rewritten, with the later kind 2 records (R217). -/
def mediaDir (v : Valley) : Tab Nat :=
  ((ringRecs v).filter fun r => decide (v.dirSeq < r.1)).foldl (fun d r => match r.2 with | .image g b => tset d g b | _ => d) v.dirMedia

/-- The durable entries that the media give (R156, R217): of each segment its image, then the records later than it. -/
def mediaEntries (s : State) : Tab DurEntry :=
  let ims := (mediaDir s.val).filterMap fun d => (s.val.images.find? fun x => x.2.seg == d.1 && vBlock s x.1 == d.2).map (·.2)
  let after (n : Nat) : Nat := ((ims.find? fun i => i.seg == segOf n).map (·.seq)).getD 0
  (ringRecs s.val).foldl (fun e r => match r.2 with
    | .entry n x => if after n < r.1 then tput e n x else e
    | _ => e) (ims.foldl (fun e i => i.entries.foldl (fun e x => tset e x.1 x.2) e) [])

/-! ## System tables (R124, R218) -/

/-- Region index and generation of a key (R83). -/
def keyIdx (key : Nat) : Nat := key % 1048576
def keyGen (key : Nat) : Nat := key / 1048576

/-- The rows of the tables 1 to 10 of R218, by table and key; what an operation in flight keeps there is left out. -/
def tableRows (t : Tables) : List ((Nat × Nat) × TVal) :=
  (t.objects.map fun x => ((1, x.1), .object { x.2 with waiters := [] } t.objNext)) ++
  (t.regions.map fun x => ((2, x.1), .region { x.2 with
    inflight := 0, refusals := 0, unreported := 0, evtUntil := none, poisonEvt := none, pendingSent := false, revokers := [] })) ++
  (t.groups.map fun x => ((3, x.1), .group x.2)) ++
  (t.topos.map fun x => ((4, x.1), .topo { x.2 with steps := [], marker := 0, logged := 0, loggedAt := none })) ++
  (t.topos.flatMap fun x => x.2.steps.map fun y => ((5, x.1 * 65536 + y.1), .step y.2)) ++
  (t.queues.map fun x => ((6, x.1), .queue { x.2 with
    ring := [], head := 0, used := 0, logged := 0, st := if x.2.st == .error then .error else .idle, pend := [], run := none })) ++
  (t.queues.flatMap fun x => x.2.ring.map fun y => ((7, x.1 * 4096 + y.1), .work y.2)) ++
  (t.tags.map fun x => ((8, x.1), .tag { x.2 with evtUntil := none, unreported := 0 })) ++
  (t.topos.map fun x => ((9, x.1), .marker x.2.logged)) ++
  (t.queues.map fun x => ((10, x.1), .head x.2.head x.2.used))

/-- What a table-log record does to the tables. -/
def applyTrec (t : Tables) (r : TRec) : Tables :=
  match r.val with
  | .object o next => { t with objects := tput t.objects r.key (if r.del then none else some o), objNext := next }
  | .region x => { t with regions := tput t.regions r.key (if r.del then none else some x),
                          regionGen := tset t.regionGen r.key (keyGen x.key) }
  | .group g => { t with groups := tput t.groups r.key (if r.del then none else some g) }
  | .topo x =>
    let old := (tget t.topos r.key).getD x
    { t with topos := tput t.topos r.key (if r.del then none else some { x with steps := old.steps, marker := old.marker, logged := old.logged }) }
  | .step l => { t with topos := tmod t.topos (r.key / 65536) fun x =>
      { x with steps := tput x.steps (r.key % 65536) (if r.del then none else some l) } }
  | .queue q =>
    let old := (tget t.queues r.key).getD q
    { t with queues := tput t.queues r.key (if r.del then none else some { q with ring := old.ring, head := old.head, used := old.used, logged := old.logged }) }
  | .work b => { t with queues := tmod t.queues (r.key / 4096) fun q =>
      { q with ring := tput q.ring (r.key % 4096) (if r.del then none else some b) } }
  | .tag b => { t with tags := tput t.tags r.key (if r.del then none else some b) }
  | .marker m => if r.del then t else { t with topos := tmod t.topos r.key fun x => { x with marker := m, logged := m } }
  | .head h u => if r.del then t else { t with queues := tmod t.queues r.key fun q => { q with head := h, used := u, logged := h } }

/-- Content bytes of a row, and the 64-byte records that it takes: 48 bytes of content in each (R218; log entry 131). -/
def TVal.size : TVal → Nat
  | .object o _ => if o.sealed_.isSome then 88 else 64
  | .region _ => 32
  | .group _ => 514
  | .topo _ => 16
  | .step l => 16 + 16 * l.length
  | .queue _ => 32
  | .work _ => 64
  | _ => 8
def TRec.count (r : TRec) : Nat := if r.del then 1 else max 1 (cdiv r.val.size 48)

/-- Gives records their sequence numbers. -/
def numberRecs : Nat → List TRec → List TRec
  | _, [] => []
  | n, r :: t => { r with seq := n } :: numberRecs (n + r.count) t

/-- The records that turn one set of rows into another: deletions, then settings. -/
def rowDiff (old new : List ((Nat × Nat) × TVal)) : List TRec :=
  ((old.filter fun x => ! new.any (·.1 == x.1)).map fun x => { seq := 0, tbl := x.1.1, key := x.1.2, del := true, val := x.2 }) ++
  (new.filter fun x => ! old.contains x).map fun x => { seq := 0, tbl := x.1.1, key := x.1.2, val := x.2 }

/-- The 64-byte records of a list. -/
def recCount (l : List TRec) : Nat := (l.map (·.count)).sum

/-- The first records that fill a page of 255, and the rest (`room` is what is left of the page). -/
def takePage (room : Nat) : List TRec → List TRec × List TRec
  | [] => ([], [])
  | r :: t =>
    if room < r.count then ([], r :: t)
    else
      let x := takePage (room - r.count) t
      (r :: x.1, x.2)

/-- Table-log pages of 255 records; with `part` the partial page too (`fuel` bounds the pages). Gives the pages and the records
left. -/
def tlogPages (part : Bool) : Nat → Nat → List TRec → List TPage × List TRec
  | 0, _, l => ([], l)
  | fuel + 1, seq, l =>
    if l.isEmpty || ! part && decide (recCount l < 255) then ([], l)
    else
      let x := takePage 255 l
      let y := tlogPages part fuel (seq + 1) x.2
      ({ seq := seq, first := ((l.head?).map (·.seq)).getD 0, recs := x.1 } :: y.1, y.2)

/-- A full table image goes into the other slot and the root names it, when the log has filled half its ring since the newest
(R218). -/
def tableImage (s : State) (old : Nat) : State :=
  match s.val.root with
  | none => s
  | some r =>
    if (old - 1) / 131072 = (s.val.tpage - 1) / 131072 then s
    else
      let last := ((s.val.topen.head?).map (·.seq)).getD s.val.tnext - 1
      let im : TImage := { seq := last, recs := numberRecs 0 (rowDiff [] (tableRows s.val.tables)) }
      let s := { s with val.timages := tset s.val.timages (1 - r.imgSlot) im }
      programRoot s { rootNow s r with imgSlot := 1 - r.imgSlot, imgSeq := last }

/-- Records of the open table-log page are programmed, into a ring of 262,144 pages: full pages, or with `part` all (R218). -/
def programTables (s : State) (part : Bool) : State :=
  let x := tlogPages part (s.val.topen.length + 1) s.val.tpage s.val.topen
  let all := s.val.tlog ++ x.1
  let old := s.val.tpage
  let s := { s with
    val.tlog := all.drop (all.length - 262144), val.tpage := old + x.1.length, val.wseq := s.val.wseq + x.1.length, val.topen := x.2,
    val.tables := (x.1.flatMap (·.recs)).foldl applyTrec s.val.tables,
    val.tlogSince := if x.2.isEmpty then none else s.val.tlogSince }
  tableImage s old

/-- The system tables have changed: their records go into the open table-log page (R124, R218); full pages are programmed. -/
def tableLog (s : State) : State :=
  let recs := numberRecs s.val.tnext (rowDiff (tableRows s.val.tseen) (tableRows s.tables))
  programTables { s with
    val.topen := s.val.topen ++ recs, val.tnext := s.val.tnext + recCount recs, val.tseen := s.tables,
    val.tlogSince := some (s.val.tlogSince.getD s.timebase) } false

/-- The tables that the media give: the image that the root names, then every later record in order (R124, R218). -/
def mediaTables (s : State) : Tables :=
  let r := s.val.root.getD { seq := 0 }
  let im := (tget s.val.timages r.imgSlot).filter fun i => i.seq == r.imgSeq && r.imgSeq != 0
  let base := ((im.map (·.recs)).getD []).foldl applyTrec {}
  ((s.val.tlog.flatMap (·.recs)).filter fun x => decide (((im.map (·.seq)).getD 0) < x.seq)).foldl applyTrec base

/-! ## Relocation (R206) -/

/-- A data page is relocated for its slab to another place; where its die is down it is rebuilt from its stripe (R212). -/
def relocateOne (s : State) (v : Nat) : State :=
  match slabAt s v, readPage s v with
  | some n, some p =>
    if s.val.progs.any fun x => (match x.2 with | .relocate _ f _ => f == v | _ => false) then s
    else match pickPlace s with
      | some t => startProg (useFree s) t (.relocate n v { p with seq := s.val.wseq, parity := false })
      | none => s
  | _, _ => s

/-- The pages of a stripe that a parity page protects. -/
def parityOf (s : State) (v : Nat) : List Nat := (stripeVlocs (stripeOf v)).filter fun w => w != v && pageValid s w

/-- A page is relocated: a slab's page for its slab, a page of a segment image by writing a new image, and in place of a parity
page, whose place R198 fixes, the pages that it protects (log entry 132). -/
def relocate (s : State) (v : Nat) : State :=
  match tget s.val.pages v with
  | some p =>
    if p.parity then (parityOf s v).foldl relocateOne s
    else match imageAt s v with
      | some im => if im.seq + 1 = s.val.jnext || s.val.jopen.any (fun r => match r with | .image g _ => g == im.seg | _ => false) then s
        else writeImage s im.seg
      | none => relocateOne s v
  | none => s

/-! ## Over-provisioning, wear, retirement (R206 to R213) -/

/-- Pages of the system areas and stripes of Table 7-3 that are not over-provisioning, in pages of 16 KiB. -/
def fixedPages (s : State) : Nat :=
  rawPages s / 32 + 2 * rangeGib s * 65536 / 2048 + (12 + 1 + 3 * (budgetGib s + 1) + 24) * 65536 +
    s.val.blocks.countP (·.2.retired) * ppb s

/-- Free and spare capacity, percent of range (Table 7-5). -/
def opPct (s : State) : Nat :=
  let live := s.range.slabs.countP fun x => x.2.vloc.isSome
  (rawPages s - fixedPages s - live) * 100 / max 1 (rangeGib s * 65536)

/-- OP_PCT and the write limit (R213, Table 7-5): limited below OP_MIN_PCT, until 2 points above it. -/
def opCheck (s : State) : State :=
  if rangeGib s = 0 ∨ diesPerCh s = 0 then s
  else
    let p := opPct s
    let m := getF s Reg.valCfgOpMinPct
    let s := setF s Reg.valWearStatusOpPct (min p 127)
    let s := if p ≤ m + 2 then (if s.val.opWarned then s else logEv { s with val.opWarned := true } (srcValley 0) .wearWarn noUnit [4, p] true)
      else { s with val.opWarned := false }
    if p < m then
      (if isSet s Reg.valWearStatusWriteLimited then s
       else pitchEv (setB s Reg.valWearStatusWriteLimited true) (srcValley 0) .writeLimited [p])
    else if m + 2 ≤ p ∧ isSet s Reg.valWearStatusWriteLimited then
      pitchEv (setB s Reg.valWearStatusWriteLimited false) (srcValley 0) .writeLimitEnd [p]
    else s

/-- The indicators of Table 7-5 for a die: erase count, program time, erase time, soft decode; with warn and act
levels (0: the act level is the block's own). -/
def indicators (s : State) (d : Die) : List (Nat × Nat × Nat × Nat) :=
  [(0, lifePct s d, 80, 100), (1, meanPct d.progPct, 130, 0), (2, meanPct d.erasePct, 150, 0), (3, softRate s d, 100, 1000)]

/-- The baselines of program and erase time stand once 1,024 programs of the die have confirmed them (R210); their warn levels
count from then on. DESIGN CHOICE (log entry 133). -/
def indicatorOn (d : Die) (i : Nat) : Bool := (i != 1 && i != 2) || decide (1024 ≤ d.progs)

/-- Shows the worst die in VAL_WEAR_STATUS. -/
def showWear (s : State) : State :=
  let top (f : Die → Nat) (cap base : Nat) : Nat := min cap (s.val.dies.foldl (fun m x => max m (f x.2)) base)
  setF (setF (setF (setF s Reg.valWearStatusLifePct (top (lifePct s) 255 0)) Reg.valWearStatusProgPct
    (top (fun d => meanPct d.progPct) 255 100)) Reg.valWearStatusErasePct (top (fun d => meanPct d.erasePct) 255 100))
    Reg.valWearStatusSoftRate (top (softRate s) 65535 0)

/-- A die passes a warn level: record and notification, once; an act level of soft decode refreshes every page of the
die (R210). -/
def wearCheck (s : State) (d : Nat) : State :=
  ((indicators s (dieOf s d)).filter fun i => indicatorOn (dieOf s d) i.1).foldl (fun s i =>
    let x := dieOf s d
    let s := if i.2.1 ≥ i.2.2.1 && ! x.warned.contains i.1 then
        logEv (setDie s d { x with warned := x.warned ++ [i.1] }) (srcValley (d / 32)) .wearWarn (d % 32) [i.1, i.2.1] true
      else s
    let x := dieOf s d
    if i.2.2.2 != 0 && i.2.1 ≥ i.2.2.2 && ! x.warned.contains (i.1 + 8) then
      let s := logEv (setDie s d { x with warned := x.warned ++ [i.1 + 8] }) (srcValley (d / 32)) .wearAct (d % 32) [i.1, i.2.1] true
      if i.1 = 3 then (diePagesLive s d).foldl relocate s else s
    else s) (showWear s)

/-- A die is declared failed (R212): recorded in the root and the journal, and its pages are rebuilt elsewhere at rank 3; where a
parity page stood, the pages that it protects move. -/
def failDie (s : State) (d : Nat) : State :=
  if (dieOf s d).failed then s
  else
    let s := setDie s d { dieOf s d with failed := true }
    let s := putF s (Reg.valNvStatusFailedDies (d / 32)) (d % 32) true
    let s := logEv s (srcValley (d / 32)) .dieFailed (d % 32) [d / 32, d % 32] true
    let l := ((diePagesLive s d).flatMap fun v =>
      if ((tget s.val.pages v).map (·.parity)).getD false then parityOf s v else [v]).filter fun v => (slabAt s v).isSome
    let s := writeRoot { s with val.rebuild := s.val.rebuild ++ l.filter fun v => ! s.val.rebuild.contains v } (rootStop s)
    let s := (diePagesLive s d).foldl relocate (setB s Reg.valWearStatusRebuildActive (! (s.val.rebuild.isEmpty)))
    opCheck (journalRec s (.dieFailed d))

/-- A channel is declared failed (R212). -/
def failChannel (s : State) (c : Nat) : State :=
  let s := logEv (setF s (Reg.valNvStatusState c) 4) (srcValley c) .channelFailed c [c] true
  ((List.range 32).filter fun p => decide (p / 4 < s.val.ces ∧ p % 4 < s.val.perCe)).foldl (fun s p => failDie s (c * 32 + p)) s

/-- A block with no valid page left leaves use: recorded in the journal and the logbook, counted; more than 16 of a die within
24 h fail the die (R211, R212). -/
def retireDone (s : State) (b : Nat) : State :=
  let x := blockOf s b
  if x.retiring && ! x.retired && (validPages s b).isEmpty then
    let d := blockDie b
    let recent := ((dieOf s d).retired.filter fun t => decide (s.timebase < t + sec 86400)) ++ [s.timebase]
    let s := setDie (setBlock s b { x with retired := true, intent := none }) d { dieOf s d with retired := recent }
    let s := logEv (bumpF s (Reg.valNvStatusRetiredBlocks (b % 32))) (srcValley (b % 32)) .blockRetired (d % 32) [b]
    opCheck (if recent.length > 16 then failDie (journalRec s (.retired b)) d else journalRec s (.retired b))
  else s

/-- A block is retired: its valid pages are relocated first (R211). -/
def retireBlock (s : State) (b : Nat) : State :=
  let x := blockOf s b
  if x.retired || x.retiring then s
  else retireDone ((validPages s b).foldl relocate (setBlock s b { x with retiring := true })) b

/-- Data blocks of the population, and those that hold a page. -/
def blocksAll (s : State) : Nat := 32 * (diesPerCh s * dieBlocks s - (areaRows s).sum)
def blocksUsed (s : State) : List Nat := (s.val.blocks.filter fun x => ! x.2.erased && ! x.2.retired && ! isSys s x.1).map (·.1)

/-- The least of a list by a measure. -/
def leastBy (f : Nat → Nat) : List Nat → Option Nat
  | [] => none
  | x :: t => match leastBy f t with
    | some y => if f x ≤ f y then some x else some y
    | none => some x

/-- Below 2 % of free blocks the valid pages of the block with the fewest are relocated (R206). -/
def reclaim (s : State) : State :=
  let used := blocksUsed s
  if (blocksAll s - used.length) * 50 < blocksAll s then
    match leastBy (fun b => (validPages s b).length) (used.filter fun b => ! (validPages s b).isEmpty) with
    | some b => (validPages s b).foldl relocate s
    | none => s
  else s

/-- When erase counts of a die differ by more than 10 % of the rated cycles its least-erased block is relocated (R208). -/
def levelWear (s : State) (d : Nat) : State :=
  let l := (s.val.blocks.filter fun x => blockDie x.1 == d && ! x.2.retired && ! isSys s x.1).map (·.1)
  let e (b : Nat) : Nat := (blockOf s b).erases
  match leastBy e (l.filter fun b => ! (validPages s b).isEmpty) with
  | some b => if (l.foldl (fun m x => max m (e x)) 0 - e b) * 10 > peRated s then (validPages s b).foldl relocate s else s
  | none => s

end Sys2Proof.Machine
end

