-- ==== Sys2Proof/Machine/Store.lean ====
section
/-! DEFINITION. The range as stored (5, 8, 9): mover jobs, segments, summit, topo windows, writes and reads. -/

namespace Sys2Proof.Machine

/-! ## Mover jobs (R145, Table 5-6) -/

/-- Queues a job once; a job already queued or running for the same work is joined, at the higher class. -/
def addJob (s : State) (cls : Nat) (k : JobKind) : State :=
  if s.range.movers.any (·.2.kind == k) then
    { s with range.movers := s.range.movers.map fun x =>
        if x.2.kind == k then (x.1, { x.2 with cls := min cls x.2.cls }) else x }
  else if s.range.jobs.any (·.kind == k) then
    { s with range.jobs := s.range.jobs.map fun j => if j.kind == k then { j with cls := min cls j.cls } else j }
  else { s with range.jobs := s.range.jobs ++ [{ cls := cls, kind := k }] }

/-- Removes every job that `p` accepts, waiting or running. -/
def dropJobs (s : State) (p : JobKind → Bool) : State :=
  { s with range.jobs := s.range.jobs.filter (fun j => ! p j.kind),
           range.movers := s.range.movers.filter fun x => ! p x.2.kind }

/-- A promotion starts on a VALLEY slab, or waits for a free frame of its partition; one already running is joined (R123, R139,
Table 5-3). The work is one job for each slab, whatever called for it, at the highest class that did. -/
def promote (s : State) (cls n : Nat) (k : JobKind) : State :=
  let x := slabOf s n
  match x.st with
  | .valley =>
    if ! frameFree s n then addJob s cls k else
    let f := pickFrame s n
    addJob (setSlab (useFree s) n { x with st := .promoting, frame := f, filled := 0, unit := none }) cls k
  | .promoting =>
    let j := fun (i : Job) => match i.kind with
      | .promote m | .prefetch m _ | .load m => if m = n then { i with cls := min cls i.cls } else i
      | _ => i
    { s with range.jobs := s.range.jobs.map j, range.movers := s.range.movers.map fun x => (x.1, j x.2) }
  | _ => s

/-- Every dirty slab is destaged: write-through is in force (R363), a camp channel is being retired (R190), or step 4 of an
orderly shutdown runs (R353). -/
def draining (s : State) : Bool :=
  isSet s Reg.seqStatusWriteThrough || s.ladder.retiring.isSome ||
  seqState s == stStopping && s.seq.why == some .orderly && ! (role s == roleLead && team s == teamReturning)

/-- The walker of a partition runs (R147). -/
def walkerRuns (s : State) (part : Nat) : Bool := decide (freeFrames s part < 1024)

/-- Destage of charged slabs (R138): class 2 while a reservation waits or every slab is to go, else class 5 for the oldest ones above
DESTAGE_LOW_PCT, those being destaged counted in; background destages that wait beyond that are given up, but for those that a
walker asked for. Write-through slabs are asked for by their writers. -/
def destagePlan (s : State) : State :=
  let all := s.range.dirtyList.filter fun n => let st := (slabOf s n).st; st == .dirty || st == .partial_
  if ! s.ops.budgetQ.isEmpty || draining s then all.foldl (fun s n => addJob s 2 (.destage n)) s
  else
    let low := budgetSlabs s * getF s Reg.campRangeCfgDestageLowPct / 100
    let going := s.range.dirtyList.countP fun n => (slabOf s n).st == .destaging
    let due := all.take (s.range.dirtyList.length - low - going)
    let s := { s with range.jobs := s.range.jobs.filter fun j => match j.kind with
      | .destage n => j.cls != 5 || due.contains n || walkerRuns s (n % 256)
      | _ => true }
    due.foldl (fun s n => addJob s 5 (.destage n)) s

/-! ## Segments (R156, R158) -/

/-- An on-demand rebuild: 16 at once, the others wait (R158). -/
def askSegment (s : State) (g : Nat) : State :=
  if segBuilt s g || s.range.segRun.contains g || s.range.segQ.contains g then s
  else if s.range.segRun.length < 16 then addJob { s with range.segRun := s.range.segRun ++ [g] } 4 (.rebuild g)
  else { s with range.segQ := s.range.segQ ++ [g] }

/-! ## Summit (9) -/

abbrev sumSets : Nat := 98304

/-- Slot key: set × 16 + way. -/
def sumKey (line way : Nat) : Nat := line % 98304 * 16 + way

/-- The slot that holds a line. -/
def sumFind (s : State) (line : Nat) : Option Nat :=
  ((List.range 16).find? fun w => match tget s.sum.lines (sumKey line w) with
    | some l => l.line == line
    | none => false).map (sumKey line)

def lockWays (s : State) : Nat := getF s Reg.sumCfgLockWays

/-- Ways that a locking walk has not yet made locked are no more eligible than locked ones. -/
def lockedUpTo (s : State) : Nat := max (lockWays s) (s.sum.raising.getD 0)

/-- A way of a set that may take a new line (R255). -/
def sumEligible (s : State) (key : Nat) : Bool :=
  let w := key % 16
  bitF s Reg.sumStatusWaysOn w && (w == 0 || decide (w > lockedUpTo s)) &&
  ! (s.sum.walks.any fun k => match k with | .off v _ => v == w | .lock v => v == w) &&
  ! s.code.disabled.contains key && ! (s.sum.fills.any (·.2 == key))

/-- Points every node on the path to way `w` away from it (R255). -/
def plruTouch (bitsv w : Nat) : Nat :=
  let n3 := w / 8 % 2; let n2 := w / 4 % 2; let n1 := w / 2 % 2; let n0 := w % 2
  let i1 := 1; let i2 := 2 * i1 + n3; let i3 := 2 * i2 + n2; let i4 := 2 * i3 + n1
  putBit (putBit (putBit (putBit bitsv i1 (n3 == 0)) i2 (n2 == 0)) i3 (n1 == 0)) i4 (n0 == 0)

/-- Follows the bits from node `i`, covering `2^d` ways from `base`, turning aside where nothing is eligible. -/
def plruVictim (bitsv : Nat) (ok : Nat → Bool) (i base : Nat) : Nat → Nat
  | 0 => base
  | d + 1 =>
    let half := 2 ^ d
    let right := bit bitsv i
    let any (b : Nat) : Bool := (List.range half).any fun k => ok (b + k)
    let right := if right then any (base + half) else ! any base
    if right then plruVictim bitsv ok (2 * i + 1) (base + half) d else plruVictim bitsv ok (2 * i) base d

def sumTouch (s : State) (key : Nat) : State :=
  { s with sum.plru := tset s.sum.plru (key / 16) (plruTouch (tcnt s.sum.plru (key / 16)) (key % 16)) }

/-- The slot a fill takes: the lowest eligible invalid way, else the pseudo-LRU victim; none with no eligible way. -/
def sumVictim (s : State) (line : Nat) : Option Nat :=
  let ways := (List.range 16).filter fun w => sumEligible s (sumKey line w)
  match ways.find? fun w => ! thas s.sum.lines (sumKey line w) with
  | some w => some (sumKey line w)
  | none =>
    if ways.isEmpty then none
    else some (sumKey line (plruVictim (tcnt s.sum.plru (line % 98304)) (ways.contains ·) 1 0 4))

def showDirty (s : State) : State := setF s Reg.sumStatusDirtyLines (s.sum.lines.countP (·.2.dirty))

/-- A slot loses its line; a dirty one is written to camp first. -/
def sumDrop (s : State) (key : Nat) : State :=
  match tget s.sum.lines key with
  | none => s
  | some l =>
    let s := if l.dirty then campAsk s true .demand 0 0 l.line else s
    showDirty { s with sum.lines := tdel s.sum.lines key }

/-- The object whose locked run holds a line, with the slot of the line (R262). -/
def lockedSlot (s : State) (line : Nat) : Option Nat :=
  s.sum.runs.findSome? fun r =>
    match tget s.tables.objects r.1 with
    | some o =>
      let n0 := o.base / 64
      if n0 ≤ line ∧ line < n0 + cdiv o.len 64 then some (line % 98304 * 16 + (r.2.1 + (line - n0) / 98304)) else none
    | none => none

/-- A miss that allocates starts a fill, or joins the one that runs (R254, R258); an empty locked line does not allocate
(R264). A dirty victim goes to camp first; its
line waits in `evicting` until the write queue has taken it (R256). -/
def sumFillStart (s : State) (port : CampPort) (conn line : Nat) : State :=
  if thas s.sum.fills line || (lockedSlot s line).isSome then s
  else match sumVictim s line with
    | none => s
    | some key =>
      let s := match tget s.sum.lines key with
        | some l => if l.dirty then { s with sum.evicting := tset s.sum.evicting l.line key } else s
        | none => s
      let s := showDirty { s with sum.lines := tdel s.sum.lines key, sum.fills := tset s.sum.fills line key }
      if s.sum.evicting.any (·.2 == key) then s else campAsk s false port conn 0 line

/-- A line that R127 returns as zeros. -/
def zeroLine (s : State) (line : Nat) : Bool :=
  let x := slabOf s (line / 256)
  x.st == .unwritten || (x.st == .partial_ && ! bit x.mask (line % 256))

/-- One line of a host READ or atomic looks up summit: a hit is touched, a miss allocates; a line whose dirty eviction is
in progress waits (R257). `count`: host READs count in SUM_COUNT. -/
def sumLookup (count : Bool) (port : CampPort) (conn : Nat) (s : State) (line : Nat) : State :=
  if zeroLine s line then s
  else match sumFind s line with
    | some key => sumTouch (if count then bumpF s Reg.sumCountReadHit else s) key
    | none =>
      let s := if count then bumpF s Reg.sumCountReadMiss else s
      let s := if thas s.sum.evicting line then bumpF s Reg.sumEvictEvictWait else s
      sumFillStart s port conn line

/-- Whether any line of an extent still waits for its fill, or for its repair (R237). -/
def sumWaits (s : State) (a len : Nat) : Bool :=
  (s.sum.fills.any fun x => decide (a / 64 ≤ x.1 ∧ x.1 * 64 < a + len)) ||
  s.code.repairing.any fun x => decide (a / 64 ≤ x.1 ∧ x.1 * 64 < a + len)

/-- The camp port of writes: the Second applies the Lead's records through its own (Table 6-3). -/
def writePort (s : State) : CampPort := if isSecond s then .ropeApply else .demand

/-- A write of a line: summit's copy is written if it holds one, else camp takes it (R253, R254). -/
def sumWrite (s : State) (conn line : Nat) : State :=
  match sumFind s line with
  | some key =>
    if s.sum.walks.any fun k => match k with | .off v _ => v == key % 16 | _ => false then
      campAsk (sumDrop s key) true (writePort s) conn 0 line
    else showDirty (sumTouch { s with sum.lines := tmod s.sum.lines key fun l => { l with dirty := true } } key)
  | none =>
    let s := if thas s.sum.evicting line then bumpF s Reg.sumEvictEvictWait else s
    campAsk s true (writePort s) conn 0 line

/-- The dirty lines of a slab are written to its frame and marked clean (R259). -/
def sumCleanSlab (s : State) (n : Nat) : State :=
  let hit := s.sum.lines.filter fun x => x.2.line / 256 == n && x.2.dirty
  let s := hit.foldl (fun s x => campAsk s true .mover 0 0 x.2.line) s
  showDirty { s with sum.lines := s.sum.lines.map fun x =>
    if x.2.line / 256 == n then (x.1, { x.2 with dirty := false }) else x }

/-- Locked slots assigned to a line and empty (R265). -/
def lockedEmpty (s : State) : Nat :=
  let assigned := (s.sum.runs.map fun r => ((tget s.tables.objects r.1).map fun o => cdiv o.len 64).getD 0).sum
  let full := s.sum.lines.countP fun x => s.sum.runs.any fun r => decide (r.2.1 ≤ x.1 % 16 ∧ x.1 % 16 < r.2.1 + r.2.2)
  assigned - full

def showLocked (s : State) : State :=
  setF (setF s Reg.sumEvictLockedEmpty (lockedEmpty s)) Reg.sumStatusLockUsed (s.sum.runs.map (·.2.2)).sum

/-- A locked slot is loaded from camp, if its way is locked, its slab is resident or unwritten and it is empty (R263). -/
def loadLocked (s : State) (line : Nat) : State :=
  match lockedSlot s line with
  | none => s
  | some key =>
    let st := (slabOf s (line / 256)).st
    if key % 16 ≤ lockWays s && ! s.code.disabled.contains key && ! thas s.sum.lines key &&
       (st.resident || st == .unwritten) then
      showLocked { s with sum.lines := tset s.sum.lines key { line := line, poison := lineBad s line } }
    else s

/-- The locked slots of an extent are loaded. -/
def loadLockedExtent (s : State) (a len : Nat) : State := (linesOf a len).foldl loadLocked s

/-- Summit lines of an extent are invalidated without write-back (R260). -/
def sumForget (s : State) (a len : Nat) : State :=
  showLocked (showDirty { s with sum.lines := s.sum.lines.filter fun x => ! decide (a / 64 ≤ x.2.line ∧ x.2.line * 64 < a + len) })

/-- Summit lines of an extent are written to camp if dirty, and invalidated (R264). -/
def sumInvalidate (s : State) (a len : Nat) : State :=
  showLocked ((s.sum.lines.filter fun x => decide (a / 64 ≤ x.2.line ∧ x.2.line * 64 < a + len)).foldl (fun s x => sumDrop s x.1) s)

/-! ## Topo windows (R152 to R154) -/

def Topo.lookN (s : State) (t : Topo) : Nat := if t.look = 0xFF then getF s Reg.campRangeCfgLookahead else t.look
def Topo.trailN (s : State) (t : Topo) : Nat := if t.trail = 0xFF then getF s Reg.campRangeCfgTrail else t.trail

/-- Steps `m + lo` to `m + hi` of a topo, modulo its count with LOOP, else those that exist; trail steps are counted
back from `m`. -/
def Topo.stepsFrom (t : Topo) (back ahead : Nat) : List Nat :=
  let raw := (List.range (back + ahead + 1))
  if t.loop then ((raw.map fun i => (t.marker + t.count * (back + 1) + i - back) % t.count)).eraseDups
  else raw.filterMap fun i => if back ≤ t.marker + i ∧ t.marker + i - back < t.count then some (t.marker + i - back) else none

/-- Slabs of a step, in extent and address order; extents of deleted objects are skipped (R135). -/
def Topo.stepSlabs (s : State) (t : Topo) (k : Nat) : List Nat :=
  ((tget t.steps k).getD []).flatMap fun e =>
    match tget s.tables.objects e.1 with
    | some o => slabsOf (o.base + e.2.1) e.2.2
    | none => []

/-- Slabs that a topo's window protects. -/
def Topo.window (s : State) (t : Topo) : List Nat :=
  if t.committed then (t.stepsFrom (t.trailN s) (t.lookN s)).flatMap (t.stepSlabs s) else []

/-- Whether a slab lies in the window of any topo. -/
def inWindow (s : State) (n : Nat) : Bool := s.tables.topos.any fun x => (x.2.window s).contains n

/-- A promotion is given up: its frame is free, the slab VALLEY (Table 5-3). -/
def abandonPromotion (s : State) (n : Nat) : State :=
  let x := slabOf s n
  if x.st == .promoting then setSlab s n { x with st := .valley, frame := 0, unit := none, filled := 0 } else s

/-- Waiting prefetch jobs whose slab has left every window are cancelled; one that a tier fault joined goes on (R154). A job on a
mover ends at its next unit (`moverUnit`). -/
def cancelOut (s : State) : State :=
  let out (j : Job) : Bool := match j.kind with | .prefetch n _ => decide (4 ≤ j.cls) && ! inWindow s n | _ => false
  let gone := (s.range.jobs.filter out).filterMap fun j => match j.kind with | .prefetch n _ => some n | _ => none
  gone.foldl abandonPromotion { s with range.jobs := s.range.jobs.filter fun j => ! out j }

/-- Locked lines of pin-summit extents in the current and lookahead steps of committed topos, inside `[a, a + len)`, are loaded
where they are empty (R155). -/
def reloadWindows (s : State) (a len : Nat) : State :=
  ((s.tables.topos.filter (·.2.committed)).flatMap fun t =>
    (t.2.stepsFrom 0 (t.2.lookN s)).flatMap fun k => (tget t.2.steps k).getD []).foldl (fun s e =>
      match tget s.tables.objects e.1 with
      | some o =>
        let lo := max a (o.base + e.2.1)
        if o.cls = 0 then loadLockedExtent s lo (min (a + len) (o.base + e.2.1 + e.2.2) - lo) else s
      | none => s) s

/-- Class 4 prefetch jobs for the current and lookahead steps (R154); one whose segment is unbuilt waits, and moves the segment to
the front of the background rebuild, or asks for it where that is off (R152, R157, R158; log entry 125). Empty locked lines of
those steps are loaded (R155). -/
def prefetch (s : State) (t : Nat) : State :=
  match tget s.tables.topos t with
  | none => s
  | some tp =>
    if ! tp.committed then s
    else
      let s := cancelOut s
      let s := ((tp.stepsFrom 0 (tp.lookN s)).flatMap (tp.stepSlabs s)).foldl (fun s n =>
        if ! segBuilt s (segOf n) then
          addJob (if isSet s Reg.campRangeCfgBgRebuild then s else askSegment s (segOf n)) 4 (.prefetch n t)
        else promote s 4 n (.prefetch n t)) s
      ((tp.stepsFrom 0 (tp.lookN s)).flatMap fun k => (tget tp.steps k).getD []).foldl (fun s e =>
        match tget s.tables.objects e.1 with
        | some o => if o.cls = 0 then loadLockedExtent s (o.base + e.2.1) e.2.2 else s
        | none => s) s

/-- A marker moves: its record, its log and its prefetch (R124, R153, R155). -/
def setMarker (s : State) (t m : Nat) : State :=
  let s := { s with tables.topos := tmod s.tables.topos t fun x => { x with marker := m } }
  prefetch (orderIf s (.topo t m)).1 t

/-- An operation validated on the first slab of extent 0 of a step that is ahead moves the marker (R153). DESIGN CHOICE (log entry
124): of several steps ahead whose first slab it touches, the farthest ahead is taken. -/
def topoAccess (s : State) (slabs : List Nat) : State :=
  s.tables.topos.foldl (fun s x =>
    let t := x.2
    if ! t.committed || t.cmdOnly then s
    else
      let hits := (List.range t.count).filter fun k =>
        match (tget t.steps k).bind (·.head?) with
        | some e => match tget s.tables.objects e.1 with
          | some o => slabs.contains ((o.base + e.2.1) / 16384)
          | none => false
        | none => false
      let ahead := hits.filter fun k =>
        if t.loop then let d := (k + t.count - t.marker) % t.count; decide (1 ≤ d ∧ d ≤ t.count / 2)
        else decide (k > t.marker)
      let dist (k : Nat) : Nat := (k + t.count - t.marker) % t.count
      match ahead with
      | k :: ks => setMarker s x.1 (ks.foldl (fun b i => if dist b < dist i then i else b) k)
      | [] => s) s

/-! ## Writes and reads of the range -/

/-- An operation translates its slabs (R120) and marks them as accessed (R147). -/
def touchSlabs (s : State) (l : List Nat) : State :=
  let s := l.foldl translate s
  { s with range.refBits := l.foldl (fun r n => if r.contains n then r else r ++ [n]) s.range.refBits }

/-- A written-line mask of a slab: lines `lo` to `hi - 1`. -/
def maskBits (lo hi : Nat) : Nat := 2 ^ hi - 2 ^ lo

/-- The PARTIAL slab whose side-table entry is oldest is zero-filled (R128, Table 5-3); lines that summit holds dirty are written
to its frame and marked clean (R259). -/
def zeroFill (s : State) (n : Nat) : State :=
  let x := slabOf s n
  if x.st == .partial_ then
    sumCleanSlab (setSlab { s with range.sideQ := s.range.sideQ.filter (· != n) } n { x with st := .dirty, mask := 0 }) n
  else s

/-- Room in the partial side table: when all 1,048,576 entries are used the oldest slab leaves it (R128). -/
def sideRoom (s : State) : State :=
  if s.range.sideQ.length < 1048576 then s
  else match s.range.sideQ with
    | n :: _ => zeroFill s n
    | [] => s

/-- A write of lines `lo` to `hi - 1` (of the slab) reaches the slab's entry (Table 5-3); `full`: the write covers all
256 lines, and clears POIS (R238). -/
def slabWrite (s : State) (n lo hi : Nat) (full : Bool) : State :=
  let charge (s : State) (n : Nat) : State := budgetCheck (charge s n)
  let s := touchSlabs s [n]
  let x := { slabOf s n with pois := (slabOf s n).pois && ! full }
  match x.st with
  | .unwritten =>
    let f := pickFrame s n
    let s := useFree s
    if full then journal (charge (setSlab s n { x with st := .dirty, frame := f }) n) n
    else
      let s := sideRoom s
      journal (charge (setSlab { s with range.sideQ := s.range.sideQ ++ [n] } n
        { x with st := .partial_, frame := f, mask := maskBits lo hi }) n) n
  | .partial_ =>
    let m := Nat.lor x.mask (maskBits lo hi)
    if m = 2 ^ 256 - 1 ∨ full then
      setSlab { s with range.sideQ := s.range.sideQ.filter (· != n) } n { x with st := .dirty, mask := 0 }
    else setSlab s n { x with mask := m }
  | .dirty => setSlab s n x
  | .destaging => setSlab s n { x with wrote := true }
  | .clean => journal (charge (setSlab s n { x with st := .dirty, vloc := none }) n) n
  | .valley =>
    let f := pickFrame s n
    journal (charge (setSlab (useFree s) n
      { x with st := .dirty, vloc := none, frame := f }) n) n
  | .promoting => s

/-- The 1 MiB group of a slab, marked in the rope bitmap by a roped write, trim or deletion at a Lead (R329). -/
def markRope (s : State) (n : Nat) : State :=
  if (role s == roleLead || role s == roleSingle) && slabRoped s n &&
     (team s == teamCatchUp || team s == teamCut || team s == teamSingle || team s == teamRoped || team s == teamReturning) then
    { s with rope.bitmap := if s.rope.bitmap.contains (n / 64) then s.rope.bitmap else s.rope.bitmap ++ [n / 64] }
  else s

/-- Writes the part of `data` that lies in one line (Table 8-9): a whole line clears its poison; a narrow write of a
poisoned line leaves it poisoned and is counted; a narrow write that misses summit reads the code word first, but for a line
that camp does not hold (`zero`, R127), which it merges with zeros. -/
def writeLine (conn : Nat) (zero : Nat → Bool) (s : State) (a : Nat) (d : Bytes) : State :=
  let line := a / 64
  let s := { s with range.mem := memPut s.range.mem a d }
  let s :=
    if d.length = 64 then { cleanLine s line with code.repairing := tdel s.code.repairing line }
    else if lineBad s line then bumpF s Reg.campCodeStatusRmwPoison
    else if ! zero line && (sumFind s line).isNone && (slabOf s (line / 256)).st.resident && ! s.code.merges.contains line then
      campAsk { s with code.merges := s.code.merges ++ [line] } false (writePort s) conn 0 line
    else s
  sumWrite s conn line

/-- Writes bytes line by line (R96); `fuel` bounds the lines. -/
def writeLines (conn : Nat) (zero : Nat → Bool) : Nat → State → Nat → Bytes → State
  | 0, s, _, _ => s
  | fuel + 1, s, a, d =>
    if d.isEmpty then s
    else
      let k := 64 - a % 64
      writeLines conn zero fuel (writeLine conn zero s a (d.take k)) (a + k) (d.drop k)

/-- One write to the range inside one slab: entry, lines, rope bitmap. `full`: it covers all 256 lines. -/
def writeSlab (s : State) (conn a : Nat) (d : Bytes) (full : Bool) : State :=
  let n := a / 16384
  let t := slabWrite s n (a % 16384 / 64) (cdiv (a % 16384 + d.length) 64) full
  writeLines conn (zeroLine s) (d.length / 64 + 2) (markRope t n) a d

/-- Writes bytes to the range, slab by slab (`fuel` bounds the slabs). -/
def writeRangeN (conn : Nat) : Nat → State → Nat → Bytes → State
  | 0, s, _, _ => s
  | fuel + 1, s, a, d =>
    if d.isEmpty then s
    else
      let k := 16384 - a % 16384
      writeRangeN conn fuel (writeSlab s conn a (d.take k) (decide (a % 16384 = 0 ∧ k ≤ d.length))) (a + k) (d.drop k)

def writeRange (s : State) (conn a : Nat) (d : Bytes) : State := writeRangeN conn (d.length / 16384 + 2) s a d

/-- Bytes as a read delivers them, line by line: a poisoned line reads as zeros (R95). -/
def readLines (s : State) : Nat → Nat → Nat → Bytes
  | 0, _, _ => []
  | fuel + 1, a, n =>
    if n = 0 then []
    else
      let k := min n (64 - a % 64)
      (if lineBad s (a / 64) then zeros k else rangeRead s a k) ++ readLines s fuel (a + k) (n - k)

/-- An extent as a READ delivers it: bytes and the poisoned lines among its lines. -/
def readExtent (s : State) (a n : Nat) : Bytes × List Nat :=
  (readLines s (n / 64 + 2) a n, (linesOf a n).filter (lineBad s))

/-- A slab goes back to UNWRITTEN (trim, deletion): frame, page, side-table entry, charge, summit lines, poison and bytes
are released (Table 5-3, R260). -/
def trimSlab (s : State) (n : Nat) : State :=
  let x := slabOf s n
  if x.st == .unwritten then s
  else
    let s := markRope s n
    let s := dropJobs s fun k => match k with
      | .promote m | .destage m | .prefetch m _ | .load m | .move m => m == n
      | _ => false
    let s := setSlab { s with camp.moves := tdel s.camp.moves n, range.sideQ := s.range.sideQ.filter (· != n),
                              range.mem := memDrop s.range.mem (n * 16384) 16384,
                              range.poison := s.range.poison.filter (· / 256 != n) } n {}
    opCheck (budgetCheck (journal (uncharge (sumForget s (n * 16384) 16384) n) n))

end Sys2Proof.Machine
end

