-- ==== Sys2Proof/Machine/Flags.lean ====
section
/-! DEFINITION. Status codes and flags: completions (Table 4-5), operation NAKs (Table 4-6), transport NAKs (Table 3-9),
replies (Table 14-11). -/

namespace Sys2Proof.Machine

/-! ## Completion statuses and flags (Table 4-5) -/
abbrev csOk : Nat := 0
abbrev csMessageCheck : Nat := 1
abbrev csContentIntegrity : Nat := 2
abbrev csTriggerPending : Nat := 3
abbrev csSendQueued : Nat := 4

abbrev cfSingleCopy : Nat := 1
abbrev cfTierFault : Nat := 2
abbrev cfThrottled : Nat := 4

/-- The completion flags of an operation. -/
def compFlags (single fault throttled : Bool) : Nat :=
  (if single then cfSingleCopy else 0) + (if fault then cfTierFault else 0) + (if throttled then cfThrottled else 0)

/-- Adds SINGLE_COPY to flags. -/
def withSingle (f : Nat) : Nat := f / 2 * 2 + 1

/-! ## NAK codes (Tables 3-9 and 4-6) -/
abbrev nkSequence : Nat := 0x01
abbrev nkNotReady : Nat := 0x02
abbrev nkSealTag : Nat := 0x03
abbrev nkMsnRange : Nat := 0x04
abbrev nkInvalidHeader : Nat := 0x05
abbrev nkUnknownConnection : Nat := 0x06
abbrev nkPathNotOpen : Nat := 0x07
abbrev nkLength : Nat := 0x08

abbrev nkRegionKey : Nat := 0x40
abbrev nkRegionNotActive : Nat := 0x41
abbrev nkAccessDenied : Nat := 0x42
abbrev nkOpNotPermitted : Nat := 0x43
abbrev nkOutOfRegion : Nat := 0x44
abbrev nkAlignment : Nat := 0x45
abbrev nkFenced : Nat := 0x46
abbrev nkRegionMismatch : Nat := 0x47
abbrev nkTriggerUnknown : Nat := 0x48
abbrev nkTriggerDenied : Nat := 0x49
abbrev nkSendTooLong : Nat := 0x4A
abbrev nkChainNotReady : Nat := 0x4B
abbrev nkLandingKey : Nat := 0x4C
abbrev nkLandingRange : Nat := 0x4D
abbrev nkSessionRequired : Nat := 0x4E
abbrev nkRopeRefused : Nat := 0x4F
abbrev nkBudgetFull : Nat := 0x50

/-- Refusals that follow the report mode (Table 4-6). -/
def nakReported (code : Nat) : Bool := (decide (nkRegionNotActive ≤ code ∧ code ≤ nkAlignment)) || code == nkTriggerDenied

/-! ## Reply statuses (Table 14-11) -/
abbrev scOk : Nat := 0x0000
abbrev scPending : Nat := 0x0001
abbrev scDeclined : Nat := 0x0002
abbrev scMalformed : Nat := 0x0010
abbrev scUnknownOpcode : Nat := 0x0011
abbrev scChannel : Nat := 0x0012
abbrev scAuthority : Nat := 0x0013
abbrev scAuthFailed : Nat := 0x0014
abbrev scNotOwner : Nat := 0x0015
abbrev scNotFound : Nat := 0x0016
abbrev scOutOfRange : Nat := 0x0017
abbrev scBusy : Nat := 0x0018
abbrev scNotPermitted : Nat := 0x0019
abbrev scNotReady : Nat := 0x001A
abbrev scNotLead : Nat := 0x001B
abbrev scNoGuide : Nat := 0x001C
abbrev scContentIntegrity : Nat := 0x0020
abbrev scPoisonedData : Nat := 0x0021
abbrev scVerifyFailed : Nat := 0x0022
abbrev scDeviceFault : Nat := 0x0023

end Sys2Proof.Machine
end

