-- ==== Sys2Proof/Machine/Reply.lean ====
section
/-! DEFINITION. Replies to command packets (14): their bytes, their channels, and what a reply waits for. -/

namespace Sys2Proof.Machine

/-- A key number for the freshness records and principals: 4,096 is the management principal. -/
abbrev mgmtPrincipal : Nat := 4096
/-- The sender of an order record that no command gave. -/
abbrev noPrincipal : Nat := 8192
def Ticket.principal (t : Ticket) : Nat := if t.mgmt then mgmtPrincipal else t.ident

/-- The 16-byte reply header (Table 14-2). -/
def replyHeader (r : Reply) : Bytes :=
  leBytes 2 r.status ++ leBytes 2 r.op ++ leBytes 4 r.tag ++ leBytes 4 r.detail ++ leBytes 2 r.payload.length ++
  [byte ((if r.final then 1 else 0) + (if r.auth.isSome then 2 else 0)), byte r.responder]

/-- A whole reply: header, payload, and the HMAC over both and the command's freshness field (R389). -/
def replyBytes (r : Reply) : Bytes :=
  let body := replyHeader r ++ r.payload
  match r.auth with
  | some (k, fresh) => body ++ hmac k (body ++ leBytes 8 fresh)
  | none => body

/-- The reply to a ticket. -/
def mkReply (s : State) (tk : Ticket) (status detail : Nat) (payload : Bytes) (final : Bool) : Reply :=
  { status := status, op := tk.op, tag := tk.tag, detail := detail, payload := payload.take 4096, final := final,
    responder := s.pins.twinId % 2 + role s * 2, auth := tk.key.map fun k => (k, tk.fresh) }

/-- MBX_STATE.SLOTs. -/
def slotFld : Nat → Reg.Fld
  | 0 => Reg.mbxStateSlot0 | 1 => Reg.mbxStateSlot1 | 2 => Reg.mbxStateSlot2 | 3 => Reg.mbxStateSlot3
  | 4 => Reg.mbxStateSlot4 | 5 => Reg.mbxStateSlot5 | 6 => Reg.mbxStateSlot6 | _ => Reg.mbxStateSlot7

def mbxSlot (s : State) (n : Nat) : MbxSlot := (tget s.mgmt.slots n).getD {}
def setMbxSlot (s : State) (n : Nat) (m : MbxSlot) : State := { s with mgmt.slots := tset s.mgmt.slots n m }

/-- Sends a reply by its channel (Table 14-4): into the mailbox slot with the interrupt (R476), as a MGMT message on the
connection, or for the I3C private read with an in-band interrupt. -/
def deliver (s : State) (c : Chan) (r : Reply) : State :=
  match c with
  | .mbx n =>
    let s := setF (setMbxSlot s n { mbxSlot s n with reply := some r }) (slotFld n) (if r.final then 3 else 2)
    let quiet := getF s Reg.mbxIntStatusSlot == 0
    let s := putF s Reg.mbxIntStatusSlot n true
    if quiet then mbxVector s else s
  | .net num =>
    match connOf s num with
    | some c => if c.st.live then (partMessage s (connIdx num) tyMgmt [] (replyBytes r) 0 (0, 0, 0)).1 else s
    | none => s
  | .i3c => { s with i3c.replies := s.i3c.replies ++ [(r.final, r)], i3c.ibiPending := s.i3c.ibi }

/-- HP_CONN_STATUS.BRAKE_HELD shows the brake-store entries in use. -/
def showBrake (s : State) : State := setF s Reg.hpConnStatusBrakeHeld ((s.port.brake.map (·.2)).sum)

/-- A ticket ends. A brake command that came as a brake frame gives its store entry back (R404; `aux` names its
sub-port). -/
def endTicket (s : State) (t : Nat) (tk : Ticket) : State :=
  let s := { s with cmd.tickets := tdel s.cmd.tickets t }
  match tk.op / 256 == 0x0B, tk.aux with
  | true, sub :: _ => showBrake { s with port.brake := tcntSet s.port.brake sub (tcnt s.port.brake sub - 1) }
  | _, _ => s

/-- The final reply: the ticket ends. -/
def finishTicket (s : State) (t : Nat) (tk : Ticket) (r : Reply) : State := deliver (endTicket s t tk) tk.chan r

/-- Answers a ticket finally. -/
def answer (s : State) (t status : Nat) (detail : Nat := 0) (payload : Bytes := []) : State :=
  match tget s.cmd.tickets t with
  | some tk => finishTicket s t tk (mkReply s tk status detail payload true)
  | none => s

/-- Commands whose table-log records have all been programmed need not wait for them any more (R124): answered, unless their order
record must still be confirmed (R321). -/
def tlogAnswer (s : State) : State :=
  let first := ((s.val.topen.head?).map (·.seq)).getD s.val.tnext
  let done := s.val.tlogTickets.filter fun x => decide (x.2 < first)
  done.foldl (fun s x => match tget s.cmd.tickets x.1 with
    | some tk => (match tk.st with
      | .hold true idx r =>
        if ! ropeSynced s || idx ≤ s.rope.confirmed then finishTicket s x.1 tk r
        else { s with cmd.tickets := tset s.cmd.tickets x.1 { tk with st := .hold false idx r } }
      | _ => s)
    | none => s) { s with val.tlogTickets := s.val.tlogTickets.filter fun x => ! decide (x.2 < first) }

/-- Ends a command that changed state: `tbl` when it changed a system table (R124), `mir` when it changed mirrored
state, with the numbers the Lead assigned (R312, R399). -/
def conclude (s : State) (t : Nat) (tbl mir : Bool) (status : Nat) (detail : Nat := 0) (payload : Bytes := [])
    (nums : List Nat := []) : State :=
  match tget s.cmd.tickets t with
  | none => s
  | some tk =>
    let r := mkReply s tk status detail payload true
    let o := if mir then orderIf s (.command tk.op tk.tag tk.principal nums tk.par) else (s, 0)
    let idx := if ropeSynced s then o.2 else 0
    let s := o.1
    if tbl then
      let s := tableLog { s with cmd.tickets := tset s.cmd.tickets t { tk with st := .hold true idx r } }
      tlogAnswer { s with val.tlogTickets := s.val.tlogTickets ++ [(t, s.val.tnext - 1)] }
    else if idx = 0 then finishTicket s t tk r
    else { s with cmd.tickets := tset s.cmd.tickets t { tk with st := .hold false idx r } }

/-! ## Check-value contexts (R300, R303, R475) -/

/-- An element of a list of numbers. -/
def numAt (l : List Nat) (i : Nat) : Nat := l.getD i 0

/-- A check-value context (R300): 1,024, reset values of Table 10-12. -/
def ctxOf (s : State) (n : Nat) : CvuCtx := (tget s.key.ctx n).getD {}
def setCtx (s : State) (n : Nat) (c : CvuCtx) : State := { s with key.ctx := tset s.key.ctx n c }

/-- CVU_CONTEXT_SET as numbers: width, polynomial, initial, REFIN, REFOUT, XOROUT, preset, owner, CHAINED, running value
given, its value. -/
def setCtxNums (s : State) (ctx : Nat) (l : List Nat) : State :=
  let c := ctxOf s ctx
  setCtx s ctx { c with
    width := numAt l 0, poly := numAt l 1, init := numAt l 2, refin := numAt l 3 != 0, refout := numAt l 4 != 0,
    xorout := numAt l 5, preset := numAt l 6, owner := numAt l 7, chained := numAt l 8 != 0,
    value := if numAt l 9 != 0 then numAt l 10 else c.value }

/-- The register bits of a context (Table 10-12, Table 10-13). -/
def ctxCfgBits (c : CvuCtx) : Nat :=
  c.width + c.refin.toNat * 128 + c.refout.toNat * 256 + c.chained.toNat * 512 + c.preset * 1024 + c.owner * 65536

/-- The values of a context after a window write of its registers (R303): the bits that the access covers replaced, an
out-of-range WIDTH or PRESET left as it is, a new PRESET of 1 to 6 loaded. -/
def ctxWritten (c : CvuCtx) (off : Nat) (d : Bytes) : List Nat :=
  let reg := off / 8 * 8
  let sh := if d.length = 8 then 1 else 2 ^ (off % 8 / 4 * 32)
  let mask := (if d.length = 8 then 2 ^ 64 - 1 else 2 ^ 32 - 1) * sh
  let cover (old : Nat) : Nat := old - Nat.land old mask + leNat d * sh
  let cfg := cover (ctxCfgBits c)
  let preset := bits cfg 10 4
  let width := bits cfg 0 7
  if reg = 0x80008 then
    match (if preset = c.preset then none else crcPreset preset) with
    | some x => [x.1, x.2.1, x.2.2.1, x.2.2.2.1.toNat, x.2.2.2.2.1.toNat, x.2.2.2.2.2, preset, bits cfg 16 12, bits cfg 9 1, 0, 0]
    | none => [if 8 ≤ width ∧ width ≤ 64 then width else c.width, c.poly, c.init, bits cfg 7 1, bits cfg 8 1, c.xorout,
               if preset ≤ 6 then preset else c.preset, bits cfg 16 12, bits cfg 9 1, 0, 0]
  else
    [c.width, if reg = 0x80010 then cover c.poly else c.poly, if reg = 0x80018 then cover c.init else c.init, c.refin.toNat,
     c.refout.toNat, if reg = 0x80020 then cover c.xorout else c.xorout, c.preset, c.owner, c.chained.toNat,
     if reg = 0x80028 then 1 else 0, cover c.value]

/-- One waiting change has its turn: done, or still waiting (at the Lead, for its order record). -/
def ctxTry (s : State) (w : CtxWait) : State × Option CtxWait :=
  if (ctxOf s w.ctx).busy || s.rope.handover.isSome then (s, some w)
  else match w.ticket, w.raw with
    | some t, _ => (conclude (setCtxNums s w.ctx w.nums) t false true scOk 0 [] (w.ctx :: w.nums), none)
    | none, some (off, d) =>
      let l := ctxWritten (ctxOf s w.ctx) off d
      let o := orderIf s (.command 0x0409 0 noPrincipal (w.ctx :: l) [])
      if ! ropeSynced s || o.2 == 0 then (setCtxNums o.1 w.ctx l, none)
      else (o.1, some { w with idx := o.2, nums := l, raw := none })
    | none, none =>
      if ! ropeSynced s || w.idx ≤ s.rope.confirmed then (setCtxNums s w.ctx w.nums, none) else (s, some w)

/-- The waiting changes have their turns, in order for each context. -/
def ctxTurn (s : State) : State :=
  let r := s.key.ctxWait.foldl (fun (r : State × List CtxWait) w =>
    if r.2.any (·.ctx == w.ctx) then (r.1, r.2 ++ [w])
    else
      let x := ctxTry r.1 w
      (x.1, r.2 ++ x.2.toList)) (s, [])
  { r.1 with key.ctxWait := r.2 }

/-- Waits for its turn, which may be at once. -/
def ctxLater (s : State) (w : CtxWait) : State := ctxTurn { s with key.ctxWait := s.key.ctxWait ++ [w] }

/-- Holds that nothing keeps any more are answered: the table-log record is programmed, and the Second has applied the
order record or confirms none (R124, R321); what waits for the Second's confirmation takes effect (R475). -/
def releaseHolds (s : State) : State :=
  ctxTurn (s.cmd.tickets.foldl (fun s x => match x.2.st with
    | .hold false idx r => if ! ropeSynced s || idx ≤ s.rope.confirmed then finishTicket s x.1 x.2 r else s
    | _ => s) s)

/-- A refusal: nothing has changed, and the answer goes at once. -/
def refuse (s : State) (t status : Nat) (detail : Nat := 0) : State := answer s t status detail

/-- OUT_OF_RANGE where the spec gives the parameters no layout, or where no parameter but a resource is short: the offset
is a free value. -/
def rangeFree (s : State) (t : Nat) : State := answer (useFree s) t scOutOfRange (freeVal s % 2 ^ 32)

/-- Commands that change mirrored state (R312, R400). -/
def mirroredOp (op : Nat) : Bool :=
  [0x0103, 0x0104, 0x0405, 0x0409].contains op ||
  ((op / 256 == 2 || op / 256 == 3) &&
   ! [0x0202, 0x0205, 0x0208, 0x020E, 0x0302, 0x030D, 0x0211, 0x0310, 0x0304, 0x030E, 0x030F].contains op)

/-! ## Guides (R10, R395) -/

/-- A function's number: class × 16,384 + index. Class 8 is a power domain of the core. -/
def fnKey (cls idx : Nat) : Nat := cls * 16384 + idx
def fnCls (k : Nat) : Nat := k / 16384
def fnIdx (k : Nat) : Nat := k % 16384

/-- A function's ladder state. -/
def ladFn (s : State) (k : Nat) : LadFn := (tget s.ladder.fns k).getD {}
def setLadFn (s : State) (k : Nat) (f : LadFn) : State := { s with ladder.fns := tset s.ladder.fns k f }

/-- Commands that hardware executes (R395). -/
def brakeOp (op : Nat) : Bool := op / 256 == 0x0B
def ladderOp (op : Nat) : Bool := op / 256 == 0x0A

/-- A guide runs from stage 5 on (Table 17-2) while its domain is on and the ladder neither holds it nor reloads it. -/
def guideRuns (s : State) (g : Nat) : Bool :=
  decide (5 ≤ getF s Reg.fabStartStatusStage) && domOn s (10 + g) && ! (ladFn s (fnKey 3 g)).held && (ladFn s (fnKey 3 g)).rung == 0

/-- Whether something can take a guide command: a running guide, or in recovery boot the boot ROM (R456). -/
def guidesRun (s : State) : Bool :=
  (isSet s Reg.fabStartStatusRecovery && s.start.halted) || (List.range 32).any (guideRuns s)

/-- Whether a command can be taken now: brake and ladder commands need no guide (R395). -/
def canTake (s : State) (op : Nat) : Bool := brakeOp op || ladderOp op || guidesRun s

/-- The guide that takes a command: the spec does not say which of those that run; a free pick (log entry 92). -/
def pickGuide (s : State) (op : Nat) : Option Nat :=
  let l := (List.range 32).filter (guideRuns s)
  if brakeOp op || ladderOp op then none else l[freeVal s % max 1 l.length]?

/-- A guide executes nothing. -/
def guideIdle (s : State) (g : Nat) : Bool := ! s.cmd.tickets.any fun x => x.2.guide == some g

/-- The commands of a guide that stops go on at another that runs, if there is one (Table 16-3: requeue its commands). -/
def requeueGuide (s : State) (g : Nat) : State :=
  { s with cmd.tickets := s.cmd.tickets.map fun x =>
      (x.1, if x.2.guide = some g then { x.2 with guide := (List.range 32).find? fun h => h != g && guideRuns s h } else x.2) }

/-- What a command names: kind and number (R396, Tables 4-1, 5-9, 5-10, 10-1, 14-7; log entry 111). -/
def Ticket.targets (tk : Ticket) : List (Nat × Nat) :=
  let p := tk.par
  if tk.op < 0x0200 ∨ 0x0500 ≤ tk.op then []
  else if tk.op = 0x0201 then [(1, le p 12 3 % 2 ^ 22)]
  else if tk.op = 0x0301 then []
  else if tk.op = 0x0307 then (1, le p 0 4 % 2 ^ 22) :: (if bit (le p 4 1) 0 then [(7, le p 5 1)] else [])
  else if tk.op = 0x0308 then [(4, le p 0 2)]
  else if tk.op = 0x0309 then
    ((List.range (le p 2 2)).map fun i => (1, le p (16 + 16 * i) 3 % 2 ^ 22)) ++ Config.cmdTargets tk.op p
  else if tk.op = 0x0401 then [(7, le p 4 1)]
  else Config.cmdTargets tk.op p

/-- No command that was accepted earlier, and waits still, names the same object, region, queue, topo, connection, slot or root
(R396). -/
def inOrder (s : State) (t : Nat) : Bool :=
  match tget s.cmd.tickets t with
  | none => true
  | some tk => s.cmd.tickets.all fun x =>
      ! decide (x.1 < t) || (match x.2.st with | .waiting => false | _ => true) || ! tk.targets.any x.2.targets.contains

/-- The opcode's ticket, taken by a guide (or by the hardware engine): none when the ticket is not one of this opcode, while
no guide runs that could take it (R395), before an earlier one on the same target (R396), and for a mirrored command once a
HANDOVER has been sent (R334). -/
def takeTicket (s : State) (t op : Nat) : Option Ticket :=
  match (if mirroredOp op && s.rope.handover.isSome || ! canTake s op || ! inOrder s t then none else tget s.cmd.tickets t) with
  | some tk => if tk.op = op then (match tk.st with | .waiting => some tk | _ => none) else none
  | none => none

/-- Marks a ticket as executing, with what it keeps and the guide that has it. -/
def working (s : State) (t : Nat) (aux : List Nat := []) : State :=
  let r := useFree s
  { r with cmd.tickets := tmod s.cmd.tickets t fun tk => { tk with st := .executing, aux := aux, guide := pickGuide s tk.op } }

end Sys2Proof.Machine
end

