-- ==== Sys2Proof/Machine/Settle.lean ====
section
/-! DEFINITION. How messages end (3, 4): completions in MSN order, release points, revocation, deletion. -/

namespace Sys2Proof.Machine

def showConns (s : State) : State := setF s Reg.hpConnStatusConns (s.conns.countP (·.2.st.live))
def showLandings (s : State) : State := setF s Reg.hpConnStatusLandings s.ops.landings.length

/-! ## Key slots freed -/

def showSlots (s : State) : State := setF s Reg.keyCfgSlotsFree (4096 - s.key.slots.length)

/-- A slot is freed. -/
def freeSlot (s : State) (n : Nat) : State := showSlots { s with key.slots := tdel s.key.slots n }

/-- A title slot loses one user, and is freed with the last (R277). -/
def dropTitleUser (s : State) (n : Nat) : State :=
  match tget s.key.slots n with
  | some k => if k.users ≤ 1 then freeSlot s n else { s with key.slots := tset s.key.slots n { k with users := k.users - 1 } }
  | none => s

/-! ## Objects and regions -/

/-- The number of an object is freed: its slabs are UNWRITTEN, its summit run and title slot are free, and the commands
that waited for the deletion are answered (R135, R263, R277). -/
def freeObject (s : State) (n : Nat) (o : Obj) : State :=
  let s := o.slabs.foldl trimSlab s
  let s := match o.sealed_.bind (·.slot) with | some k => dropTitleUser s k | none => s
  let s := showLocked { s with sum.runs := tdel s.sum.runs n, tables.objects := tdel s.tables.objects n }
  o.waiters.foldl (fun s t => conclude s t true true scOk 0 [] [n]) s

/-- The segments of some slabs that are not built yet. -/
def unbuiltOf (s : State) (l : List Nat) : List Nat := ((l.map segOf).eraseDups).filter fun g => ! segBuilt s g

/-- A DELETING object with no region left that is not REVOKED is deleted (R135), once its segments are built (R158). -/
def tryDelete (s : State) (n : Nat) : State :=
  match tget s.tables.objects n with
  | some o =>
    if o.st = .deleting && ! (s.tables.regions.any (·.2.obj == n)) then
      match unbuiltOf s o.slabs with
      | [] => freeObject s n o
      | l => l.foldl askSegment s
    else s
  | none => s

/-- A region reaches REVOKED: its index is free, its fence ends, its revocations are answered and, after a PENDING
answer, its owner hears of it (R87, R92). -/
def revoked (s : State) (i : Nat) (r : Region) : State :=
  let s := { s with tables.regions := tdel s.tables.regions i }
  let s := if r.pendingSent then ownerEvent s r.ownConn r.owner 0x0202 0 r.key else s
  let s := r.revokers.foldl (fun s t => conclude s t true true scOk 0 [] [r.key]) s
  tryDelete s r.obj

/-- A region with no operation in flight leaves DRAINING (R87). -/
def drainCheck (s : State) (i : Nat) : State :=
  match tget s.tables.regions i with
  | some r => if r.draining && r.inflight == 0 then revoked s i r else s
  | none => s

/-- DRAINING, and REVOKED at the same instant when nothing is in flight. -/
def drainRegion (s : State) (i : Nat) : State :=
  drainCheck { s with tables.regions := tmod s.tables.regions i fun r => { r with draining := true } } i

/-- Raises the in-flight count (Table 4-2, step 11). -/
def holdRegion (s : State) (i : Nat) : State :=
  { s with tables.regions := tmod s.tables.regions i fun r => { r with inflight := r.inflight + 1 } }

/-- A release point (Table 4-3). -/
def releaseRegion (s : State) (i : Nat) : State :=
  drainCheck { s with tables.regions := tmod s.tables.regions i fun r => { r with inflight := r.inflight - 1 } } i

/-! ## Messages -/

def msgOf (s : State) (ci msn : Nat) : Option Msg := (tget s.conns ci).bind fun c => tget c.msgs msn
def setMsg (s : State) (ci msn : Nat) (m : Msg) : State := modConn s ci fun c => { c with msgs := tset c.msgs msn m }
def modMsg (s : State) (ci msn : Nat) (f : Msg → Msg) : State := modConn s ci fun c => { c with msgs := tmod c.msgs msn f }

/-- Requests parked: 0–65,536 (R141). -/
def parkedNow (s : State) : Nat := (s.conns.map fun x => x.2.msgs.countP (·.2.parked)).sum
def showParked (s : State) : State := setF s Reg.campRangeStatusParked (parkedNow s)

/-- A write or atomic that has been validated counts on the charge of a slab while bytes of it are still to be applied (R97). -/
def Msg.claims (m : Msg) (n : Nat) : Bool :=
  m.st == .running && m.region.isSome && ! m.wthru && m.first.ty != tyRead && m.mlen != 0 &&
  (match rangeOf m.first with
   | some x => (slabsOf x.addr x.len).contains n && (m.first.ty == tyAtomic ||
       (linesOf x.addr x.len).any fun l => l / 256 == n && ! m.applied.contains l)
   | none => false)

/-- The slabs that a COPY or WRITE work request writes. -/
def wrSlabs (w : Bytes) : List Nat := if wrOp w = woCopy ∨ wrOp w = woWrite then slabsOf (wrDst w) (wrLen w) else []

/-- So does a work request that has its reservation, until its last byte is written (R97). -/
def WrRun.claims (l : WrRun) (w : Bytes) (n : Nat) : Bool :=
  l.waiting.isNone && ! l.wthru && decide (l.offset < wrLen w) && (wrSlabs w).contains n

/-- Whether an operation in progress counts on the charge of a slab. -/
def claimed (s : State) (n : Nat) : Bool :=
  (s.conns.any fun c => c.2.msgs.any fun m => m.2.claims n) ||
  s.tables.queues.any fun q => match q.2.run with
    | some r => r.live.any fun l => l.claims (q.2.wr l.slot) n
    | none => false

/-- Slabs that no longer need their charge give it up: those that hold no dirty byte and on which nothing counts (R97, R136). -/
def dropReservation (s : State) (l : List Nat) : State :=
  if l.isEmpty then s
  else budgetCheck (l.foldl (fun s n => if (slabOf s n).st.charged || claimed s n then s else uncharge s n) s)

/-- The slabs that a message's reservation covers. -/
def msgSlabs (m : Msg) : List Nat :=
  if m.region.isSome && m.first.ty != tyRead && m.mlen != 0 then ((rangeOf m.first).map fun x => slabsOf x.addr x.len).getD [] else []

/-- Chunks of a message (R52). -/
def chunkCount (unit mlen : Nat) : Nat := max 1 (cdiv mlen unit)

/-- Unused invocations of a sealed READ or PUSH go back (R283). -/
def returnInvocations (s : State) (ci k : Nat) : State :=
  if k = 0 then s
  else match (tget s.conns ci).bind (connSlot s) with
    | some (n, ks) => setSlot s n { ks with resv := ks.resv - k }
    | none => s

/-- The invocations that a READ leaves unused at its release point: all but one for each chunk of its response, which
uses it when it is sealed (R283). -/
def unusedInvocations (s : State) (ci : Nat) (m : Msg) : Nat :=
  match tget s.conns ci, m.st with
  | some c, .done (.resp d _ _) => m.inv - chunkCount c.unit d.length
  | _, _ => m.inv

/-- What a message holds is released: its region, its reservation, its ingress room, its place in the budget queue. -/
def releaseMsg (s : State) (ci msn : Nat) (m : Msg) : State :=
  let s := { s with
    ops.budgetQ := s.ops.budgetQ.filter fun r => match r.who with
      | .msg c n => ! (c == ci && n == msn)
      | _ => true
    range.leaving := (s.range.leaving.map fun x => (x.1, x.2.1, x.2.2.filter (· != (ci, msn)))).filter fun x => ! x.2.2.isEmpty
    val.held := s.val.held.filter fun x => ! (x.2.1 == ci && x.2.2 == msn) }
  let s := setMsg s ci msn { m with occ := [], resv := [], wait := [], region := none, parked := false, inv := 0 }
  let s := occRelease (dropReservation s (msgSlabs m)) m.occ
  let s := showParked (returnInvocations s ci (unusedInvocations s ci m))
  match m.region with
  | some i => releaseRegion s i
  | none => s

/-- READ-RESP of an ended READ or atomic, with a completion extension on its Last chunk when a flag is set (R102). -/
def respMsg (c : Conn) (msn : Nat) (m : Msg) (data : Bytes) (poison : List Nat) (flags : Nat) : OutMsg :=
  { ty := tyReadResp, msn := msn, data := data, poison := poison, sealIt := m.sealOut,
    addr := ((rangeOf m.first).map (·.addr)).getD 0, chk := outCheck c data,
    last := if flags = 0 then [] else [compExt csOk msn flags] }

/-- Sends what is due of a connection's sequence, in MSN order (R63). A READ whose seal units are still being verified
takes its place in the sending queue already. Gives whether a completion became ready. (`fuel`: the span is 256.) -/
def settleN (ci : Nat) : Nat → State × Bool → State × Bool
  | 0, r => r
  | fuel + 1, (s, any) =>
    match tget s.conns ci with
    | none => (s, any)
    | some c =>
      match tget c.msgs c.nextDone with
      | none => (s, any)
      | some m =>
        let msn := c.nextDone
        let pass := fun (c : Conn) => { c with msgs := tdel c.msgs msn, nextDone := msnAdd msn 1 }
        match m.st with
        | .done (.comp st fl) =>
          settleN ci fuel (modConn s ci fun c => let c := pass c
            if isSecond s then c else { c with outst := c.outst ++ [{ msn := msn, status := st, flags := fl }] }, true)
        | .done (.resp d p fl) =>
          settleN ci fuel (modConn s ci fun c => let c' := pass c
            if isSecond s || m.out then c' else { c' with respQ := c'.respQ ++ [respMsg c msn m d p fl] }, any)
        | .done (.nak _) => settleN ci fuel (modConn s ci pass, any)
        | .done (.silent _) => settleN ci fuel (modConn s ci pass, any)
        | .running =>
          match m.payload with
          | some (d, p) =>
            if m.out || isSecond s then (s, any)
            else (modConn s ci fun c => { c with
              respQ := c.respQ ++ [respMsg c msn m d p (compFlags false m.fault m.throttled)],
              msgs := tset c.msgs msn { m with out := true } }, any)
          | none => (s, any)
        | _ => (s, any)

/-- Sends completions and responses that are due. -/
def settle (s : State) (ci : Nat) : State :=
  let r := settleN ci 260 (s, false)
  pump (if r.2 && ! isSecond s then ackAny r.1 ci else r.1) ci

/-- The last operation that a freed number left has ended: nothing of it is kept. -/
def dropOrphan (s : State) (ci : Nat) : State :=
  match tget s.conns ci with
  | some c => if 2 ^ 24 ≤ ci && c.msgs.all (fun x => match x.2.st with | .done _ => true | _ => false) then
      { s with conns := tdel s.conns ci } else s
  | none => s

/-- A message has ended: what it holds is released, and the sequence moves on. -/
def doneMsg (s : State) (ci msn : Nat) (r : Result) : State :=
  match msgOf s ci msn with
  | none => s
  | some m => dropOrphan (settle (releaseMsg (setMsg s ci msn { m with st := .done r }) ci msn { m with st := .done r }) ci) ci

/-- The OPERATION record of a request that ends (Table 11-5). -/
def opRecord (num msn : Nat) (m : Msg) (apply wait : Bool) (r : Result) (payload : Bytes) : OrderBody :=
  let x := (rangeOf m.first).getD ⟨0, 0, 0⟩
  let aop := ((atomOf m.first).map (·.op)).getD 0
  let status := match r with | .comp st _ => st | .resp .. => 0 | .nak k => 0xFF00 + k | .silent k => 0xFF00 + k
  let single := match r with | .comp _ f => f % 2 == 1 | _ => false
  let result := match r with | .resp d .. => if m.first.ty = tyAtomic then d else [] | _ => []
  .operation apply wait single m.first.ty aop num msn x.key x.addr status x.len
    (if payload.isEmpty then 0 else crc32c payload) result

/-- The operands of an atomic as a rope fill carries them: A and B, 16 bytes each. -/
def atomPayload (m : Msg) : Bytes := match atomOf m.first with | some x => beBytes 16 x.a ++ beBytes 16 x.b | none => []

/-- The message's payload in byte-offset order, as far as it was placed. -/
def msgPayload (m : Msg) : Bytes := (m.data.map (·.2)).flatten

/-- Whether a message writes roped data. -/
def msgRoped (s : State) (m : Msg) : Bool :=
  match rangeOf m.first with
  | some x => (m.first.ty == tyWrite || m.first.ty == tyWritep || m.first.ty == tyAtomic) &&
      (match objAt s x.addr with | some (_, o) => o.mirror == mirRoped | none => false)
  | none => false

/-- WRITEP and FLUSH promise persistence at both twins (R98, R99). -/
def msgPersist (m : Msg) : Bool := m.first.ty == tyWritep

/-- Adds SINGLE_COPY to a completion. -/
def Result.single : Result → Result
  | .comp st f => .comp st (withSingle f)
  | r => r

/-- A request ends at the part: it takes its order index (R317), a roped write waits for the Second (R321, R328), and the
result is then sent. -/
def endMsg (s : State) (ci msn : Nat) (r : Result) : State :=
  match tget s.conns ci with
  | none => s
  | some c =>
    match tget c.msgs msn with
    | none => s
    | some m =>
      let good := match r with | .comp _ _ => true | .resp .. => m.first.ty == tyAtomic | _ => false
      let roped := msgRoped s m && good
      let wr := (m.first.ty == tyWrite || m.first.ty == tyWritep || m.first.ty == tyAtomic) && good
      let apply := roped || (wr && team s == teamReturning)
      if s.rope.handover.isSome && role s == roleLead then s
      else if hasSecond s && (m.first.ty != tyMgmt) then
        let wait := roped
        let kept := if m.first.ty = tyAtomic then atomPayload m else msgPayload m
        let s := if apply then { s with rope.payload := tset s.rope.payload (s.rope.index + 1) kept } else s
        let o := order s (opRecord (connNum ci c) msn m apply wait r (if apply then msgPayload m else []))
        if wait && ropeSynced s then setMsg o.1 ci msn { m with st := .rope o.2 r }
        else if roped && msgPersist m then
          if getF s Reg.rlCfgHoldMs = 0 then doneMsg o.1 ci msn r.single
          else setMsg { o.1 with rope.hold := tset o.1.rope.hold o.2 (s.timebase + ms (getF s Reg.rlCfgHoldMs)) }
            ci msn { m with st := .rope o.2 r }
        else doneMsg o.1 ci msn r
      else doneMsg s ci msn (if roped && msgPersist m then r.single else r)

/-- Messages that waited for the Second's confirmation are answered (R321); `single`: without it (R328, R436). -/
def confirmMsgs (s : State) (upTo : Nat) (single : Bool) : State :=
  s.conns.foldl (fun s x => x.2.msgs.foldl (fun s y => match y.2.st with
    | .rope idx r => if idx ≤ upTo then
        doneMsg { s with rope.hold := tdel s.rope.hold idx } x.1 y.1 (if single && msgPersist y.2 then r.single else r) else s
    | _ => s) s) s

/-- A write, atomic or SEND whose chunks have all been placed is complete (R62): its operation goes on whatever becomes of its
connection (R60, R82). A READ has no effect but its response. -/
def Msg.complete (m : Msg) (unit : Nat) : Bool :=
  m.first.ty != tyRead && m.first.ty != tyMgmt && m.chunks.length == chunkCount unit m.mlen &&
  (match m.st with | .done _ => false | _ => true)

/-- The open messages of a connection are abandoned (R60, R80); complete ones stay, and nothing is sent. -/
def abandonOpen (s : State) (ci : Nat) : State :=
  match tget s.conns ci with
  | none => s
  | some c =>
    let gone := c.msgs.filter fun x => ! x.2.complete c.unit
    let s := gone.foldl (fun s x => releaseMsg s ci x.1 x.2) (uncoverConn s (connNum ci c))
    showParked (modConn s ci fun c => { c with msgs := c.msgs.filter fun x => x.2.complete c.unit, respQ := [], outst := [] })

/-- A message is abandoned (R60, R80): what it holds is released, and nothing is sent for it. Bytes placed stay. -/
def abandonMsgs (s : State) (ci : Nat) : State :=
  match tget s.conns ci with
  | none => s
  | some c =>
    let s := c.msgs.foldl (fun s x => releaseMsg s ci x.1 x.2) (uncoverConn s (connNum ci c))
    showParked (modConn s ci fun c => { c with msgs := [], respQ := [], outst := [] })

end Sys2Proof.Machine
end

