-- ==== Sys2Proof/Machine/Seal.lean ====
section
/-! DEFINITION. Sealed content (10): seal units, title decryption, the cipher request queue, sealed packets from a host. -/

namespace Sys2Proof.Machine

/-- Length of seal unit `u` of an object with data length `d` (R286). -/
def unitLen (d u : Nat) : Nat := min 4096 (d - u * 4096)

/-- The seal units of the data area that an extent of the object touches (`off` from the object's base). -/
def unitsOf (d off len : Nat) : List Nat :=
  if len = 0 then [] else (span (off / 4096) ((off + len - 1) / 4096 + 1)).filter fun u => decide (u * 4096 < d)

/-- The range address of a unit's tag. -/
def tagAddr (o : Obj) (si : SealInfo) (u : Nat) : Nat := o.base + cdiv si.dataLen 4096 * 4096 + 16 * u

/-- Whether a line of a seal unit, or of its tag, is poisoned: its tag cannot be verified (Table 8-7). -/
def unitPoisoned (s : State) (o : Obj) (si : SealInfo) (u : Nat) : Bool :=
  (linesOf (o.base + u * 4096) (unitLen si.dataLen u)).any (lineBad s) || lineBad s (tagAddr o si u / 64)

/-- The additional authenticated data of a seal unit (R286). -/
def unitAad (si : SealInfo) (u : Nat) : Bytes :=
  beBytes 8 si.titleId ++ beBytes 4 si.version ++ beBytes 8 u ++ beBytes 4 (unitLen si.dataLen u)

/-- The plaintext of a seal unit, `none` when its title tag fails. -/
def unitPlain (s : State) (o : Obj) (si : SealInfo) (u : Nat) : Option Bytes :=
  match si.slot.bind (tget s.key.slots) with
  | none => none
  | some k => gcmOpen (slotKey k k.genMax) (zeros 4 ++ beBytes 8 u) (unitAad si u)
      (rangeRead s (o.base + u * 4096) (unitLen si.dataLen u)) (rangeRead s (tagAddr o si u) 16)

/-- A unit as a sealed READ delivers it: zeros when poisoned, else its plaintext. -/
def unitBytes (s : State) (o : Obj) (si : SealInfo) (u : Nat) : Bytes :=
  if unitPoisoned s o si u then zeros (unitLen si.dataLen u)
  else (unitPlain s o si u).getD (zeros (unitLen si.dataLen u))

/-- An extent of a sealed object as a SEAL_OUT READ delivers it (R288): data-area bytes decrypted, tag-table bytes as
stored; every line of a poisoned unit is marked. -/
def openExtent (s : State) (o : Obj) (si : SealInfo) (a len : Nat) : Bytes × List Nat :=
  let off := a - o.base
  let us := unitsOf si.dataLen off len
  let raw := readExtent s a len
  let inData := min len (si.dataLen - off)
  let plain := (us.map (unitBytes s o si)).flatten
  let data := bsub plain (off - off / 4096 * 4096) inData ++ raw.1.drop inData
  let bad := (us.filter (unitPoisoned s o si)).flatMap fun u => linesOf (o.base + u * 4096) (unitLen si.dataLen u)
  (data, (raw.2.filter fun l => ! bad.contains l && decide (l * 64 ≥ o.base + si.dataLen)) ++
    bad.filter fun l => decide (a / 64 ≤ l ∧ l * 64 < a + len))

/-- The sealing facts of the object that holds an address, once its content is sealed. -/
def sealAt (s : State) (a : Nat) : Option (Nat × Obj × SealInfo) :=
  match objAt s a with
  | some (n, o) => o.sealed_.map fun si => (n, o, si)
  | none => none

/-- An extent as a region's reader sees it: decrypted where the region has SEAL_OUT and the object is sealed. -/
def sourceExtent (s : State) (sealOut : Bool) (a len : Nat) : Bytes × List Nat :=
  match (if sealOut then sealAt s a else none) with
  | some (_, o, si) => openExtent s o si a len
  | none => readExtent s a len

/-- A request joins the cipher queue: its first 4,096 stand in the queue, those behind them wait at their user (R281). -/
def cipherAsk (s : State) (slot : Nat) (use : CipherUse) : State :=
  { s with key.queue := s.key.queue ++ [{ slot := slot, use := use }] }

/-! ## Sealed packets from a host (R72, R73, R280, R284) -/

/-- The invocation count of a sealed packet: the last 64 bits of its IV. -/
def pktInvocation (e : Ext) : Nat := extW e 2 * 2 ^ 32 + extW e 3

/-- The IV of a nonce extension. -/
def nonceIv (e : Ext) : Bytes := beBytes 12 (extNum e 1 3)

/-- A sealed packet that R73, R280 or R284 calls malformed. -/
def sealMalformed (s : State) (c : Conn) (p : Pkt) : Bool :=
  p.seald && (match findExt p exNonce, connSlot s c with
    | some e, some (n, k) =>
      let g := pktInvocation e / 2 ^ k.limit
      e.lo.toNat % 4096 != n || decide (g > k.genMax) || decide (g + 1 < (k.in_ - 1) / 2 ^ k.limit)
    | _, _ => true)

/-- The packet with its payload and message check decrypted; `none` when the tag fails. -/
def openPkt (s : State) (c : Conn) (p : Pkt) : Option Pkt :=
  match findExt p exNonce, connSlot s c with
  | some e, some (_, k) =>
    (gcmOpen (slotKey k (pktInvocation e / 2 ^ k.limit)) (nonceIv e) (aadOf p) (p.payload ++ p.chk) p.tag).map fun d =>
      { p with payload := d.take p.payload.length, chk := d.drop p.payload.length }
  | _, _ => none

/-- The in count after an accepted sealed packet (Table 10-3). -/
def countIn (s : State) (c : Conn) (p : Pkt) : State :=
  match findExt p exNonce, connSlot s c with
  | some e, some (n, k) => setSlot s n { k with in_ := max k.in_ (pktInvocation e + 1) }
  | _, _ => s

end Sys2Proof.Machine
end

