-- ==== Sys2Proof/Machine/Valid.lean ====
section
/-! DEFINITION. Validating a request against its region (Table 4-2), reporting refusals (R104, R105), and reserving
bivouac budget (R97). -/

namespace Sys2Proof.Machine

/-- What an operation needs of its region. -/
inductive OpKind where
  | read | write | writep | flush | atomic (size : Nat)
  deriving DecidableEq, Repr

/-- The region that a key names, if its generation is current; generation 0 names none (R83). -/
def regionOf (s : State) (key : Nat) : Option Region :=
  match tget s.tables.regions (keyIdx key) with
  | some r => if r.key = key ∧ keyGen key ≠ 0 then some r else none
  | none => none

/-- Rights bits of Table 4-1. -/
def Region.sealOut (r : Region) : Bool := bit r.rights 4
def Region.holdMode (r : Region) : Bool := bit r.rights 5
def Region.report (r : Region) : Nat := r.rights / 64 % 4

/-- An identity may use a region: its owner, or a member of its access group (Table 4-2, step 4). -/
def mayUse (s : State) (ident owner group : Nat) : Bool :=
  ident == owner || (group != 0 && (match tget s.tables.groups group with | some g => g.members.contains ident | none => false))

/-- The right that an operation needs. -/
def OpKind.right : OpKind → Nat
  | .read => 0 | .write => 1 | .writep => 2 | .flush => 2 | .atomic _ => 3

/-- Steps 1 to 9 of Table 4-2, in order: the NAK with its detail, or the region's index. `slotOk`: a session slot that
can serve the request is bound. -/
def regionCheck (s : State) (ident : Nat) (slotOk : Bool) (k : OpKind) (x : RangeX) : (Nat × Nat) ⊕ Nat :=
  match regionOf s x.key with
  | none => .inl (nkRegionKey, x.key)
  | some r =>
    if s.cmd.fencedIds.contains ident then .inl (nkFenced, 0)
    else if r.fenced then .inl (nkFenced, x.key)
    else if r.draining then .inl (nkRegionNotActive, x.key)
    else if ! mayUse s ident r.owner r.group then .inl (nkAccessDenied, x.key)
    else if ! bit r.rights k.right then .inl (nkOpNotPermitted, x.key)
    else if ! (decide (r.base ≤ x.addr) && (if k = .flush then decide (x.addr < r.base + r.len)
        else decide (x.addr + x.len ≤ r.base + r.len))) then .inl (nkOutOfRegion, x.key)
    else if (match k with | .atomic n => x.addr % n != 0 | _ => false) then .inl (nkAlignment, x.addr % 2 ^ 32)
    else if r.sealOut && ! slotOk then .inl (nkSessionRequired, x.key)
    else if k != .read && team s == teamConflict && (match objAt s r.base with | some (_, o) => o.mirror == mirRoped | none => false)
      then .inl (nkRopeRefused, x.key)
    else .inr (keyIdx x.key)

/-- The base header and first extension of the refused chunk (Table 4-11). -/
def violationPayload (p : Pkt) : Bytes := headerBytes p ++ extsBytes (p.exts.take 1)

/-- ACCESS_VIOLATION for a region, at most one in EVT_GAP_US; the others are counted for the next (R105). -/
def violation (s : State) (i : Nat) (r : Region) (code ident : Nat) (p : Pkt) : State :=
  let due := match r.evtUntil with
    | some t => decide (t ≤ s.timebase)
    | none => true
  let set (f : Region → Region) : State := { s with tables.regions := tmod s.tables.regions i f }
  if due then
    ownerEvent (set fun r => { r with evtUntil := some (s.timebase + us (getF s Reg.hpOpCfgEvtGapUs)), unreported := 0 }) r.ownConn r.owner 0x0201
      (code + ident % 4096 * 256) (r.key * 2 ^ 32 + r.unreported % 2 ^ 32) (violationPayload p)
  else set fun r => { r with unreported := r.unreported + 1 }

/-- A refusal is counted in its region's refusal counter (R105). -/
def countRefusal (s : State) (key : Nat) : State :=
  if (regionOf s key).isSome then
    { s with tables.regions := tmod s.tables.regions (keyIdx key) fun r => { r with refusals := r.refusals + 1 } }
  else s

/-- A refusal found at a region: counted in its refusal counter, reported by its mode (R104, R105). Gives whether the
requester receives the NAK. -/
def reportRefusal (s : State) (key code ident : Nat) (p : Pkt) : State × Bool :=
  match regionOf s key with
  | none => (s, true)
  | some r =>
    let i := keyIdx key
    let s := countRefusal s key
    if nakReported code then
      let s := if r.report / 2 = 1 then violation s i { r with refusals := r.refusals + 1 } code ident p else s
      (s, r.report % 2 == 1)
    else (s, true)

/-! ## Budget reservations (R97) -/

/-- The charge a reservation asks for fits, and the valley is not write-limited (R213). -/
def budgetFits (s : State) (need : List Nat) : Bool :=
  ! isSet s Reg.valWearStatusWriteLimited && decide (s.range.dirtyList.length + need.length ≤ budgetSlabs s)

/-- How a reservation ends: charged now, write-through in its place, or waiting with its number. -/
inductive ResvOut where
  | charged (l : List Nat) | through | waits (id : Nat)
  deriving DecidableEq, Repr

/-- A reservation for an extent, in order behind those that wait (R97, R137). -/
def reserve (s : State) (who : ResvFor) (a len : Nat) : State × ResvOut :=
  if writeThrough s then (s, .through)
  else
    let need := uncharged s a len
    if need.isEmpty then (s, .charged [])
    else if s.ops.budgetQ.isEmpty && budgetFits s need then
      (destagePlan (budgetCheck (need.foldl charge s)), .charged need)
    else
      let id := s.ops.nextId
      let r : Resv := { id := id, who := who, slabs := slabsOf a len, until_ := s.timebase + ms (getF s Reg.hpOpCfgBudgetWaitMs) }
      (destagePlan { s with ops.budgetQ := s.ops.budgetQ ++ [r], ops.nextId := id + 1 }, .waits id)

/-! ## Writes and reads of the part itself: the Second's applies, work requests, unsealing -/

/-- A slab can take a write of the part's: its segment is built, it is resident or written whole, and a frame is free. -/
def applyReady (s : State) (a len n : Nat) : Bool :=
  segBuilt s (segOf n) && frameOk s n &&
  (match (slabOf s n).st with
   | .promoting => false
   | .valley => decide (a ≤ n * 16384 ∧ (n + 1) * 16384 ≤ a + len)
   | _ => true)

/-- A slab can be read by the part: its segment is built, and it is not in the valley only (log entry 110). -/
def readable (s : State) (n : Nat) : Bool :=
  segBuilt s (segOf n) && (slabOf s n).st != .valley && (slabOf s n).st != .promoting

/-- Slabs that the part's own work waits for: their segments are asked for, VALLEY slabs are promoted. -/
def askSlabs (s : State) (l : List Nat) : State :=
  l.foldl (fun s n => if ! segBuilt s (segOf n) then askSegment s (segOf n) else promote s 1 n (.promote n)) s

/-- Every DIRTY or PARTIAL slab is to be destaged. -/
def destageAll (s : State) : State :=
  (s.range.dirtyList.filter fun n => (slabOf s n).st == .dirty || (slabOf s n).st == .partial_).foldl
    (fun s n => addJob s 2 (.destage n)) s

/-- One slab in a CATCHUP frame, stamped with the order index at which it is read. -/
def sendSlab (s : State) (n : Nat) : State :=
  let s := campLines s false .ropeApply 0 (span (n * 256) (n * 256 + 256))
  ropeSend { s with rope.sentN := s.rope.sentN + 1 } true (.catchup n (rangeRead s (n * 16384) 16384)
    (((s.range.poison.filter (· / 256 == n)).map (· % 256))) s.rope.index)

/-- What the part itself wrote at a Lead with a Second goes into the order stream where it is roped, or while a return runs: an
OPERATION record of a WRITE on connection 0, whose payload the Second fills (R319); a slab that took poison follows in a CATCHUP
frame. Gives the index, else 0. DEDUCED from R98 and R321 (log entry 110). -/
def orderBytes (s : State) (addr : Nat) (d : Bytes) (poison : List Nat) : State × Nat :=
  let roped := match objAt s addr with | some (_, o) => o.mirror == mirRoped | none => false
  if hasSecond s && s.rope.handover.isNone && (roped || team s == teamReturning) && ! d.isEmpty then
    let o := order { s with rope.payload := tset s.rope.payload (s.rope.index + 1) d }
      (.operation true roped false tyWrite 0 0 0 0 addr 0 d.length (crc32c d) [])
    (if poison.isEmpty then o.1 else (slabsOf addr d.length).foldl sendSlab o.1, o.2)
  else (s, 0)

/-- Writes bytes into camp, once their slabs and the budget allow it; until then it waits (R97, R314). Gives whether they
are written. -/
def applyBytes (s : State) (conn addr : Nat) (d : Bytes) : State × Bool :=
  let l := (slabsOf addr d.length).filter fun n => ! applyReady s addr d.length n
  let need := uncharged s addr d.length
  if ! l.isEmpty then (askSlabs s l, false)
  else if ! writeThrough s && ! need.isEmpty && ! budgetFits s need then (destageAll s, false)
  else (destagePlan (writeRange s conn addr d), true)

end Sys2Proof.Machine
end

