-- ==== Sys2Proof/Machine/Chain.lean ====
section
/-! DEFINITION. Chain queues (4): work requests, triggers, runs, failures, and what a work request does. -/

namespace Sys2Proof.Machine

/-! ## Queues -/

def queueOf (s : State) (q : Nat) : Option Queue := tget s.tables.queues q
def setQueue (s : State) (q : Nat) (x : Queue) : State := { s with tables.queues := tset s.tables.queues q x }
def modQueue (s : State) (q : Nat) (f : Queue → Queue) : State := { s with tables.queues := tmod s.tables.queues q f }

/-- The slots in use, from the head. -/
def Queue.slots (x : Queue) : List Nat := (List.range x.used).map fun i => (x.head + i) % x.depth

/-- The slot of the first END at or after the head (R109). -/
def Queue.endSlot (x : Queue) : Option Nat := x.slots.find? fun k => wrEnd (x.wr k)

/-- Slots from one to another in ring order. -/
def Queue.between (x : Queue) (a b : Nat) : List Nat :=
  (List.range ((b + x.depth - a) % x.depth + 1)).map fun i => (a + i) % x.depth

/-- The cause number that CHAIN_ERROR carries: a NAK's code, else the model's own number for the cause (log entry 4). -/
def causeNum : ChainCause → Nat
  | .nak c => c
  | .landingNak c => c
  | .checkMismatch => 0x101 | .sourcePoisoned => 0x102 | .connectionLost => 0x103 | .budgetFull => nkBudgetFull
  | .invalidOpcode => 0x104 | .contextNotOwned => 0x105 | .storage => 0x106 | .invocations => nkSessionRequired

/-- A CHAIN record for the Second (Table 11-6). -/
def chainRec (s : State) (q ev conn msn : Nat) : State := (orderIf s (.chain q ev conn msn)).1

/-- The next run starts if the queue is IDLE, a trigger is pending and a complete chain is posted (R112); at a Second its
record starts it (R318). -/
def chainNext (s : State) (q : Nat) : State :=
  if isSecond s then s
  else match queueOf s q with
  | none => s
  | some x =>
    match x.st, x.pend, x.endSlot with
    | .idle, t :: rest, some e =>
      chainRec (setQueue s q { x with
        st := .running, pend := rest, run := some { first := x.head, fin := e, next := x.head, trig := t } }) q 2 t.conn t.msn
    | _, _, _ => s

/-- A SEND that passed every check (R112): its trigger starts a run (true) or becomes pending. -/
def acceptTrigger (s : State) (q : Nat) (t : Trig) : State × Bool :=
  match queueOf s q with
  | none => (s, false)
  | some x =>
    let starts := x.st == .idle && x.pend.isEmpty && x.endSlot.isSome
    (chainNext (chainRec (setQueue s q { x with pend := x.pend ++ [t] }) q 1 t.conn t.msn) q, starts)

/-- What a work request that was in flight held is released; it has left the run. -/
def releaseWr (s : State) (w : Bytes) (l : WrRun) : State :=
  let s := match connOf s l.inv.1 with
    | some _ => returnInvocations s (connIdx l.inv.1) l.inv.2
    | none => s
  l.regions.foldl releaseRegion (dropReservation s (wrSlabs w))

/-- A run ends when its END and every earlier work request are done: the head moves on or back, and the next pending
trigger may start (R112, R113). A stopped run ends when its last work request in flight has finished (R114). -/
def chainEnd (s : State) (q : Nat) : State :=
  match queueOf s q with
  | none => s
  | some x =>
    match x.run with
    | none => s
    | some r =>
      if ! r.live.isEmpty then s
      else if r.stopped then setQueue s q { x with run := none }
      else if r.ended then
        let gone := x.between r.first r.fin
        let x' := if x.repeatMode then { x with head := r.first }
          else { x with head := (r.fin + 1) % x.depth, used := x.used - gone.length, ring := gone.foldl tdel x.ring }
        let s := chainRec (setQueue s q { x' with run := none, st := .idle, runs := (x.runs + 1) % 2 ^ 32, logged := x'.head })
          q 3 r.trig.conn r.trig.msn
        chainNext (if x.repeatMode then s else tableLog s) q
      else s

/-- The context of a CHECK that ends without a result is free for the next one (R301). -/
def checkOver (s : State) (w : Bytes) (live : Bool) : State :=
  if live && wrOp w == woCheck then setCtx s (wrCtx w) { ctxOf s (wrCtx w) with busy := false } else s

/-- A work request fails (R114): the run stops, the queue enters ERROR, its pending triggers are discarded and the owner
hears of it. One that fails in a run already stopped leaves it, as those that finish do. -/
def chainFail (s : State) (q slot : Nat) (cause : ChainCause) : State :=
  match queueOf s q with
  | none => s
  | some x =>
    match x.run with
    | none => s
    | some r =>
      let w := x.wr slot
      let gone := r.live.filter (·.slot == slot)
      let off := ((gone.head?).map (·.offset)).getD 0
      let run := some { r with stopped := true, live := r.live.filter (·.slot != slot) }
      let s := setQueue s q (if r.stopped then { x with run := run } else
        { x with st := .error, pend := [], failures := (x.failures + 1) % 2 ^ 32, run := run })
      let s := checkOver (dropJobs (gone.foldl (releaseWr · w) s) fun k => k == .chain q slot) w (! gone.isEmpty)
      let s := { s with ops.budgetQ := s.ops.budgetQ.filter fun b => b.who != .wr q slot }
      if r.stopped then chainEnd s q
      else
        let s := chainRec s q 4 r.trig.conn r.trig.msn
        let s := ownerEvent s x.oconn x.owner 0x0203 q (wrTag w)
          (beBytes 4 slot ++ beBytes 4 (causeNum cause) ++ beBytes 4 x.pend.length ++ beBytes 4 off)
        chainEnd (logEv s srcOps .chainError noUnit [q, slot, causeNum cause, off]) q

def modWr (s : State) (q slot : Nat) (f : WrRun → WrRun) : State :=
  modQueue s q fun x => { x with run := x.run.map fun r => { r with live := r.live.map fun l => if l.slot = slot then f l else l } }

def wrRun (s : State) (q slot : Nat) : Option WrRun :=
  ((queueOf s q).bind (·.run)).bind fun r => r.live.find? (·.slot == slot)

/-- A work request is done: it leaves the run's work in flight, and the run may end; not once a HANDOVER has been sent. -/
def wrDone (s : State) (q slot : Nat) : State :=
  match (if s.rope.handover.isSome then none else wrRun s q slot) with
  | none => s
  | some l =>
    let w := ((queueOf s q).map (·.wr slot)).getD []
    let s := modQueue s q fun x => { x with run := x.run.map fun r =>
      { r with live := r.live.filter (·.slot != slot), done := r.done ++ [slot],
               ended := decide (r.next = (r.fin + 1) % x.depth) && (r.live.filter (·.slot != slot)).isEmpty } }
    chainEnd (releaseWr s w l) q

/-! ## Starting a work request (R110, R113) -/

/-- The connection a PUSH or NOTIFY goes to. -/
def wrTarget (w : Bytes) (t : Trig) : Nat := if wrToSender w then t.conn else wrConn w

/-- The source regions and destination regions a work request names, with what it needs of each. -/
def wrRegions (w : Bytes) : List (OpKind × RangeX) :=
  let src := [(OpKind.read, RangeX.mk (wrSrcKey w) (wrSrc w) (wrLen w))]
  let dst (n : Nat) : List (OpKind × RangeX) := [(if wrPersist w then OpKind.writep else .write, ⟨wrDstKey w, wrDst w, n⟩)]
  match wrOp w with
  | 1 => if wrArgSrc w then [] else src
  | 2 => (if wrArgSrc w then [] else src) ++ dst (wrLen w)
  | 3 => (if wrArgSrc w then [] else src) ++ (if wrDstKey w = 0 then [] else [(.write, ⟨wrDstKey w, wrDst w, 8⟩)])
  | 5 => dst (wrLen w)
  | _ => []

/-- Lengths out of Table 4-8's limits: no such extent lies in a region. -/
def wrLenOk (w : Bytes) : Bool :=
  if wrOp w = woNotify then true
  else if wrArgSrc w then decide (wrLen w ≤ 256)
  else if wrOp w = woWrite then decide (wrLen w ≤ 16) else decide (wrLen w ≤ 16777216)

/-- Validates every region a work request names, as its owner's request would be (R108); a failure gives the NAK code and the
region key. -/
def wrValidate (s : State) (ident : Nat) (slotOk : Bool) : List (OpKind × RangeX) → (Nat × Nat) ⊕ List Nat
  | [] => .inr []
  | (k, x) :: t =>
    match regionCheck s ident slotOk k x with
    | .inl e => .inl (e.1, x.key)
    | .inr i => match wrValidate s ident slotOk t with
      | .inl e => .inl e
      | .inr l => .inr (i :: l)

/-- The landing buffer of a PUSH: key and offset, from the request or the trigger's argument (Table 4-8). -/
def wrLanding (w : Bytes) (t : Trig) : Nat × Nat :=
  if wrToSender w then (le t.arg 0 4, le t.arg 4 4) else (wrDstKey w, wrDst w % 2 ^ 32)

def landingKey (ci key : Nat) : Nat := ci * 2 ^ 32 + key

/-- Whether a READ of these regions is sealed: a source region with SEAL_OUT. -/
def anySeal (s : State) (l : List Nat) : Bool :=
  l.any fun i => match tget s.tables.regions i with | some r => r.sealOut | none => false

/-- Whether the landing buffer of a PUSH is missing or too short: the part sends no such PUSH (R106, R107). -/
def landingFault (s : State) (w : Bytes) (t : Trig) : Option ChainCause :=
  let l := wrLanding w t
  match tget s.ops.landings (landingKey (connIdx (wrTarget w t)) l.1) with
  | none => some (.landingNak nkLandingKey)
  | some n => if l.2 + wrLen w > n then some (.landingNak nkLandingRange) else none

/-- What a PUSH needs of its connection: open, its landing buffer large enough, invocations left if sealed. Gives the
failure, or the invocations to reserve. -/
def pushCheck (s : State) (w : Bytes) (t : Trig) (seald : Bool) : ChainCause ⊕ Nat :=
  match connOf s (wrTarget w t) with
  | none => .inl .connectionLost
  | some c =>
    if ! c.st.isOpen then .inl .connectionLost
    else match landingFault s w t with
      | some e => .inl e
      | none =>
        if seald then
          match connSlot s c with
          | none => .inl .invocations
          | some (_, k) =>
            let need := cdiv (wrLen w) c.unit + 1
            if k.out + k.resv + need > 2 ^ k.limit * (k.genMax + 1) then .inl .invocations else .inr need
        else .inr 0

/-- Puts a work request into flight. -/
def wrAdd (s : State) (q slot : Nat) (l : WrRun) : State :=
  let s := l.regions.foldl holdRegion s
  modQueue s q fun x => { x with run := x.run.map fun r => { r with next := (slot + 1) % x.depth, live := r.live ++ [l] } }

/-- The bytes a WRITE stores. DESIGN CHOICE (log entry 120): where its length passes the end of the SEND argument, only the
bytes that the argument has are written (R110 does not say). -/
def wrWriteData (w : Bytes) (t : Trig) : Bytes := if wrArgSrc w then t.arg.take (wrLen w) else (wrImm w).take (wrLen w)

/-- The last byte of a write-through work request is written: it waits for the destage of what it changed (R137). -/
def wrThrough (s : State) (q slot : Nat) (w : Bytes) : State :=
  if ((wrRun s q slot).map (·.wthru)).getD false then
    let l := (slabsOf (wrDst w) (wrLen w)).filter fun n => (slabOf s n).st.charged
    modWr (l.foldl (fun s n => addJob s 2 (.destage n)) s) q slot fun x => { x with wait := l }
  else s

/-- The slabs that `n` bytes of a work request at offset `off` still wait for (R158; log entry 110): those of its source, those
of a COPY's or WRITE's destination. -/
def wrWaits (s : State) (w : Bytes) (off n : Nat) : List Nat :=
  (if wrArgSrc w || wrOp w == woWrite then [] else (slabsOf (wrSrc w + off) n).filter fun k => ! readable s k) ++
  (if wrOp w == woCopy || wrOp w == woWrite then
    (slabsOf (wrDst w + off) n).filter fun k => ! applyReady s (wrDst w + off) n k else [])

/-- What a work request wrote takes its order index (R98, R321); its completion waits for the Second. With the rope cut, one
that promises persistence waits HOLD_MS (R328). -/
def wrOrdered (s : State) (q slot : Nat) (w : Bytes) (addr : Nat) (d : Bytes) (poison : List Nat) : State :=
  let o := orderBytes s addr d poison
  if o.2 = 0 then o.1
  else
    let s := modWr o.1 q slot fun l => { l with idx := o.2 }
    let h := getF s Reg.rlCfgHoldMs
    if team s == teamCut && wrPersist w && h != 0 then { s with rope.hold := tset s.rope.hold o.2 (s.timebase + ms h) } else s

/-- A WRITE stores its bytes. -/
def wrStore (s : State) (q slot : Nat) (w : Bytes) (t : Trig) : State :=
  let d := wrWriteData w t
  let s := wrOrdered (writeRange s 0 (wrDst w) d) q slot w (wrDst w) d []
  wrThrough (modWr s q slot fun l => { l with offset := wrLen w, waiting := none }) q slot w

/-- The work of a started request whose budget is held: PUSH, COPY and CHECK become mover jobs of class 3, WRITE stores
its bytes (as such a job too where a slab of its extent must be waited for), NOTIFY sends its EVENT. -/
def wrBegin (s : State) (q slot : Nat) : State :=
  match queueOf s q, wrRun s q slot with
  | some x, some _ =>
    let w := x.wr slot
    match x.run with
    | none => s
    | some r =>
      match wrOp w with
      | 4 =>
        match connOf s (wrTarget w r.trig) with
        | some c =>
          if c.st.isOpen then
            modWr (sendEvent s (connIdx (wrTarget w r.trig)) 0x0204 (wrCtx w) (wrTag w) (beBytes 4 q)) q slot
              fun l => { l with offset := wrLen w }
          else chainFail s q slot .connectionLost
        | none => chainFail s q slot .connectionLost
      | 5 =>
        if (wrWaits s w 0 (wrLen w)).isEmpty && mayOrder s then wrStore s q slot w r.trig
        else addJob (modWr s q slot fun l => { l with waiting := none }) 3 (.chain q slot)
      | _ => addJob (modWr s q slot fun l => { l with waiting := none }) 3 (.chain q slot)
  | _, _ => s

/-- Starts the next work request of a run, once the limit of 8 in flight, FENCE and NOTIFY allow it (R113); a Second runs
none (R309). DESIGN CHOICE (log entry 122): of Table 4-2's step 8, which R108 applies to a work request "where it fits", a bound
session slot is asked of a PUSH only. A CHECK on a
CHAINED context waits for the CHECK that uses it (R301). -/
def wrStart (s : State) (q : Nat) : State :=
  match queueOf s q with
  | none => s
  | some x =>
    match x.run with
    | none => s
    | some r =>
      let slot := r.next
      let w := x.wr slot
      let past := r.next == (r.fin + 1) % x.depth && (! r.live.isEmpty || ! r.done.isEmpty)
      if r.stopped || past || decide (r.live.length ≥ 8) || isSecond s || rxOff s || s.rope.handover.isSome then s
      else if (wrFence w || wrOp w == woNotify) && ! r.live.isEmpty then s
      else if wrOp w == woCheck && (ctxOf s (wrCtx w)).chained && (ctxOf s (wrCtx w)).busy then s
      else if wrOp w = 0 ∨ wrOp w > 5 then chainFail s q slot .invalidOpcode
      else if ! wrLenOk w then chainFail s q slot (.nak nkOutOfRegion)
      else
        let slotOk := (match connOf s (wrTarget w r.trig) with | some c => c.slot.isSome | none => false) || wrOp w != woPush
        match wrValidate s x.owner slotOk (wrRegions w) with
        | .inl e => chainFail (countRefusal s e.2) q slot (.nak e.1)
        | .inr regs =>
          let seald := wrOp w == woPush && anySeal s regs
          let check := if wrOp w = woPush then pushCheck s w r.trig seald
            else if wrOp w = woCheck && (ctxOf s (wrCtx w)).owner != x.owner then .inl .contextNotOwned else .inr 0
          match check with
          | .inl c => chainFail s q slot c
          | .inr need =>
            let s := if need = 0 then s else
              match (connOf s (wrTarget w r.trig)).bind (connSlot s) with
              | some (n, k) => setSlot s n { k with resv := k.resv + need }
              | none => s
            let s := if wrOp w = woCheck then
              let c := ctxOf s (wrCtx w)
              setCtx s (wrCtx w) { c with busy := true } else s
            let start := if wrOp w = woCheck then
              (let c := ctxOf s (wrCtx w); if c.chained then c.value else c.init) else 0
            let l : WrRun := { slot := slot, regions := regs, value := start, inv := (wrTarget w r.trig, need) }
            if wrOp w = woCopy || wrOp w = woWrite then
              let out := reserve (wrAdd s q slot l) (.wr q slot) (wrDst w) (wrLen w)
              match out.2 with
              | .charged rs => wrBegin (modWr out.1 q slot fun l => { l with resv := rs }) q slot
              | .through => wrBegin (modWr out.1 q slot fun l => { l with wthru := true }) q slot
              | .waits id => modWr out.1 q slot fun l => { l with waiting := some id }
            else wrBegin (wrAdd s q slot l) q slot

/-! ## Moving (R146, Table 4-9) -/

/-- The register of a context's CRC after more bytes (R301). -/
def ctxRun (c : CvuCtx) (v : Nat) (d : Bytes) : Nat := crcRun c.width (c.poly % 2 ^ c.width) c.refin (v % 2 ^ c.width) d

/-- The source of a work request: the SEND argument, or the range; a PUSH from a SEAL_OUT region of sealed content
carries its plaintext, under the session slot (R288). DESIGN CHOICE (log entry 120): an extent past the end of the argument has
the bytes that there are (R110 does not say). -/
def wrSource (s : State) (w : Bytes) (t : Trig) (off n : Nat) : Bytes × List Nat :=
  if wrArgSrc w then (bsub t.arg off n, [])
  else sourceExtent s (wrOp w == woPush && (match regionOf s (wrSrcKey w) with | some r => r.sealOut | none => false))
    (wrSrc w + off) n

/-- One 4 KiB unit of a chain job (COPY moves, with its poison; CHECK runs its context); PUSH sends its message with the
last unit. Poison in a PUSH or CHECK source fails the work request (Table 8-7). A unit whose slabs are not at hand asks for
them, and is done later; none is done once a HANDOVER has been sent (R334). -/
def wrUnit (s : State) (q slot : Nat) : State :=
  match (if s.rope.handover.isSome then none else queueOf s q), wrRun s q slot with
  | some x, some l =>
    let w := x.wr slot
    match x.run with
    | none => s
    | some r =>
      let n := min 4096 (wrLen w - l.offset)
      let waits := wrWaits s w l.offset (if wrOp w = woWrite then wrLen w else n)
      if ! waits.isEmpty then askSlabs s waits
      else if ! mayOrder s then s
      else
      let src := wrSource s w r.trig l.offset n
      let s := if wrArgSrc w || wrOp w == woWrite then s else touchSlabs s (slabsOf (wrSrc w + l.offset) n)
      match wrOp w with
      | 5 => wrStore s q slot w r.trig
      | 2 =>
        let dst := wrDst w + l.offset
        let s := writeRange s 0 dst src.1
        let s := src.2.foldl (fun s b =>
          -- the destination line that takes a poisoned source line is written poisoned
          poisonLine s ((dst + (b * 64 - (wrSrc w + l.offset))) / 64)) s
        let s := wrOrdered s q slot w dst src.1 src.2
        let s := modWr s q slot fun l => { l with offset := l.offset + n }
        if l.offset + n < wrLen w then s else wrThrough s q slot w
      | 3 =>
        if ! src.2.isEmpty then chainFail s q slot .sourcePoisoned
        else
          let c := ctxOf s (wrCtx w)
          let v := ctxRun c l.value src.1
          let moved (s : State) : State := modWr s q slot fun l => { l with offset := l.offset + n, value := v }
          if l.offset + n < wrLen w then moved s
          else
            let res := crcFinish c.width c.refout c.xorout v
            let ended (s : State) : State :=
              setCtx (moved s) (wrCtx w) { c with busy := false, result := res, value := if c.chained then v else c.value }
            if wrDstKey w = 0 then
              if ! wrNoCompare w && res != leNat (wrImm w |>.take 8) then chainFail (ended s) q slot .checkMismatch else ended s
            else
              let o := applyBytes s 0 (wrDst w) (leBytes 8 res)
              if o.2 then wrOrdered (ended o.1) q slot w (wrDst w) (leBytes 8 res) [] else o.1
      | 1 =>
        if ! src.2.isEmpty then chainFail s q slot .sourcePoisoned
        else
          let s := modWr s q slot fun l => { l with offset := l.offset + n }
          if l.offset + n < wrLen w then s
          else match connOf s (wrTarget w r.trig) with
            | none => chainFail s q slot .connectionLost
            | some c =>
              let ld := wrLanding w r.trig
              let data := wrSource s w r.trig 0 (wrLen w)
              match landingFault s w r.trig with
              | some e => chainFail s q slot e
              | none =>
                if ! data.2.isEmpty then chainFail s q slot .sourcePoisoned
                else
                  let ci := connIdx (wrTarget w r.trig)
                  let p := partMessage s ci tyPush [landingExt ld.1 ld.2] data.1 (q * 4096 + slot)
                    (0, 0, 0) (anySeal s l.regions && c.slot.isSome)
                  modWr p.1 q slot fun l => { l with
                    pushMsn := some (ci, p.2), inv := (l.inv.1, l.inv.2 - chunkCount c.unit (wrLen w)) }
      | _ => s
  | _, _ => s

/-- Whether the mover of a work request has done all of it. -/
def wrMoved (s : State) (q slot : Nat) : Bool :=
  match queueOf s q, wrRun s q slot with
  | some x, some l => decide (l.offset ≥ wrLen (x.wr slot))
  | _, _ => true

/-- Whether a work request has finished its work: every byte moved; a PUSH acknowledged in full; a write-through one
destaged (R137); one that wrote roped data confirmed by the Second (R98, R321). -/
def wrFinished (s : State) (q slot : Nat) : Bool :=
  match queueOf s q, wrRun s q slot with
  | some x, some l =>
    let w := x.wr slot
    l.waiting.isNone && decide (l.offset ≥ wrLen w) &&
    (if wrOp w = woPush then
      match l.pushMsn with
      | some (ci, msn) => (match tget s.conns ci with
        | some c => ! (c.pushes.any fun p => p.1 == msn)
        | none => false)
      | none => false
     else l.wait.isEmpty &&
       (decide (l.idx ≤ s.rope.confirmed) || ! ropeSynced s && ! (team s == teamCut && thas s.rope.hold l.idx)))
  | _, _ => false

/-- Runs stand before their first work request again, with nothing in flight: this twin executes them no more (R334, R330). A
run that had stopped is over. -/
def haltRuns (s : State) : State :=
  s.tables.queues.foldl (fun s x => match x.2.run with
    | none => s
    | some r =>
      let s := modQueue s x.1 fun y => { y with
        run := if r.stopped then none else some { r with next := r.first, live := [], done := [], ended := false } }
      let s := r.live.foldl (fun s l => checkOver (releaseWr s (x.2.wr l.slot) l) (x.2.wr l.slot) true) s
      dropJobs { s with ops.budgetQ := s.ops.budgetQ.filter fun b => match b.who with | .wr q _ => q != x.1 | _ => true }
        fun k => match k with | .chain q _ => q == x.1 | _ => false) s

/-- PUSHes to a connection that is gone fail (R114). -/
def chainLost (s : State) (ci : Nat) : State :=
  s.tables.queues.foldl (fun s x => match x.2.run with
    | some r => r.live.foldl (fun s l => match l.pushMsn with
      | some (c, _) => if c = ci then chainFail s x.1 l.slot .connectionLost else s
      | none => s) s
    | none => s) s

end Sys2Proof.Machine
end

