-- ==== Sys2Proof/Machine/Req.lean ====
section
/-! DEFINITION. Requests from hosts: arrival (Table 3-5), validation (Table 4-2), execution (Table 4-4), tier faults (5). -/

namespace Sys2Proof.Machine

/-! ## What a request asks for -/

/-- The operation of a request packet (Table 4-4). -/
def reqKind (p : Pkt) : Option OpKind :=
  if p.ty = tyRead then some .read
  else if p.ty = tyWrite then some .write
  else if p.ty = tyWritep then some (if p.mlen = 0 then .flush else .writep)
  else if p.ty = tyAtomic then some (.atomic (atomSize (((atomOf p).map (·.op)).getD 1)))
  else none

/-- The extent that orders a request (R63): a FLUSH's is its whole region (R99). -/
def msgExtent (s : State) (m : Msg) : Option (Nat × Nat) :=
  match reqKind m.first, rangeOf m.first with
  | some .flush, some x => (regionOf s x.key).map fun r => (r.base, r.len)
  | some _, some x => some (x.addr, x.len)
  | _, _ => none

/-- The extents that serving a request reads: of a sealed READ every seal unit that it touches, whole, their tags, and what it asks of
the tag table (R289); else the request's own. -/
def msgParts (s : State) (m : Msg) : List (Nat × Nat) :=
  match msgExtent s m with
  | none => []
  | some e => match (if m.sealOut then sealAt s e.1 else none) with
    | none => [e]
    | some (_, o, si) => match unitsOf si.dataLen (e.1 - o.base) e.2 with
      | [] => [e]
      | u :: us =>
        let v := us.getLast?.getD u
        [(o.base + u * 4096, (v - u) * 4096 + unitLen si.dataLen v), (tagAddr o si u, 16 * (v - u + 1))] ++
          (if o.base + si.dataLen < e.1 + e.2 then [e] else [])

/-- Slabs and lines of what a request reads. -/
def partSlabs (l : List (Nat × Nat)) : List Nat := (l.flatMap fun e => slabsOf e.1 e.2).eraseDups
def partLines (l : List (Nat × Nat)) : List Nat := (l.flatMap fun e => linesOf e.1 e.2).eraseDups

def overlap (a b : Nat × Nat) : Bool := decide (a.1 < b.1 + b.2 ∧ b.1 < a.1 + a.2)

def Msg.over (m : Msg) : Bool := match m.st with | .done _ => true | _ => false

/-- Every earlier MSN of the connection is known, and none that still runs overlaps the extent (R63); on a connection in error
those that never arrived are abandoned (R60). -/
def earlierClear (s : State) (c : Conn) (msn : Nat) (e : Nat × Nat) : Bool :=
  (List.range (msnDist c.nextDone msn)).all fun i =>
    match tget c.msgs (msnAdd c.nextDone i) with
    | none => ! c.st.live
    | some m => m.over || (match msgExtent s m with | some f => ! overlap e f | none => true)

/-! ## Validation -/

/-- A request is refused: counted and reported by its region's mode, recorded, and its MSN is complete (R90, R104). -/
def refuseMsg (s : State) (ci msn k code detail : Nat) : State :=
  match tget s.conns ci, msgOf s ci msn with
  | some c, some m =>
    let r := reportRefusal s (((rangeOf m.first).map (·.key)).getD 0) code c.ident m.first
    endMsg (if r.2 then sendNak r.1 ci k code 0 msn detail else r.1) ci msn (if r.2 then .nak code else .silent code)
  | _, _ => s

/-- Invocations that a sealed READ reserves: one for each chunk, and one (R283). -/
def readInvocations (c : Conn) (len : Nat) : Nat := cdiv len c.unit + 1

/-- Whether a session slot can serve the request: bound, and with invocations left for a READ (R283). -/
def slotReady (s : State) (c : Conn) (k : OpKind) (len : Nat) : Bool :=
  match connSlot s c with
  | none => false
  | some (_, ks) =>
    if k = .read then decide (ks.out + ks.resv + readInvocations c len ≤ 2 ^ ks.limit * (ks.genMax + 1)) else true

/-- Validates a message once, against the region of its first accepted chunk (R88): steps 1 to 11 of Table 4-2. A request
whose index would pass the release mark's limit waits (R320). -/
def validateMsg (s : State) (ci msn k : Nat) : State :=
  match tget s.conns ci, msgOf s ci msn with
  | some c, some m =>
    match reqKind m.first, rangeOf m.first with
    | some kd, some x =>
      if m.validated || m.over || ! mayOrder s then s
      else match regionCheck s c.ident (slotReady s c kd x.len) kd x with
        | .inl (code, detail) => refuseMsg s ci msn k code detail
        | .inr i =>
          let r := tget s.tables.regions i
          let sealOut := (r.map (·.sealOut)).getD false
          let inv := if kd = .read && sealOut then readInvocations c x.len else 0
          let s := match (if inv = 0 then none else connSlot s c) with
            | some (n, ks) => setSlot s n { ks with resv := ks.resv + inv }
            | none => s
          let s := holdRegion s i
          let s := setMsg s ci msn { m with validated := true, region := some i, sealOut := sealOut && kd == .read,
                                            hold := (r.map (·.holdMode)).getD false, inv := inv, st := .running }
          let s := topoAccess s (slabsOf x.addr x.len)
          if kd = .read || kd = .flush then s
          else
            let o := reserve s (.msg ci msn) x.addr x.len
            match o.2 with
            | .charged l => modMsg o.1 ci msn fun m => { m with resv := l }
            | .through => modMsg o.1 ci msn fun m => { m with wthru := true }
            | .waits id => modMsg o.1 ci msn fun m => { m with st := .budget id }
    | _, _ => s
  | _, _ => s

/-! ## Tier faults (R139 to R144) -/

/-- The 4 KiB units of a slab that an extent touches. -/
def unitsNeeded (n a len : Nat) : List Nat :=
  (List.range 4).filter fun u => overlap (n * 16384 + u * 4096, 4096) (a, len)

/-- A READ may take a slab from camp: resident, or every unit it needs already filled (R139). -/
def readReady (s : State) (a len n : Nat) : Bool :=
  let x := slabOf s n
  match x.st with
  | .valley => false
  | .promoting => (unitsNeeded n a len).all fun u => bit x.filled u
  | _ => true

/-- Whether a request may park; one that would fault while the park table is full waits at the operation engine, and starts
nothing (R141). -/
def mayPark (s : State) (m : Msg) : Bool := m.parked || decide (parkedNow s < 65536)

/-- Parks a request (R141); `fault`: on a tier fault, not on a segment (R144). -/
def park (s : State) (ci msn : Nat) (m : Msg) (fault : Bool) : State :=
  if mayPark s m then showParked (setMsg s ci msn { m with parked := true, fault := m.fault || fault }) else s

def unpark (s : State) (ci msn : Nat) : State :=
  match msgOf s ci msn with
  | some m => if m.parked then showParked (setMsg s ci msn { m with parked := false }) else s
  | none => s

/-- EVENT POISON_DELIVERED to the region's owner, at most one per region per second (Table 4-11). -/
def poisonEvent (s : State) (i line : Nat) : State :=
  match tget s.tables.regions i with
  | none => s
  | some r =>
    let due := match r.poisonEvt with | some t => decide (s.timebase ≥ t + sec 1) | none => true
    if due then
      ownerEvent { s with tables.regions := tmod s.tables.regions i fun r => { r with poisonEvt := some s.timebase } }
        r.ownConn r.owner 0x0205 0 r.key (beBytes 8 (line * 64))
    else s

/-- The deadline of a READ, in ticks of the timebase (R84, R142); none outside the deadline class. -/
def msgDeadline (s : State) (m : Msg) : Option Nat :=
  match m.region.bind (tget s.tables.regions) with
  | some r => if r.deadline = 0 then none else some (m.arrival + us (8 * r.deadline))
  | none => none

/-- The camp port of a message's reads (Table 6-3): deadline egress of its sub-port, or demand. -/
def msgPort (s : State) (m : Msg) : CampPort := if (msgDeadline s m).isSome then .egress m.first.sub else .demand

/-- A READ whose data is at hand: read into the egress hold (its release point), with its poison and its deadline; a
sealed one asks for the title decrypt of each seal unit first (R289). -/
def serveRead (s : State) (ci msn : Nat) (c : Conn) (m : Msg) (x : RangeX) : State :=
  let s := match msgDeadline s m with
    | some d => modConn s ci fun c => { c with due := tset c.due msn d }
    | none => s
  let d := sourceExtent s m.sealOut x.addr x.len
  let s := match d.2, m.region, m.sealOut with
    | l :: _, some i, false => poisonEvent s i l
    | _, _, _ => s
  let us := match (if m.sealOut then sealAt s x.addr else none) with
    | some (_, o, si) => (unitsOf si.dataLen (x.addr - o.base) x.len).filter fun u => ! unitPoisoned s o si u
    | none => []
  let s := unpark s ci msn
  if us.isEmpty then endMsg s ci msn (.resp d.1 d.2 (compFlags false m.fault m.throttled))
  else
    let slot := ((sealAt s x.addr).bind (·.2.2.slot)).getD 0
    let s := modMsg s ci msn fun m => { m with
      units := us, payload := some d, unitBase := x.addr - ((sealAt s x.addr).map (·.2.1.base)).getD x.addr }
    settle (us.foldl (fun s u => cipherAsk s slot (.title (connNum ci c) msn u)) s) ci

/-- A READ is served straight from the valley (R142): at once, with the programs and erases on the dies of its slabs suspended,
or, where one may not be suspended any more, after its end (R204). The blocks that it reads are held until its release point
(R207). -/
def serveDirect (s : State) (ci msn : Nat) (c : Conn) (m : Msg) (x : RangeX) (slabs : List Nat) : State :=
  let m := { m with vdirect := true }
  if ! slabs.all (directOk s) then park (setMsg s ci msn m) ci msn m true
  else
    let s := suspendFor s slabs
    let held := (slabs.filterMap fun n => (slabOf s n).vloc).map fun v => (vBlock s v, ci, msn)
    serveRead (setMsg { s with val.held := s.val.held ++ held } ci msn m) ci msn c m x

/-- A READ takes its next step: unbuilt segments and tier faults park it, a deadline may turn it valley-direct, its lines
pass through summit, and it is served. One that has translated finishes from its frames, whatever leaves camp since (R148). -/
def runRead (s : State) (ci msn : Nat) (c : Conn) (m : Msg) (x : RangeX) : State :=
  if m.payload.isSome then s
  else
    let parts := msgParts s m
    let slabs := partSlabs parts
    let segs := (slabs.map segOf).eraseDups.filter fun g => ! segBuilt s g
    let bad := slabs.filter fun n => parts.any fun e => ! readReady s e.1 e.2 n
    if (! segs.isEmpty || ! bad.isEmpty && ! m.vdirect) && ! m.started && ! mayPark s m then s
    else if ! segs.isEmpty && ! m.started then segs.foldl askSegment (park s ci msn m false)
    else if ! bad.isEmpty && ! m.vdirect && ! m.started then
      match msgDeadline s m with
      | some d =>
        if d ≤ s.timebase + us (getF s Reg.campRangeCfgVdirectUs) then serveDirect s ci msn c { m with fault := true } x bad
        else bad.foldl (fun s n => promote s 1 n (.promote n)) (touchSlabs (park s ci msn m true) slabs)
      | none => bad.foldl (fun s n => promote s 1 n (.promote n)) (touchSlabs (park s ci msn m true) slabs)
    else if m.vdirect then serveDirect s ci msn c { m with fault := m.fault || ! bad.isEmpty } x bad
    else
      let s := if m.started then s
        else
          let own := linesOf x.addr x.len
          let look (s : State) (l : Nat) : State := sumLookup (own.contains l) (msgPort s m) (connNum ci c) s l
          modMsg ((partLines parts).foldl look (touchSlabs s slabs)) ci msn fun m => { m with started := true }
      if parts.any fun e => sumWaits s e.1 e.2 then unpark s ci msn
      else serveRead s ci msn c { m with started := true } x

/-! ## Writes -/

/-- Whether the bytes of a message from `lo` to `hi - 1` have all been placed. -/
def haveBytes (unit : Nat) (m : Msg) (lo hi : Nat) : Bool :=
  (span (lo / unit) ((hi - 1) / unit + 1)).all m.chunks.contains

/-- Bytes of a message from `lo`, as placed. -/
def msgBytes (unit : Nat) (m : Msg) (lo n : Nat) : Bytes :=
  bsub (((span (lo / unit) ((lo + n - 1) / unit + 1)).map fun k => (tget m.data (k * unit)).getD []).flatten) (lo % unit) n

/-- The part of a line that a write covers: first byte and length. -/
def lineCut (a len line : Nat) : Nat × Nat :=
  let lo := max a (line * 64)
  (lo, min (a + len) (line * 64 + 64) - lo)

/-- Applies the lines of one slab that are placed and not yet applied (R96), but for a part of a line under repair
(Table 8-13); a write of the whole of a VALLEY slab is
applied when all its lines are there (Table 5-3, no fill). -/
def applySlab (num unit : Nat) (x : RangeX) (n : Nat) (s : State) (m : Msg) : State × Msg :=
  let ls := (linesOf x.addr x.len).filter fun l => l / 256 == n && ! m.applied.contains l
  let whole := decide (x.addr ≤ n * 16384 ∧ n * 16384 + 16384 ≤ x.addr + x.len)
  let ready := ls.filter fun l => let c := lineCut x.addr x.len l
    haveBytes unit m (c.1 - x.addr) (c.1 - x.addr + c.2) && (c.2 == 64 || ! thas s.code.repairing l)
  if (slabOf s n).st == .valley && ready.length != ls.length then (s, m)
  else
    (ready.foldl (fun s l =>
      let c := lineCut x.addr x.len l
      writeSlab s num c.1 (msgBytes unit m (c.1 - x.addr) c.2) whole) s,
     { m with applied := m.applied ++ ready })

/-- A message failed its check: counted, and recorded (R75). -/
def checkFailed (s : State) (ci msn : Nat) : State :=
  logEv { s with port.checkFails := s.port.checkFails + 1 } srcTmt .messageCheck noUnit [ci, msn]

/-- The end of a write: its check (R75), then its completion, after destage while write-through holds (R137). -/
def finishWrite (s : State) (ci msn : Nat) (m : Msg) (x : RangeX) : State :=
  let bad := match m.chk with | some k => beNat k != crc64 (msgPayload m) | none => false
  let s := if bad then checkFailed s ci msn else s
  let r := Result.comp (if bad then csMessageCheck else csOk) (compFlags false m.fault m.throttled)
  let slabs := if m.wthru then (slabsOf x.addr x.len).filter fun n => (slabOf s n).st.charged else []
  if slabs.isEmpty then endMsg s ci msn r
  else setMsg (slabs.foldl (fun s n => addJob s 2 (.destage n)) s) ci msn { m with st := .destage r, wait := slabs }

/-- A WRITE or WRITEP takes its next step: lines apply as they are placed; VALLEY and PROMOTING slabs park it (R140); a slab for
which no frame is free is written later (R123). -/
def runWrite (s : State) (ci msn : Nat) (c : Conn) (m : Msg) (x : RangeX) : State :=
  let slabs := slabsOf x.addr x.len
  let whole (n : Nat) : Bool := decide (x.addr ≤ n * 16384 ∧ n * 16384 + 16384 ≤ x.addr + x.len)
  let segs := (slabs.map segOf).eraseDups.filter fun g => ! segBuilt s g
  let blocked := slabs.filter fun n => let st := (slabOf s n).st
    ! segBuilt s (segOf n) || st == .promoting || (st == .valley && ! whole n)
  let r := slabs.foldl (fun (p : State × Msg) n =>
    if blocked.contains n || ! frameOk p.1 n then p else applySlab (connNum ci c) c.unit x n p.1 p.2) (s, m)
  let s := destagePlan (setMsg r.1 ci msn r.2)
  let m := r.2
  if ! blocked.isEmpty then
    if ! mayPark s m then s else
    let faults := blocked.filter fun n => segBuilt s (segOf n)
    let s := park s ci msn m (! faults.isEmpty)
    faults.foldl (fun s n => promote s 1 n (.promote n)) (segs.foldl askSegment s)
  else
    let s := unpark s ci msn
    let m := { m with parked := false }
    if m.chunks.length = chunkCount c.unit m.mlen && m.applied.length = (linesOf x.addr x.len).length then
      finishWrite s ci msn m x
    else s

/-! ## Atomics (R100) -/

/-- The value an atomic leaves: CAS swaps B in where the operand equals A; FADD64 adds modulo 2^64. -/
def atomNew (op old a b : Nat) : Nat := if op = 2 then (old + a) % 2 ^ 64 else if old = a then b else old

/-- Whether the atomic writes its operand at all. -/
def atomWrites (op old a : Nat) : Bool := op == 2 || old == a

/-- An atomic takes its next step: it is performed once, on the line in summit or camp. -/
def runAtomic (s : State) (ci msn : Nat) (c : Conn) (m : Msg) (x : RangeX) (ax : AtomX) : State :=
  let n := x.addr / 16384
  let line := x.addr / 64
  let size := atomSize ax.op
  let st := (slabOf s n).st
  let away := st == .valley || st == .promoting
  if (! segBuilt s (segOf n) || away) && ! mayPark s m then s
  else if ! segBuilt s (segOf n) then askSegment (park s ci msn m false) (segOf n)
  else if away then promote (park s ci msn m true) 1 n (.promote n)
  else if ! frameOk s n then s
  else
    let s := if m.started then s else modMsg (sumLookup false .demand (connNum ci c) (touchSlabs s [n]) line) ci msn fun m => { m with started := true }
    if sumWaits s (line * 64) 64 then unpark s ci msn
    else
      let s := unpark s ci msn
      let flags := compFlags false m.fault m.throttled
      if lineBad s line then endMsg s ci msn (.resp (zeros size) [line] flags)
      else
        let oldB := rangeRead s x.addr size
        let old := leNat oldB
        let s := if atomWrites ax.op old ax.a then writeRange s (connNum ci c) x.addr (leBytes size (atomNew ax.op old ax.a ax.b)) else s
        let r := Result.resp oldB [] flags
        if m.wthru && (slabOf s n).st.charged then
          modMsg (addJob s 2 (.destage n)) ci msn fun m => { m with st := .destage r, wait := [n] }
        else endMsg (destagePlan s) ci msn r

/-- One message takes its next step, if nothing holds it back. -/
def runMsg (s : State) (ci msn : Nat) : State :=
  match tget s.conns ci with
  | none => s
  | some c =>
    match tget c.msgs msn with
    | none => s
    | some m =>
      match m.st, rangeOf m.first, reqKind m.first with
      | .running, some x, some kd =>
        match msgExtent s m with
        | some e =>
          if ! m.validated || ! earlierClear s c msn e then s
          else match kd with
            | .read => runRead s ci msn c m x
            | .flush => endMsg s ci msn (.comp csOk (compFlags false m.fault m.throttled))
            | .atomic _ => match atomOf m.first with
              | some ax => runAtomic s ci msn c m x ax
              | none => s
            | _ => runWrite s ci msn c m x
        | none => s
      | _, _, _ => s

/-! ## SEND (R111, R112) -/

/-- The entries of a SEND in a notification queue (Table 15-5): 44 bytes in the first, 56 in each that continues it. -/
def sendBodies (ident num len msn : Nat) (d : Bytes) : List NqBody :=
  .send ident num len msn (d.take 44) ::
    ((List.range (cdiv (len - 44) 56)).map fun i => .cont (bsub d (44 + 56 * i) 56))

/-- ACCESS_VIOLATION for a trigger tag, with its own gap (R105). -/
def tagViolation (s : State) (tag ident : Nat) (b : TagB) (p : Pkt) : State :=
  match queueOf s b.queue with
  | none => s
  | some q =>
    let due := match b.evtUntil with
      | some t => decide (t ≤ s.timebase)
      | none => true
    let set (f : TagB → TagB) : State := { s with tables.tags := tmod s.tables.tags tag f }
    if due then
      ownerEvent (set fun b => { b with evtUntil := some (s.timebase + us (getF s Reg.hpOpCfgEvtGapUs)), unreported := 0 }) q.oconn q.owner 0x0201
        (nkTriggerDenied + ident % 4096 * 256) (tag * 2 ^ 32 + b.unreported % 2 ^ 32) (violationPayload p)
    else set fun b => { b with unreported := b.unreported + 1 }

/-- A complete SEND (R111, R112). DESIGN CHOICE (log entry 121): a fenced identity and a failed message check are found before
the checks that R112 orders, which does not place them. -/
def runSend (s : State) (ci msn k : Nat) : State :=
  match tget s.conns ci, msgOf s ci msn with
  | some c, some m =>
    let d := msgPayload m
    let nak (s : State) (code detail : Nat) : State := endMsg (sendNak s ci k code 0 msn detail) ci msn (.nak code)
    if s.cmd.fencedIds.contains c.ident then nak s nkFenced 0
    else if (match m.chk with | some k => beNat k != crc64 d | none => false) then
      endMsg (checkFailed s ci msn) ci msn (.comp csMessageCheck 0)
    else match findExt m.first exTrigger with
      | none =>
        if m.mlen > 256 then nak s nkSendTooLong m.mlen
        else
          endMsg (nqPost s (getF s Reg.hpOpCfgSendNq) (sendBodies c.ident (connNum ci c) m.mlen msn d)) ci msn (.comp csSendQueued 0)
      | some e =>
        let tag := e.lo.toNat
        match tget s.tables.tags tag with
        | none => nak s nkTriggerUnknown tag
        | some b =>
          let owner := ((queueOf s b.queue).map (·.owner)).getD 4096
          if ! (c.ident == owner || mayUse s c.ident owner b.group) then
            let report := ((queueOf s b.queue).map (·.report)).getD 1
            let s := if report / 2 = 1 then tagViolation s tag c.ident b m.first else s
            if report % 2 = 1 then nak s nkTriggerDenied tag else endMsg s ci msn (.silent nkTriggerDenied)
          else if m.mlen > 256 then nak s nkSendTooLong m.mlen
          else match queueOf s b.queue with
            | none => nak s nkChainNotReady b.queue
            | some q =>
              if q.st == .error || decide (q.pend.length ≥ 15) then nak s nkChainNotReady b.queue
              else
                let r := acceptTrigger s b.queue ⟨connNum ci c, msn, d⟩
                endMsg r.1 ci msn (.comp (if r.2 then csOk else csTriggerPending) 0)
  | _, _ => s

/-! ## Progress -/

/-- Every message of a connection takes its next step, in MSN order; one that was held back at validation is validated.
Nothing goes on once a HANDOVER has been sent (R334), nor in a part that is fenced or in bivouac (Table 11-8, R360). -/
def runConn (s : State) (ci : Nat) : State :=
  match (if s.rope.handover.isSome || rxOff s then none else tget s.conns ci) with
  | none => s
  | some c =>
    (List.range 256).foldl (fun s i =>
      let msn := msnAdd c.nextDone i
      match msgOf s ci msn with
      | none => s
      | some m =>
        let s := if m.validated || m.over || isSecond s then s else validateMsg s ci msn m.first.path
        if isSecond s then s
        else if m.first.ty = tySend then
          (if ! m.over && m.chunks.length == chunkCount c.unit m.mlen && mayOrder s then runSend s ci msn m.first.path else s)
        else runMsg s ci msn) s

/-- Every message of every connection. -/
def runAll (s : State) : State := (tkeys s.conns).foldl runConn s

/-! ## Receiving a packet (Table 3-5) -/

/-- Consumes the expected PSN and counts the packet toward an ACK (R54, R56). -/
def consume (s : State) (ci k : Nat) : State :=
  modPath s ci k fun p => { p with rxE := psnNext p.rxE, nakUntil := none, ackN := p.ackN + 1 }

/-- ACK after an accepted packet: at once when asked for or after ACK_PKTS packets, else ACK_US after the first (R56). -/
def ackAfter (s : State) (ci k : Nat) (req : Bool) : State :=
  match (tget s.conns ci).bind (·.path k) with
  | none => s
  | some p =>
    if req || decide (p.ackN ≥ getF s Reg.hpTmtCfgAckPkts) then sendAck s ci k
    else if p.ackDue.isNone && p.ackN != 0 then
      modPath s ci k fun p => { p with ackDue := some (s.timebase + us (getF s Reg.hpTmtCfgAckUs)) }
    else s

/-- The first chunk of a message opens it. -/
def openMsg (s : State) (ci : Nat) (p : Pkt) : State :=
  match msgOf s ci p.msn with
  | some _ => s
  | none => setMsg s ci p.msn { first := { p with payload := [] }, mlen := p.mlen, arrival := s.timebase }

/-- A message is terminated by a NAK (steps 8 and R89, R90); a refusal counts at its region (R105). -/
def terminateMsg (s : State) (ci k : Nat) (p : Pkt) (code detail : Nat) : State :=
  let s := sendNak s ci k code 0 p.msn detail
  let s := if code = nkRegionMismatch ∨ code = nkRopeRefused then
      countRefusal s ((((msgOf s ci p.msn).bind fun m => rangeOf m.first).map (·.key)).getD (((rangeOf p).map (·.key)).getD 0))
    else s
  match tget s.conns ci with
  | none => s
  | some c => if msnInSpan c.nextDone p.msn then endMsg (openMsg s ci p) ci p.msn (.nak code) else s

/-- A brake frame (R404): a whole command packet of a brake opcode, with at most 64 bytes of parameters. -/
def isBrake (s : State) (p : Pkt) : Bool :=
  p.ty == tyMgmt && p.mgmt && prioOf s p == 7 && p.first && p.last && ! p.seald &&
  decide (0x0B01 ≤ le p.payload 0 2 ∧ le p.payload 0 2 ≤ 0x0B05 ∧ le p.payload 8 2 ≤ 64)

/-- A brake frame goes to its sub-port's brake store while one of the 4 entries is free (R404). -/
def brakeEntry (s : State) (p : Pkt) : Bool := isBrake s p && decide (tcnt s.port.brake p.sub < 4)

/-- Places a chunk's payload by its offset, marks it, and holds its ingress room (step 13). -/
def placeChunk (s : State) (ci : Nat) (unit : Nat) (p : Pkt) : State :=
  let key := roomKey s p
  let s := if brakeEntry s p then s else occChange s key p.payload.length 0
  modMsg s ci p.msn fun m => { m with
    chunks := m.chunks ++ [p.off / unit], data := tset m.data p.off p.payload,
    chk := if p.check then some p.chk else m.chk, occ := if brakeEntry s p then m.occ else m.occ ++ [(key, p.payload.length)] }

/-- R89: a later chunk names the region, address and length of the one validated. -/
def sameRange (m : Msg) (p : Pkt) : Bool := rangeOf m.first == rangeOf p

/-- After step 13: a Second holds the request (R318); otherwise it is validated and takes its next step. A complete
SEND is handled; a complete MGMT message waits for the front end. -/
def advanceMsg (s : State) (ci k : Nat) (p : Pkt) : State :=
  match tget s.conns ci, msgOf s ci p.msn with
  | some c, some m =>
    let whole := m.chunks.length == chunkCount c.unit m.mlen
    if p.ty = tyMgmt then (if whole then modMsg s ci p.msn fun m => { m with st := .running } else s)
    else if isSecond s then
      if s.rope.queue.contains (ci, p.msn) then s else { s with rope.queue := s.rope.queue ++ [(ci, p.msn)] }
    else if p.ty = tySend then (if whole && mayOrder s then runSend s ci p.msn k else s)
    else runConn (validateMsg s ci p.msn k) ci
  | _, _ => s

/-- Steps 10 to 13 for a packet at the expected PSN that is well formed and whose tag passes. -/
def acceptPkt (s : State) (ci k : Nat) (p : Pkt) : State :=
  match tget s.conns ci with
  | none => s
  | some c =>
    let full := isSecond s && decide (s.rope.queue.length ≥ 24576) && ! thas c.msgs p.msn && p.ty != tyMgmt
    if msnBefore c.nextDone p.msn then ackAfter (consume s ci k) ci k p.ackReq
    else if ! msnInSpan c.nextDone p.msn then sendNak s ci k nkMsnRange 0 0 0
    else if full then sendNak s ci k nkNotReady 1 0 0
    else
      let s := consume s ci k
      let fresh := match tget c.msgs p.msn with
        | some m => ! m.over && ! m.chunks.contains (p.off / c.unit)
        | none => true
      if ! fresh then ackAfter s ci k p.ackReq
      else if isSecond s && team s == teamCut && p.ty != tyMgmt then
        ackAfter (terminateMsg s ci k p nkRopeRefused (((rangeOf p).map (·.key)).getD 0)) ci k p.ackReq
      else
        let mismatch := match tget c.msgs p.msn with | some m => ! sameRange m p | none => false
        if mismatch then
          ackAfter (terminateMsg s ci k p nkRegionMismatch (((rangeOf p).map (·.key)).getD 0)) ci k p.ackReq
        else
          let s := if p.seald then countIn s c p else s
          ackAfter (advanceMsg (placeChunk (openMsg s ci p) ci c.unit p) ci k p) ci k p.ackReq

/-- Step 9: the tag of a sealed packet fails: NAK SEAL_TAG, counted; three in succession bring the path down (R73), which
`pathFail` does. -/
def tagFailed (s : State) (ci k : Nat) (pathFail : State → Nat → Nat → State) : State :=
  let s := modPath s ci k fun p => { p with tagFails := p.tagFails + 1, tagCount := p.tagCount + 1 }
  let s := sendNak s ci k nkSealTag 0 0 0
  match (tget s.conns ci).bind (·.path k) with
  | some p => if p.tagFails ≥ 3 then pathFail s ci k else s
  | none => s

/-- Steps 6 to 13 of Table 3-5 for a sequenced packet on an open path. -/
def receiveSeq (pathFail : State → Nat → Nat → State) (s : State) (ci k : Nat) (c : Conn) (path : PathSt) (p : Pkt) : State :=
  let e := path.rxE
  if psnBehind p.psn e then sendAck s ci k
  else if psnAhead p.psn e then
    let quiet := match path.nakUntil with | some t => decide (s.timebase < t) | none => false
    if quiet then s
    else sendNak (modPath s ci k fun q => { q with nakUntil := some (s.timebase + us 16) }) ci k nkSequence 0 0 0
  else if ! (chainOk p && rowOk p && chunkLenOk c.unit p) || lengthFault p || sealMalformed s c p then
    ackAfter (terminateMsg (consume s ci k) ci k p (if lengthFault p then nkLength else nkInvalidHeader) 0) ci k p.ackReq
  else if p.seald then
    match openPkt s c p with
    | some q => acceptPkt (modPath s ci k fun x => { x with tagFails := 0 }) ci k q
    | none => tagFailed s ci k pathFail
  else acceptPkt s ci k p

/-- NAK UNKNOWN_CONNECTION to a source address, at most one per ms (Table 3-5, step 2). -/
def unknownConn (s : State) (p : Pkt) : State :=
  let quiet := match tget s.port.unkAt p.src with | some t => decide (s.timebase < t + ms 1) | none => false
  if quiet then s
  else
    let n := withExts {
      sub := p.sub, src := p.src, dst := p.dst, sport := p.sport, ty := tyNak, path := p.path, pcp := p.pcp, dscp := p.dscp }
      [nakExt nkUnknownConnection 0 0 0 0]
    sendPkt { s with port.unkAt := tset s.port.unkAt p.src s.timebase } (prioOf s p) n

/-- NAK PATH_NOT_OPEN on the route a packet came by (step 3). -/
def pathNotOpen (s : State) (c : Conn) (p : Pkt) : State :=
  let n := withExts {
    sub := p.sub, src := p.src, dst := p.dst, sport := p.sport, ty := tyNak, path := p.path, conn := c.hostNum, pcp := some c.prio, dscp := c.dscp }
    [nakExt nkPathNotOpen 0 0 0 0]
  sendPkt s c.prio n

/-- Whether ingress takes a packet at all: the sub-port's link, quiesce (R406), the management class (R71), an
identity's standing before service (R460), and the pool (R68, R70). -/
inductive Ingress where
  | take | drop | ignore
  deriving DecidableEq, Repr

/-- What ingress does with a packet. A frame to another MAC address or UDP port is no TMT packet of this sub-port (R42, R45).
DESIGN CHOICE (log entry 117): R43 names no action for a frame of more than 9,216 bytes, and it is taken like any other. -/
def ingress (s : State) (p : Pkt) : Ingress :=
  let prio := prioOf s p
  let mgmtClass := p.ty == tyMgmt && p.mgmt
  if rxOff s || p.mac != subMac s p.sub || p.dport != getF s Reg.hpTmtCfgUdpPort then .ignore
  else if ! subRuns s p.sub && subState s p.sub != subQuiesced then .ignore
  else if subState s p.sub == subQuiesced && ! (prio == 7 && mgmtClass) then .drop
  else if prio == 7 && ! mgmtClass then .drop
  else if mgmtClass && ! brakeEntry s p && decide (s.port.mgmtUsed + p.payload.length > 262144) then .drop
  else if ! lossless s prio && prio != 7 && decide (sharedFree s ≤ globalFree s) then .drop
  else .take

/-- Before service opens only MGMT on connections of identities with MGMT_NET is taken (R460). -/
def earlyOk (s : State) (c : Conn) (p : Pkt) : Bool :=
  serviceOpen s || (p.ty == tyMgmt && p.mgmt && ((tget s.ids c.ident).map (·.mgmtNet)).getD false)

/-- Steps 1 to 4 of Table 3-5 for an unsequenced packet: its connection and path, or `none` with the drop counted. -/
def unseqRoute (s : State) (p : Pkt) : Option (Nat × Conn × PathSt) :=
  match connOf s p.conn with
  | none => none
  | some c =>
    match c.path (p.path % 4) with
    | none => none
    | some q =>
      if c.st.live && p.conn != 0 && q.up && q.src == p.src && q.sport == p.sport && q.sub == p.sub then
        some (connIdx p.conn, c, q) else none

/-- A packet waits while every domain that its tag or message check needs is gated off, or the cipher queue is full, and behind one of
its path that waits (R39, R281). -/
def mustWait (s : State) (p : Pkt) : Bool :=
  ! workAwake s p.seald p.check || s.port.rxWait.any fun q => q.conn == p.conn && q.path == p.path

/-- A sequenced packet from a host. An EVENT with Unsequenced set has no user at the part (step 5). -/
def receive (pathFail : State → Nat → Nat → State) (s : State) (p : Pkt) : State :=
  match ingress s p with
  | .ignore => s
  | .drop => rxDrop s p.sub
  | .take =>
    if p.conn = 0 then rxDrop s p.sub
    else if p.unseq && p.ty == tyEvent then (if (unseqRoute s p).isNone then rxDrop s p.sub else s)
    else match connOf s p.conn with
      | none => unknownConn s p
      | some c =>
        if ! c.st.live then unknownConn s p
        else if ! earlyOk s c p then rxDrop s p.sub
        else match c.path (p.path % 4) with
          | none => pathNotOpen s c p
          | some path =>
            if ! path.up then pathNotOpen s c p
            else if path.src != p.src || path.sport != p.sport || path.sub != p.sub then rxDrop s p.sub
            else
              let closing := match c.st with | .closing _ => ! thas c.msgs p.msn && ! msnBefore c.nextDone p.msn | _ => false
              if closing then s
              else if mustWait s p then { s with port.rxWait := s.port.rxWait ++ [p] }
              else receiveSeq pathFail s (connIdx p.conn) (p.path % 4) c path p

end Sys2Proof.Machine
end

