-- ==== Sys2Proof/Machine/Conn.lean ====
section
/-! DEFINITION. Connections (3): paths going down, errors, opening, closing. -/

namespace Sys2Proof.Machine

/-! ## Paths going down (R44, R59) -/

/-- Resends a held packet as a new packet on an open path, with that path's PSN (R59). -/
def moveHeld (s : State) (ci : Nat) (h : Held) : State :=
  match tget s.conns ci with
  | none => s
  | some c =>
    match choosePath c none with
    | none => s
    | some (k, p) =>
      let pkt := { h.pkt with path := k, psn := p.txNext, sub := p.sub, src := p.src, dst := p.dst,
                              sport := 49152 + Config.flowHash c.hostNum k % 16384 }
      let now := s.timebase
      let rtx := rtxTicks s
      sendPkt (modPath s ci k fun p => { p with
        txNext := psnNext p.txNext, held := p.held ++ [{ h with psn := pkt.psn, pkt := pkt, at_ := now }], timer := some (p.timer.getD (now + rtx)) })
        c.prio pkt

/-- Packets held on paths that are down move to the open ones. -/
def moveAll (s : State) (ci : Nat) : State :=
  match tget s.conns ci with
  | none => s
  | some c =>
    if c.upPaths.isEmpty then s
    else
      let down := c.paths.filter fun x => ! x.2.up
      let s := modConn s ci fun c => { c with paths := c.paths.map fun x => if x.2.up then x else (x.1, { x.2 with held := [] }) }
      (down.flatMap (·.2.held)).foldl (fun s h => moveHeld s ci h) s

/-- A control or error packet sent unsequenced on a path, open or not. -/
def sendBare (s : State) (c : Conn) (k : Nat) (p : PathSt) (ty : Nat) (exts : List Ext) (payload : Bytes) (unseq : Bool) : State :=
  sendPkt s c.prio { withExts (outPkt c k p ty) exts with
    first := true, last := true, unseq := unseq, mlen := payload.length, payload := payload }

/-- The landing buffers of a connection go with it (R106). -/
def dropLandings (s : State) (ci : Nat) : State :=
  showLandings { s with ops.landings := s.ops.landings.filter fun x => x.1 / 2 ^ 32 != ci }

/-- A place above every connection index, for the operations of a number that is freed: they complete without a connection
(R62, R82). -/
def orphanKey (s : State) (ci : Nat) : Nat :=
  ci + 2 ^ 24 * (((s.conns.map fun x => x.1 / 2 ^ 24).foldl max 0) + 1)

/-- The connection's number is freed: its generation steps at the next use, its slot, landing buffers and held packets
go; operations of messages that were complete go on without it (R82); EVENTs that no ACK covered are written to the logbook
(R60, R80, R116, R278). -/
def freeConn (s : State) (ci : Nat) : State :=
  match tget s.conns ci with
  | none => s
  | some c =>
    let s := (c.pushes.filter fun p => p.2 > 2 ^ 32).foldl (fun s p => undelivered s (p.2 - 2 ^ 32) 0 c.hostNum) s
    let s := abandonOpen s ci
    let left := ((tget s.conns ci).map (·.msgs)).getD []
    let s := match c.slot with | some n => freeSlot s n | none => s
    let s := dropLandings (egressGone s (c.paths.flatMap fun x => x.2.held.map (·.pkt))) ci
    let s := { s with conns := tdel s.conns ci, rope.ivRes := tdel s.rope.ivRes ci, connGen := tset s.connGen ci c.gen }
    let s := if left.all (·.2.over) then s
      else { s with conns := tset s.conns (orphanKey s ci) { c with
        st := .error 0, paths := [], respQ := [], outst := [], pushes := [], closeOut := none, acceptIdx := none, slot := none, msgs := left } }
    chainLost (showConns s) ci

/-- The connection is in error (R60): EVENT CONNECTION_ERROR unsequenced on each path and sequenced on every other open
connection of the identity, a logbook record, its open messages abandoned while complete ones go on (R82), its number held
for 10 ms. -/
def connError (s : State) (ci : Nat) : State :=
  match tget s.conns ci with
  | none => s
  | some c =>
    if ! c.st.live then s
    else
      let s := if isSecond s then s
        else c.paths.foldl (fun s x => sendBare s c x.1 x.2 tyEvent [eventExt 0x0102 0 c.hostNum] [] true) s
      let s := abandonOpen s ci
      let s := modConn s ci fun c => { c with
        st := .error (s.timebase + ms 10), paths := c.paths.map fun x => (x.1, { x.2 with up := false, timer := none, ackDue := none }) }
      let s := ((connsOf s c.ident).filter fun x => x.1 != ci).foldl (fun s x => sendEvent s x.1 0x0102 0 c.hostNum) s
      runConn (chainLost (showConns (logEv s srcTmt .connError noUnit [connNum ci c, c.ident])) ci) ci

/-- A path is declared down (R44, R59): its chunks move to the other open paths of this twin and PATH_DOWN is sent; with
none left the connection is in error, unless the twin may still hold a path (R308). -/
def pathDown (s : State) (ci k : Nat) : State :=
  match (tget s.conns ci).bind (·.path k) with
  | none => s
  | some p =>
    if ! p.up then s
    else
      let s := modPath s ci k fun p => { p with up := false, timer := none, ackDue := none, rnr := none, msnWait := none, ackN := 0 }
      match tget s.conns ci with
      | none => s
      | some c =>
        if ! c.upPaths.isEmpty then pump (sendEvent (moveAll s ci) ci 0x0101 k c.hostNum) ci
        else if isSecond s then s
        else if ropeSynced s then modConn s ci fun c => { c with leadLost := some s.timebase }
        else connError s ci

/-- Every path through a sub-port is declared down (R44). -/
def subPathsDown (s : State) (sub : Nat) : State :=
  s.conns.foldl (fun s x => x.2.paths.foldl (fun s y => if y.2.sub = sub && y.2.up then pathDown s x.1 y.1 else s) s) s

/-! ## Opening (R77 to R79) -/

/-- A control packet on the route a packet came by. -/
def controlOn (s : State) (p : Pkt) (conn : Nat) (prio dscp k psn : Nat) (payload : Bytes) : State :=
  sendPkt s prio { sub := p.sub, src := p.src, dst := p.dst, sport := p.sport, pcp := some prio, dscp := dscp, ty := tyMgmt, path := k,
                   conn := conn, psn := psn, first := true, last := true, mlen := payload.length, payload := payload }

/-- REFUSE with a reason (Table 3-10). -/
def refuseConnect (s : State) (p : Pkt) (reason : Nat) : State :=
  controlOn s p (beNat (bsub p.payload 3 3)) (prioOf s p) p.dscp 0 0 [0x03#8, byte reason]

/-- One CONNECT is counted against the 65,536 of a second; gives whether it is within the rate (R78). -/
def connectRate (s : State) : State × Bool :=
  if s.timebase ≥ s.port.rateAt + sec 1 then ({ s with port.rateAt := s.timebase, port.rateN := 1 }, true)
  else ({ s with port.rateN := s.port.rateN + 1 }, decide (s.port.rateN < 65536))

/-- The session key slot of a new connection (R278, R313): free at both twins, from slot 0 upward; none without a session root. A
logbook record tells of no free slot. -/
def bindSession (s : State) (idn : Ident) (ident hostNum num : Nat) (nonce : Bytes) : State × Option Nat :=
  match idn.sessRoot with
  | none => (s, none)
  | some root =>
    match tget s.key.roots root with
    | none => (s, none)
    | some r =>
      if r.kind != 2 || (rootKeyOf s root).isNone then (s, none)
      else if s.key.slots.length ≥ 4096 then (logEv s srcKey .noSlot noUnit [ident, num], none)
      else
        match (List.range (s.key.slots.length + s.rope.titles.length + 1)).find? fun n =>
            decide (n < 4096) && ! thas s.key.slots n && ! s.rope.titles.contains n with
        | none => (s, none)
        | some n =>
          let label := beBytes 2 ident ++ beBytes 3 hostNum ++ beBytes 3 num ++ nonce.take 4 ++ [0x02#8, 0, 0, 0]
          let auto := isSet s Reg.keyCfgAutoRoll
          (showSlots (setSlot s n { title := false, root := root, label := label, limit := getF s Reg.keyCfgLimitLog2,
                                    auto := auto, genMax := if auto then 65535 else 0,
                                    rootKey := (rootKeyOf s root).getD [] }), some n)

/-- The HMAC of connection control: its first 16 bytes. -/
def proof16 (key msg : Bytes) : Bytes := (hmac key msg).take 16

/-- ACCEPT (Table 3-10). -/
def acceptPayload (key nonce : Bytes) (num psn win : Nat) (saltIn saltOut : Bytes) : Bytes :=
  let b := [0x02#8] ++ beBytes 3 num ++ beBytes 4 psn ++ beBytes 4 win ++ saltIn ++ saltOut
  b ++ proof16 key (b ++ nonce)

/-- A fresh connection for a CONNECT whose checks all passed: number, first PSN and salts of the part's choosing. -/
def openConn (s : State) (p : Pkt) (idn : Ident) (ident : Nat) : State :=
  let b := p.payload
  let ci := (tpick s.conns 0 16384 (freeVal s % 16384)).getD 0
  let s := useFree s
  let gen := tcnt s.connGen ci % 1023 + 1
  let num := ci + gen * 16384
  let psn := freeVal s % 2 ^ 32
  let s := useFree s
  let saltIn := beBytes 4 (freeVal s)
  let s := useFree s
  let saltOut := beBytes 4 (freeVal s)
  let s := useFree s
  let hostNum := beNat (bsub b 3 3)
  let nonce := bsub b 16 8
  let bs := bindSession s idn ident hostNum num nonce
  let s := bs.1
  let win := beNat (bsub b 12 4)
  let c : Conn :=
    { gen := gen, ident := ident, hostNum := hostNum, unit := if le b 6 1 = 1 then 8192 else 4096, checks := le b 7 1,
      prio := prioOf s p, dscp := p.dscp, nonce := nonce, saltIn := saltIn, saltOut := saltOut, winPk := win / 2 ^ 23,
      winBy := win % 2 ^ 21, order := s.timebase * 65536 + s.conns.length, slot := bs.2,
      paths := [(0, { sub := p.sub, src := p.src, dst := p.dst, sport := p.sport, rxE := beNat (bsub b 8 4), txNext := psn, ctlIn := b })] }
  let out := acceptPayload idn.connectKey nonce num psn (windowWord (windowOf s c)) saltIn saltOut
  let o := orderIf s (.command 0 ci ident [num, bs.2.getD 4096, beNat saltIn, beNat saltOut] b)
  let s := o.1
  let c := c.setPath 0 { sub := p.sub, src := p.src, dst := p.dst, sport := p.sport, rxE := beNat (bsub b 8 4), txNext := psn,
                         ctlIn := b, ctlOut := out }
  let s := showConns (setConn s ci { c with acceptIdx := if ropeSynced s then some o.2 else none })
  if ropeSynced s then s else controlOn s p hostNum c.prio c.dscp 0 psn out

/-- A CONNECT to connection 0 (R77, R78, R406, R460). While no guide runs it is not answered, and the host sends it again
(R10; log entry 92). DESIGN CHOICE (log entry 26): a CONNECT that repeats an accepted one is answered alike and does not
count in the 65,536 of a second (R78 does not say). -/
def connectIn (s : State) (p : Pkt) : State :=
  let b := p.payload
  if b.length != 40 || isSecond s || s.rope.handover.isSome || seqState s == stStopping then rxDrop s p.sub
  else match s.conns.find? fun x => x.2.st.live && (match x.2.path 0 with | some q => q.ctlIn == b | none => false) with
    | some x =>
      match x.2.path 0 with
      | some q => if x.2.acceptIdx.isSome then s else controlOn s p x.2.hostNum x.2.prio x.2.dscp 0 q.txNext q.ctlOut
      | none => s
    | none =>
      if ! guidesRun s then s else
      let rate := connectRate s
      let s := rate.1
      let ident := beNat (bsub b 1 2) % 4096
      if ! rate.2 then refuseConnect s p 3
      else match tget s.ids ident with
        | none => refuseConnect s p 1
        | some idn =>
          if ! serviceOpen s && ! idn.mgmtNet then rxDrop s p.sub
          else if proof16 idn.connectKey (b.take 24) != bsub b 24 16 then refuseConnect s p 2
          else if s.conns.countP (fun x => decide (x.1 < 16384)) ≥ 16384 then refuseConnect s p 3
          else if le b 6 1 = 1 && ! isSet s Reg.hpTmtCfgJumbo then refuseConnect s p 4
          else if s.cmd.fencedIds.contains ident || decide (s.conns.countP (fun x => x.2.ident == ident && x.2.st.live) ≥ idn.quota) then
            refuseConnect s p 5
          else openConn s p idn ident

/-- ACCEPTs whose record the Second has applied are sent (R306). -/
def releaseAccepts (s : State) : State :=
  s.conns.foldl (fun s x => match x.2.acceptIdx, x.2.path 0 with
    | some idx, some q =>
      if idx ≤ s.rope.confirmed || ! ropeSynced s then
        controlOn (modConn s x.1 fun c => { c with acceptIdx := none })
          { sub := q.sub, src := q.src, dst := q.dst, sport := q.sport } x.2.hostNum x.2.prio x.2.dscp 0 q.txNext q.ctlOut
      else s
    | _, _ => s) s

/-- A PATH-OPEN (R79): one that repeats any accepted on the path is answered alike and opens nothing, also when the path has
gone down since; a failed proof or path 0 is dropped and counted. -/
def pathOpenIn (s : State) (p : Pkt) (c : Conn) : State :=
  let b := p.payload
  let ci := connIdx p.conn
  let k := le b 1 1 % 4
  match c.path k with
  | some q =>
    match (if k = 0 then none else ((q.ctlIn, q.ctlOut) :: q.ctlPast).find? fun x => x.1 == b) with
    | some x => controlOn s p c.hostNum c.prio c.dscp k q.txNext x.2
    | none => go s b ci k
  | none => go s b ci k
where
  go (s : State) (b : Bytes) (ci k : Nat) : State :=
    let key := ((tget s.ids c.ident).map (·.connectKey)).getD []
    if b.length != 36 || k == 0 || proof16 key (b.take 20 ++ c.nonce) != bsub b 20 16 then rxDrop s p.sub
    else
      let psn := freeVal s % 2 ^ 32
      let s := useFree s
      let win := beNat (bsub b 8 4)
      let a := [0x05#8, byte k, 0, 0] ++ beBytes 4 psn ++ beBytes 4 (windowWord (windowOf s c))
      let out := a ++ proof16 key (a ++ bsub b 12 8)
      let past := match c.path k with | some o => (o.ctlIn, o.ctlOut) :: o.ctlPast | none => []
      let q : PathSt := { sub := p.sub, src := p.src, dst := p.dst, sport := p.sport, rxE := beNat (bsub b 4 4), txNext := psn,
                          ctlIn := b, ctlOut := out, ctlPast := past }
      -- what the old path still held moves to an open path, this one if it is the only one
      let old := ((c.path k).map (·.held)).getD []
      let s := modConn s ci fun c => { (c.setPath k q) with winPk := win / 2 ^ 23, winBy := win % 2 ^ 21, leadLost := none }
      let s := old.foldl (fun s h => moveHeld s ci h) (controlOn s p c.hostNum c.prio c.dscp k psn out)
      pump (moveAll s ci) ci

/-! ## Closing (R80) -/

/-- CLOSE from the part on the first open path (else path 0), with its resends to come. -/
def sendClose (s : State) (ci reason : Nat) (tries : Nat) : State :=
  match tget s.conns ci with
  | none => s
  | some c =>
    let s := modConn s ci fun c => { c with closeOut := some (reason, tries, s.timebase + ms 1) }
    match c.upPaths ++ c.paths with
    | (k, p) :: _ => sendBare s c k p tyMgmt [] [0x06#8, byte reason] false
    | [] => s

/-- The part closes a connection, with its reason (R80). -/
def closeConn (s : State) (ci reason : Nat) : State :=
  match tget s.conns ci with
  | none => s
  | some c =>
    if ! c.st.isOpen then s
    else sendClose (modConn s ci fun c => { c with st := .closing (s.timebase + ms 10) }) ci reason 8

/-- CLOSED on a route. -/
def answerClosed (s : State) (p : Pkt) (conn : Nat) : State := controlOn s p conn (prioOf s p) p.dscp p.path 0 [0x07#8]

end Sys2Proof.Machine
end

