-- ==== Sys2Proof/Machine/Transport.lean ====
section
/-! DEFINITION. Meanings of the transport commands (3): packets, timers of paths and connections, ports and PFC. -/

namespace Sys2Proof.Machine

/-! ## Requests -/

/-- READ_REQ (R54, R88, R95). -/
def execReadReq (p : Pkt) (s : State) : Out := needs (wfReadReq p) s (receive pathDown s p)

/-- WRITE_REQ (R54, R96). -/
def execWriteReq (p : Pkt) (s : State) : Out := needs (wfWriteReq p) s (receive pathDown s p)

/-- WRITEP_REQ (R98). -/
def execWritepReq (p : Pkt) (s : State) : Out := needs (wfWritepReq p) s (receive pathDown s p)

/-- FLUSH: a WRITEP-REQ of length 0 (R99). -/
def execFlush (p : Pkt) (s : State) : Out := needs (wfFlush p) s (receive pathDown s p)

/-- CAS64 (R100). -/
def execCas64 (p : Pkt) (s : State) : Out := needs (wfCas64 p) s (receive pathDown s p)

/-- FADD64 (R100). -/
def execFadd64 (p : Pkt) (s : State) : Out := needs (wfFadd64 p) s (receive pathDown s p)

/-- CAS128 (R100). -/
def execCas128 (p : Pkt) (s : State) : Out := needs (wfCas128 p) s (receive pathDown s p)

/-- SEND without a trigger (R111). -/
def execSend (p : Pkt) (s : State) : Out := needs (wfSend p) s (receive pathDown s p)

/-- SEND with a trigger extension (R112). -/
def execTriggeredSend (p : Pkt) (s : State) : Out := needs (wfTriggeredSend p) s (receive pathDown s p)

/-! ## ACK and NAK (R58) -/

/-- Whether a message still has a packet held or to send: of READ-RESP type in the host's sequence, else in the part's. -/
def stillSending (c : Conn) (resp : Bool) (msn : Nat) : Bool :=
  (c.paths.any fun x => x.2.held.any fun h => h.pkt.msn == msn && (h.pkt.ty == tyReadResp) == resp) ||
  c.respQ.any fun m => m.msn == msn && (m.ty == tyReadResp) == resp

/-- A packet is acknowledged: when nothing of its message is left, its response is covered, or what waited on the part's
message goes on. -/
def acked (ci : Nat) (s : State) (h : Held) : State :=
  match tget s.conns ci with
  | none => s
  | some c =>
    let resp := h.pkt.ty == tyReadResp
    if stillSending c resp h.pkt.msn then s
    else
      let s := coverResponse s (connNum ci c) h.pkt.msn
      if resp then s else modConn s ci fun c => { c with pushes := c.pushes.filter fun p => p.1 != h.pkt.msn }

/-- Releases every packet of a path behind `e`, with the egress hold it used (R58). -/
def releaseBehind (s : State) (ci k e : Nat) : State :=
  match (tget s.conns ci).bind (·.path k) with
  | none => s
  | some p =>
    let gone := p.held.filter fun h => psnBehind h.psn e
    let s := modPath s ci k fun p => { p with held := p.held.filter fun h => ! psnBehind h.psn e }
    gone.foldl (acked ci) (egressGone s (gone.map (·.pkt)))

/-- Sends a path's held packets again, bit for bit, from `e` on (R57, R58). -/
def rewind (s : State) (ci k e : Nat) : State :=
  match tget s.conns ci with
  | none => s
  | some c =>
    match c.path k with
    | none => s
    | some p =>
      let now := s.timebase
      let again := p.held.filter fun h => ! psnBehind h.psn e
      let s := modPath s ci k fun p => { p with
        held := p.held.map fun h => if psnBehind h.psn e then h else { h with at_ := now },
        timer := if p.held.isEmpty then none else some (now + rtxTicks s) }
      again.foldl (fun s h => sendPkt s c.prio h.pkt) s

/-- The retransmit timer runs RTX_US from the last transmission of the oldest packet (R58, R59). -/
def restartTimer (s : State) (ci k : Nat) : State :=
  modPath s ci k fun p => { p with retry := 0, timer := match p.held with | h :: _ => some (h.at_ + rtxTicks s) | [] => none }

/-- Completions with a copy that this ACK covers are outstanding no more (R56). -/
def coverCompletions (s : State) (ci k e : Nat) : State :=
  match tget s.conns ci with
  | none => s
  | some c =>
    let cov := fun (o : Outst) => o.copies.any fun x => x.1 == k && ! psnBehind e x.2
    let s := modConn s ci fun c => { c with outst := c.outst.filter fun o => ! cov o }
    (c.outst.filter cov).foldl (fun s o => coverResponse s (connNum ci c) o.msn) s

/-- An ACK (R58, Table 3-6). -/
def ackIn (s : State) (p : Pkt) : State :=
  match ingress s p with
  | .ignore => s
  | .drop => rxDrop s p.sub
  | .take =>
    match unseqRoute s p, findExt p exPathAck with
    | some (ci, _, _), some e =>
      let k := p.path % 4
      let x := extW e 1
      let w := extW e 2
      let s := restartTimer (releaseBehind s ci k x) ci k
      let s := modConn s ci fun c => { c with winPk := w / 2 ^ 23, winBy := w % 2 ^ 21 }
      let s := coverCompletions s ci k x
      let s := if p.ackReq then sendAck s ci k else s
      pump s ci
    | _, _ => rxDrop s p.sub

/-- ACK (R56, R58). -/
def execAck (p : Pkt) (s : State) : Out := needs (wfAck p) s (ackIn s p)

/-- What a message NAK from a host ends: a PUSH's work request fails (R114); any other message of the part is done. -/
def nakReport (s : State) (ci msn code : Nat) : State :=
  match tget s.conns ci with
  | none => s
  | some c =>
    let s := modConn s ci fun c => { c with
      pushes := c.pushes.filter fun x => x.1 != msn, respQ := c.respQ.filter fun m => ! (m.msn == msn && m.ty != tyReadResp) }
    match c.pushes.find? fun x => x.1 == msn && decide (x.2 < 2 ^ 32) && x.2 != 0 || (x.1 == msn && x.2 == 0 &&
        (wrRun s 0 0).any fun l => l.pushMsn == some (ci, msn)) with
    | some x => chainFail s (x.2 / 4096) (x.2 % 4096) (.landingNak code)
    | none => s

/-- A NAK (Table 3-6). -/
def nakIn (s : State) (p : Pkt) : State :=
  match ingress s p with
  | .ignore => s
  | .drop => rxDrop s p.sub
  | .take =>
    match unseqRoute s p, findExt p exNak with
    | some (ci, _, q), some e =>
      let k := p.path % 4
      let code := e.lo.toNat / 256
      let x := extW e 1
      let msn := extW e 2
      let now := s.timebase
      if code = nkSequence ∨ code = nkSealTag then
        let s := releaseBehind s ci k x
        let recent := match q.rewound with | some (y, t) => y == x && decide (now < t + rtxTicks s) | none => false
        if recent then s else rewind (modPath s ci k fun q => { q with rewound := some (x, now) }) ci k x
      else if code = nkNotReady then
        modPath (releaseBehind s ci k x) ci k fun q => { q with rnr := some (x, now + us (2 * (e.lo.toNat % 256))), timer := none }
      else if code = nkMsnRange then modPath s ci k fun q => { q with msnWait := some (x, now + rtxTicks s) }
      else if code = nkPathNotOpen then pathDown s ci k
      else if code = nkUnknownConnection then connError (releaseBehind s ci k x) ci
      else pump (nakReport (releaseBehind s ci k x) ci msn code) ci
    | _, _ => rxDrop s p.sub

/-- NAK (R58, R76). -/
def execNak (p : Pkt) (s : State) : Out := needs (wfNak p) s (nakIn s p)

/-! ## Connection control (R77 to R80) -/

/-- CONNECT: to connection 0 (Table 3-5, step 1); to another number it is connection control that nothing answers. -/
def execConnect (p : Pkt) (s : State) : Out :=
  needs (wfConnect p) s (match ingress s p with
    | .ignore => s
    | .drop => rxDrop s p.sub
    | .take => if p.conn = 0 then connectIn s p else rxDrop s p.sub)

/-- PATH_OPEN (R79; Table 3-5, steps 2 and 3). -/
def execPathOpen (p : Pkt) (s : State) : Out :=
  needs (wfPathOpen p) s (match ingress s p with
    | .ignore => s
    | .drop => rxDrop s p.sub
    | .take =>
      match (if p.conn = 0 then none else connOf s p.conn) with
      | some c => if ! c.st.live then unknownConn s p
        else if ! serviceOpen s && ! ((tget s.ids c.ident).map (·.mgmtNet)).getD false then rxDrop s p.sub
        else pathOpenIn s p c
      | none => if p.conn = 0 then rxDrop s p.sub else unknownConn s p)

/-- CLOSE from the host (R80): no new messages; the open ones have 10 ms. A number already freed is answered CLOSED. -/
def execClose (p : Pkt) (s : State) : Out :=
  needs (wfClose p) s (match ingress s p with
    | .ignore => s
    | .drop => rxDrop s p.sub
    | .take =>
      match (if p.conn = 0 then none else connOf s p.conn) with
      | none => if p.conn = 0 then rxDrop s p.sub else answerClosed s p 0
      | some c =>
        if ! c.st.live then answerClosed s p c.hostNum
        else if (unseqRoute s p).isNone then rxDrop s p.sub
        else if c.st.isOpen then
          modConn s (connIdx p.conn) fun c => { c with st := .closing (s.timebase + ms 10) }
        else s)

/-- CLOSED answers the part's CLOSE: its resends end (R80). -/
def execClosed (p : Pkt) (s : State) : Out :=
  needs (wfClosed p) s (match ingress s p with
    | .ignore => s
    | .drop => rxDrop s p.sub
    | .take =>
      match unseqRoute s p with
      | none => rxDrop s p.sub
      | some (ci, _, _) => modConn s ci fun c => { c with closeOut := none })

/-- The end of a closing connection (R80): its open messages are complete, or 10 ms have passed and the rest are abandoned;
CLOSED is sent and the number is freed, whichever end closed. -/
def closeDrain (s : State) (num : Nat) : State :=
  match connOf s num with
  | none => s
  | some c =>
    match c.st with
    | .closing t =>
      let ci := connIdx num
      let quiet := (c.msgs.all fun x => x.2.over) && c.respQ.isEmpty && c.outst.isEmpty
      let s := if quiet then s else reach s t
      match c.upPaths with
        | (k, p) :: _ => freeConn (sendBare s c k p tyMgmt [] [0x07#8] false) ci
        | [] => freeConn s ci
    | _ => s

def execCloseDrainEnd (conn : Nat) (s : State) : Out := needs (wfCloseDrainEnd conn) s (closeDrain s conn)

/-- CONTROL_RESEND: the part's CLOSE again every 1 ms, up to 8 times (R80). -/
def execControlResend (conn : Nat) (s : State) : Out :=
  needs (wfControlResend conn) s (match connOf s conn with
    | none => s
    | some c =>
      match c.closeOut with
      | some (reason, tries, at_) =>
        let s := reach s at_
        if tries = 0 then modConn s (connIdx conn) fun c => { c with closeOut := none } else sendClose s (connIdx conn) reason (tries - 1)
      | none => s)

/-- CONN_NUMBER_FREE: the 10 ms hold of a number in error ends (R60). -/
def execConnNumberFree (conn : Nat) (s : State) : Out :=
  needs (wfConnNumberFree conn) s (match connOf s conn with
    | none => s
    | some c => match c.st with
      | .error t => freeConn (reach s t) (connIdx conn)
      | _ => s)

/-! ## Timers of paths -/

/-- RETRANSMIT_TIMER_EXPIRY: the retry count rises and the path rewinds, or is declared down past the limit (R58, R59). -/
def execRetransmitTimerExpiry (conn path : Nat) (s : State) : Out :=
  needs (wfRetransmitTimerExpiry conn path) s (match connOf s conn with
    | none => s
    | some c => match c.path path with
      | none => s
      | some p => match p.timer with
        | none => s
        | some t =>
          let ci := connIdx conn
          let s := reach s t
          if p.retry + 1 > getF s Reg.hpTmtCfgRetryLimit then pathDown s ci path
          else
            let e := match p.held with | h :: _ => h.psn | [] => p.txNext
            rewind (modPath s ci path fun p => { p with retry := p.retry + 1 }) ci path e)

/-- ACK_DELAY_EXPIRY: ACK_US after the first packet accepted since the last ACK (R56). -/
def execAckDelayExpiry (conn path : Nat) (s : State) : Out :=
  needs (wfAckDelayExpiry conn path) s (match (connOf s conn).bind (·.path path) with
    | none => s
    | some p => match p.ackDue with
      | none => s
      | some t => sendAck (reach s t) (connIdx conn) path)

/-- COMPLETION_REPEAT: an outstanding completion that no ACK carried for RTX_US is sent on the next open path (R56). -/
def execCompletionRepeat (conn : Nat) (s : State) : Out :=
  needs (wfCompletionRepeat conn) s (match connOf s conn with
    | none => s
    | some c => match c.outst with
      | [] => s
      | o :: _ =>
        match nextPath c o.lastPath with
        | some k => sendAck (reach s (o.lastAt + rtxTicks s)) (connIdx conn) k
        | none => s)

/-- RNR_WAIT_EXPIRY: the wait of a NAK RECEIVER_NOT_READY ends and the sender rewinds (Table 3-6). -/
def execRnrWaitExpiry (conn path : Nat) (s : State) : Out :=
  needs (wfRnrWaitExpiry conn path) s (match (connOf s conn).bind (·.path path) with
    | none => s
    | some p => match p.rnr with
      | none => s
      | some (e, t) => rewind (modPath (reach s t) (connIdx conn) path fun p => { p with rnr := none }) (connIdx conn) path e)

/-- MSN_RANGE_WAIT_EXPIRY: one retransmit period after NAK MSN_RANGE the sender rewinds (Table 3-6). -/
def execMsnRangeWaitExpiry (conn path : Nat) (s : State) : Out :=
  needs (wfMsnRangeWaitExpiry conn path) s (match (connOf s conn).bind (·.path path) with
    | none => s
    | some p => match p.msnWait with
      | none => s
      | some (e, t) => rewind (modPath (reach s t) (connIdx conn) path fun p => { p with msnWait := none }) (connIdx conn) path e)

/-- ZERO_WINDOW_PROBE: while a zero window stops the part it sends an ACK with Ack-request (R64). -/
def execZeroWindowProbe (conn : Nat) (s : State) : Out :=
  needs (wfZeroWindowProbe conn) s (match connOf s conn with
    | none => s
    | some c =>
      if c.winPk = 0 ∨ c.winBy = 0 then
        match choosePath c none with
        | some (k, _) => sendAck s (connIdx conn) k true
        | none => s
      else s)

/-- WINDOW_RESTORE: a reduced window has grown, and an ACK advertises it (R65). -/
def execWindowRestore (conn : Nat) (s : State) : Out :=
  needs (wfWindowRestore conn) s (match connOf s conn with
    | none => s
    | some c => if c.reduced && windowEighths s c != 0 then ackAny s (connIdx conn) else s)

/-- LEAD_PATH_TIMEOUT: 10 ms without a path to the Lead: the connection is in error (R308). -/
def execLeadPathTimeout (conn : Nat) (s : State) : Out :=
  needs (wfLeadPathTimeout conn) s (match connOf s conn with
    | none => s
    | some c => match c.leadLost with
      | some t => if c.upPaths.isEmpty then connError (reach s (t + ms 10)) (connIdx conn) else s
      | none => s)

/-! ## Ports -/

/-- Lanes of the port that sub-port place `k` uses in a mode. -/
def modeLanes (mode k : Nat) : List Nat :=
  match mode with
  | 0 => [0, 1, 2, 3, 4, 5, 6, 7]
  | 1 => if k = 0 then [0, 1, 2, 3] else [4, 5, 6, 7]
  | _ => [2 * k, 2 * k + 1]

/-- A sub-port goes down: its paths with it (R44), the record and EVENT PORT_DOWN. -/
def subGoesDown (s : State) (sub : Nat) : State :=
  if subState s sub = subDown then s
  else
    let s := setSub s sub subDown
    portEvent (logEv (subPathsDown s sub) (srcPort (sub / 4)) .portDown noUnit [sub]) sub 0x0302 0

/-- Loss of a lane (R44): 1 × 800 runs on the four lanes without it, a 400GBASE-R sub-port on the pair without it, a
200GBASE-R sub-port goes down; so does one whose narrower mode the partner refuses, or that is degraded already. -/
def laneLoss (s : State) (port lane : Nat) (narrowOk : Bool) : State :=
  if bitF s (Reg.hpPortStatusLaneFail port) lane then s
  else
    let mode := getF s (Reg.hpPortCfgMode port)
    match (modeSubs mode).find? fun k => (modeLanes mode k).contains lane with
    | none => s
    | some k =>
      let sub := 4 * port + k
      let s := putF s (Reg.hpPortStatusLaneFail port) lane true
      let st := subState s sub
      if mode ≤ 1 && narrowOk && (st == subUp || st == subQuiesced) then
        let s := if st = subUp then setSub s sub subDegraded else s
        portEvent (logEv s (srcPort port) .portDegraded noUnit [sub, mode + 1]) sub 0x0301 (mode + 1)
      else subGoesDown s sub

/-- HOST_LANE_LOSS (R44). -/
def execHostLaneLoss (port lane : Nat) (narrowOk : Bool) (s : State) : Out :=
  needs (wfHostLaneLoss port lane) s (laneLoss s port lane narrowOk)

/-- Whether a frame of a crossing is held back by a received pause; priority 7 only by its own (R69). -/
def paused (s : State) (x : Nat) (f : Frame) : Bool :=
  match f with
  | .tmt prio _ => thas s.port.rxPause (occKey x prio)
  | _ => false

/-- The READ-RESP chunk with Last leaves for the first time: its deadline is kept or missed (R142). -/
def deadlineCheck (s : State) (f : Frame) : State :=
  match f with
  | .tmt _ p =>
    if p.ty = tyReadResp && p.last then
      s.conns.foldl (fun s x =>
        if x.2.hostNum = p.conn && x.2.paths.any (fun q => q.1 == p.path && q.2.sub == p.sub && q.2.src == p.src) then
          match tget x.2.due p.msn with
          | some d =>
            let s := modConn s x.1 fun c => { c with due := tdel c.due p.msn }
            if s.timebase > d then bumpF s Reg.campRangeStatusDeadlineMiss else s
          | none => s
        else s) s
    else s
  | _ => s

/-- A pipeline or unit is awake, or the cipher queue has room again: the packets and messages that waited go on (R39, R281). -/
def workWakes (s : State) : State :=
  let l := s.port.rxWait
  pumpAll (l.foldl (receive pathDown) { s with port.rxWait := [] })

/-- FRAME_TRANSMIT: the crossing sends its oldest frame that no pause holds; a frame is never cut (R21, R69). -/
def execFrameTransmit (x : Nat) (s : State) : Out :=
  needs (wfFrameTransmit x) s (
    let q := (tget s.port.fifo x).getD []
    let up := if x < 32 then subRuns s x || subState s x == subQuiesced else (ropeInst s (x - 32)).up
    match (if up then takeFirst (fun f => ! paused s x f) q else none) with
    | none => s
    | some (f, rest) =>
      deadlineCheck (markBegun { s with port.fifo := if rest.isEmpty then tdel s.port.fifo x else tset s.port.fifo x rest,
                                        port.wire := s.port.wire ++ [(x, f)] } f) f)

/-- The rate of a sub-port in Gb/s by its port's mode. -/
def modeGbps : Nat → Nat
  | 0 => 800
  | 1 => 400
  | _ => 200

/-- HP_PORTn_STATUS.PFC_RX shows whether the partner pauses a priority on any sub-port of the port. -/
def showPfcRx (s : State) (sub prio : Nat) : State :=
  putF s (Reg.hpPortStatusPfcRx (sub / 4)) prio
    ([0, 1, 2, 3].any fun k => thas s.port.rxPause (occKey (sub / 4 * 4 + k) prio))

/-- PFC_FRAME: a quantum is 512 bit times of the sub-port; quanta of 0 end the pause (R69, IEEE 802.1Q). -/
def execPfcFrame (sub prio quanta : Nat) (s : State) : Out :=
  needs (wfPfcFrame sub prio quanta) s (
    let key := occKey sub prio
    let until_ := s.timebase + cdiv (quanta * 512) (10 * modeGbps (getF s (Reg.hpPortCfgMode (sub / 4))))
    showPfcRx { s with port.rxPause := if quanta = 0 then tdel s.port.rxPause key else tset s.port.rxPause key until_ } sub prio)

/-- PFC_PAUSE_EXPIRY: the pause time has run out (R69). -/
def execPfcPauseExpiry (sub prio : Nat) (s : State) : Out :=
  needs (wfPfcPauseExpiry sub prio) s (match tget s.port.rxPause (occKey sub prio) with
    | none => s
    | some t =>
      showPfcRx { reach s t with port.rxPause := tdel s.port.rxPause (occKey sub prio) } sub prio)

/-- PFC_REFRESH_TIMER: every half pause time while occupancy stays at or above XON (R67). -/
def execPfcRefreshTimer (sub prio : Nat) (s : State) : Out :=
  needs (wfPfcRefreshTimer sub prio) s (
    if s.port.xoff.contains (occKey sub prio) && (s.port.globalXoff || decide (occOf s sub prio ≥ xonBytes s)) then
      emit s sub (.pfc prio 65535)
    else s)

/-- INGRESS_FRAME_DROP: the frame is dropped and counted at its port (R43, R45, R46, R49). -/
def execIngressFrameDrop (port : Nat) (_ : DropWhy) (s : State) : Out :=
  needs (wfIngressFrameDrop port) s (bumpF s (Reg.hpRxDropCount port))

end Sys2Proof.Machine
end

