-- ==== Sys2Proof/Machine/Budget.lean ====
section
/-! DEFINITION. The commands of bivouac budget reservations (R97) and of work requests (R113, R114). -/

namespace Sys2Proof.Machine

/-- What a reservation that has been met lets go on: its message, or its work request. `through`: write-through holds in
place of the budget (R137). -/
def reservationMet (s : State) (r : Resv) (need : List Nat) (through : Bool) : State :=
  match r.who with
  | .msg ci msn =>
    runAll (modMsg s ci msn fun m => { m with st := .running, resv := if through then [] else need, wthru := through })
  | .wr q slot => wrBegin (modWr s q slot fun l => { l with resv := if through then [] else need, wthru := through, waiting := none }) q slot

/-- The reservation at the front of the queue is met when its charge fits (R97: strictly in order). -/
def budgetMet (s : State) : State :=
  match s.ops.budgetQ with
  | [] => s
  | r :: rest =>
    let need := r.slabs.filter fun n => ! isCharged s n
    if writeThrough s then reservationMet { s with ops.budgetQ := rest } r [] true
    else if budgetFits s need then
      reservationMet (budgetCheck (need.foldl charge { s with ops.budgetQ := rest })) r need false
    else s

/-- BUDGET_RESERVATION_MET (R97). -/
def execBudgetReservationMet (s : State) : Out := needs true s (budgetMet s)

/-- A reservation not met in time gives up its place; its message ends in NAK BUDGET_FULL,
whose detail is the budget in use (Table 4-6), with nothing written, or its
work request fails (R97, R114); its region counts the refusal (R105). -/
def budgetExpiry (s : State) (id : Nat) : State :=
  match s.ops.budgetQ.find? (·.id == id) with
  | none => s
  | some r =>
    let s := reach s r.until_
    let s := { s with ops.budgetQ := s.ops.budgetQ.filter (·.id != id) }
    match r.who with
    | .msg ci msn =>
      match msgOf s ci msn with
      | some m =>
        let s := countRefusal s (((rangeOf m.first).map (·.key)).getD 0)
        runAll (endMsg (sendNak s ci m.first.path nkBudgetFull 0 msn (budgetUsedMib s)) ci msn (.nak nkBudgetFull))
      | none => s
    | .wr q slot =>
      let key := ((queueOf s q).map fun x => wrDstKey (x.wr slot)).getD 0
      chainFail (countRefusal s key) q slot .budgetFull

/-- BUDGET_WAIT_EXPIRY (R97). -/
def execBudgetWaitExpiry (id : Nat) (s : State) : Out := needs true s (budgetExpiry s id)

/-- WORK_REQUEST_START (R113). -/
def execWorkRequestStart (q : Nat) (s : State) : Out := needs (wfWorkRequestStart q) s (wrStart s q)

/-- WORK_REQUEST_COMPLETE (R113): a work request whose work is finished leaves the run's work in flight. -/
def execWorkRequestComplete (q slot : Nat) (s : State) : Out :=
  needs (wfWorkRequestComplete q slot) s (if wrFinished s q slot then wrDone s q slot else s)

/-- WORK_REQUEST_FAIL (R114): a work request in flight fails with a cause found outside the step that started it. -/
def execWorkRequestFail (q slot : Nat) (cause : ChainCause) (s : State) : Out :=
  needs (wfWorkRequestFail q slot) s (if (wrRun s q slot).isSome then chainFail s q slot cause else s)

end Sys2Proof.Machine
end

