-- ==== Sys2Proof/Machine/RegFile.lean ====
section
/-! DEFINITION. Reading and writing the registers of the control window (18): computed fields, access by field,
authority (R473), ranges and locks, and what a register's own rules add. -/

namespace Sys2Proof.Machine

/-! ## Reading -/

/-- A check-value context register field, of the context that CVU_CTX_SEL names (Tables 10-12, 10-13). -/
def ctxField (s : State) (f : Reg.Fld) : Nat :=
  let c := ctxOf s (getF s Reg.cvuCtxSelCtx)
  if f.off = 0x80010 then c.poly else if f.off = 0x80018 then c.init else if f.off = 0x80020 then c.xorout
  else if f.off = 0x80028 then c.value else if f.off = 0x80030 then c.result
  else if f.lo = 0 then c.width else if f.lo = 7 then c.refin.toNat else if f.lo = 8 then c.refout.toNat
  else if f.lo = 9 then c.chained.toNat else if f.lo = 10 then c.preset else if f.lo = 16 then c.owner else c.busy.toNat

/-- Objects that use a title slot. -/
def slotUsers (s : State) (n : Nat) : Nat := s.tables.objects.countP fun o => o.2.sealed_.bind (·.slot) == some n

/-- The connection index of a session slot. -/
def slotConn (s : State) (n : Nat) : Nat := ((s.conns.find? fun c => c.2.slot == some n).map (·.1)).getD 0

/-- A KEY_SLOT_STATUS field of slot `n` (Table 10-11). -/
def slotField (s : State) (n lo : Nat) : Nat :=
  match tget s.key.slots n with
  | none => 0
  | some k =>
    if lo = 0 then (match k.st with | .bound => 1 | .exhausted => 2)
    else if lo = 2 then (! k.title).toNat else if lo = 3 then k.root else if lo = 7 then k.auto.toNat
    else if lo = 8 then k.limit else if lo = 16 then (k.out - 1) / 2 ^ k.limit else if lo = 32 then (k.in_ - 1) / 2 ^ k.limit
    else if k.title then min 16383 (slotUsers s n) else slotConn s n

/-- The frozen pitch logs as a map. -/
def frozenMap (s : State) : Nat := s.plog.foldl (fun m x => if x.2.frozen then putBit m x.1 true else m) 0

/-- Slot of the oldest record of a pitch log. -/
def PitchLog.oldest (l : PitchLog) : Nat := (l.slot + 256 - l.recs.length) % 256

/-- A field as a read shows it: most are held in the register table; some show other state. -/
def readF (s : State) (f : Reg.Fld) : Nat :=
  if f.off = 0x1000 then s.timebase % 2 ^ 64
  else if f.off = 0 ∧ f.lo = 16 then fuseGrade s % 4
  else if f.off = 0 ∧ f.lo = 20 then fuseStepping s % 16
  else if f.off = 0 ∧ f.lo = 64 then fuseSerial s
  else if f.off = 0x18 ∧ f.lo = 32 then fuseSecCounter s
  else if f.off = 0x28 ∧ f.lo = 32 then fuseStepping s % 16
  else if f.off = 0x1040 then Nat.lor (getF s f) 1
  else if f.off = 0x30148 ∧ f.lo = 16 then
    (if getF s Reg.mbxGrantStatusLevel = 0 then 0 else cdiv (s.mgmt.grantEnd - s.timebase) (sec 1))
  else if f.off = 0x70000 ∧ f.lo = 0 then s.log.recs.length
  else if f.off = 0x70000 ∧ f.lo = 18 then s.log.start.length
  else if f.off = 0x70008 then ((s.log.recs.head?).map (·.seq)).getD s.log.next
  else if f.off = 0x70010 then s.log.next
  else if f.off = 0x70100 ∧ f.lo = 0 then frozenMap s
  else if f.off = 0x70100 then (flushImages s).length
  else if 0x70200 ≤ f.off ∧ f.off < 0x70340 then
    let l := plogOf s ((f.off - 0x70200) / 8)
    if f.lo = 0 then l.missed else if f.lo = 16 then l.oldest else l.frozen.toNat
  else if 0x80008 ≤ f.off ∧ f.off < 0x80038 then ctxField s f
  else if f.off = 0xE0018 then slotField s (getF s Reg.keySlotSelSlot) f.lo
  else if 0xC1000 ≤ f.off ∧ f.off < 0xC1800 ∧ f.off % 256 = 0 ∧ f.lo = 0 then getF s (Reg.hpPortCfgMode ((f.off - 0xC1000) / 256))
  else getF s f

/-- A 64-bit register (R469); offsets that name no register read as zero (R468). -/
def readReg (s : State) (off : Nat) : Nat :=
  let at_ (o : Nat) : Nat := ((Reg.fieldsAt o).map fun f => readF s f * 2 ^ f.lo).sum
  if off = 8 then at_ 0 / 2 ^ 64 else at_ off % 2 ^ 64

/-- Clears the RC fields of a register that lie in the bits of an access (R470). -/
def clearRc (s : State) (off mask : Nat) : State :=
  (Reg.fieldsAt off).foldl (fun s f => if f.acc = .rc ∧ bit mask f.lo then setF s f f.reset else s) s

/-! ## The core voltage (R25 to R28) -/

/-- Sends the next AVSBus step, of at most 2 codes (10 mV), if none is in flight (R27). -/
def avsNext (s : State) : State :=
  let t := getF s Reg.fabVcoreTarget
  let a := s.fab.avsAcked
  if s.fab.avsSent.isSome || a == t || isSet s Reg.fabVcoreAvsFault then s
  else
    let n := if a < t then min t (a + 2) else max t (a - 2)
    { s with fab.avsSent := some n, fab.avsTries := 0, fab.avsLog := s.fab.avsLog ++ [n] }

/-- The target is the lower of the request and the thermal ceiling (R26); after AVS_FAULT the last acknowledged target is
held (R28). DESIGN CHOICE (log entry 115): TARGET shows that minimum at once, and not the step of at most 10 mV that is
being sent. -/
def vcoreTarget (s : State) : State :=
  if isSet s Reg.fabVcoreAvsFault then s
  else avsNext (setF s Reg.fabVcoreTarget (min (getF s Reg.fabVcoreReq) (getF s Reg.fabVcoreCeil)))

/-! ## Ranges across fields -/

/-- A RANGE_GIB and BUDGET_GIB pair against installed camp and valley (R16, R200); what is not yet known is not yet
tested (log entry 31). -/
def rangePairOk (s : State) (range budget : Nat) : Bool :=
  (campGib s == 0 || decide (range + budget * 2048 ≤ campGib s * 1024)) &&
  (diesPerCh s == 0 || decide (range * 65536 * 4 ≤ rawPages s * 3))

/-- HP_POOL_CFG leaves twice the global reserve of shared ingress (R68). -/
def poolOk (s : State) : Bool :=
  match sharedKib (portModes s) (getF s Reg.hpTmtCfgLossless) (getF s Reg.hpPoolCfgEgressMib) (getF s Reg.hpPoolCfgCableM) with
  | some k => decide (2 * getF s Reg.hpPoolCfgGlobalFree16k * 16 ≤ k) &&
      decide (getF s Reg.hpPoolCfgXonGap16k < getF s Reg.hpPoolCfgXoff16k)
  | none => false

/-- The grade's threshold less 10 °C for grade C (Table 13-1). -/
def gradeC (s : State) : Nat := if fuseGrade s = 1 then 10 else 0

/-- Whether a value is in a field's range. -/
def fieldOk (s : State) (f : Reg.Fld) (v : Nat) : Bool :=
  if f.off = 0x60000 ∧ f.lo = 0 then decide (65 ≤ v + gradeC s ∧ v + gradeC s ≤ 95)
  else if f.off = 0x60000 ∧ f.lo = 8 then decide (70 ≤ v + gradeC s ∧ v + gradeC s ≤ 100)
  else decide (f.rlo ≤ v ∧ v ≤ f.rhi)

/-- Sum of the depths of the 16 notification queues (Table 15-9). -/
def nqDepths (s : State) : Nat := ((List.range 16).map fun q => 2 ^ getF s (Reg.nqCfgDepthLog2 q)).sum

/-- Restores fields to what they were. -/
def restoreF (s0 s : State) (l : List Reg.Fld) : State := l.foldl (fun s f => setF s f (getF s0 f)) s

/-- After the fields of a register have been written one by one: combinations that its rules refuse are put back
(R68, R81, R160, R194, R430). `bad`: some value was out of its field's range. -/
def regMend (s0 s : State) (off : Nat) (bad : Bool) : State :=
  if off = 0xA0010 then
    -- only a write of WQ_LOW above WQ_HIGH - 8 is refused (R194)
    if getF s Reg.campSchedCfgWqLow + 8 ≤ getF s Reg.campSchedCfgWqHigh then s else restoreF s0 s [Reg.campSchedCfgWqLow]
  else if off = 0xA0000 then
    if rangePairOk s (rangeGib s) (budgetGib s) then s else restoreF s0 s [Reg.campRangeCfgRangeGib, Reg.campRangeCfgBudgetGib]
  else if off = 0xC0018 then if ! bad && poolOk s then s else restoreF s0 s (Reg.fieldsAt off)
  else if off = 0xC0000 then
    let m := getF s Reg.hpTmtCfgLossless
    if bit m 7 || decide (popcount m 8 > 3) then restoreF s0 s [Reg.hpTmtCfgLossless] else s
  else if 0xC1018 ≤ off ∧ off < 0xC1800 ∧ off % 256 = 0x18 then
    if poolOk s then s else restoreF s0 s [Reg.hpPortCfgMode ((off - 0xC1018) / 256)]
  else if 0x40080 ≤ off ∧ off < 0x50000 ∧ off % 4096 = 0x80 then
    if nqDepths s ≤ 4096 then s else restoreF s0 s [Reg.nqCfgDepthLog2 ((off - 0x40080) / 4096)]
  else s

/-! ## Locked ways (R261) -/

/-- SUM_STATUS shows the clean walk at the head of the queue. -/
def showWalk (s : State) : State :=
  match s.sum.walks with
  | .lock w :: _ => setF (setB s Reg.sumStatusCleaning true) Reg.sumStatusCleanWay w
  | .off w _ :: _ => setF (setB s Reg.sumStatusCleaning true) Reg.sumStatusCleanWay w
  | [] => setF (setB s Reg.sumStatusCleaning false) Reg.sumStatusCleanWay 0

/-- Whether a number of locked ways would be ignored (R261). DESIGN CHOICE (log entry 138): so is a number that names a way whose
switch-off walk waits or runs, which R266 has already taken out of use. -/
def lockWaysBad (s : State) (v : Nat) : Bool :=
  decide (8 < v) || decide (v < getF s Reg.sumStatusLockUsed) ||
  ((List.range v).any fun w => ! bitF s Reg.sumStatusWaysOn (w + 1)) ||
  s.sum.walks.any fun k => match k with | .off w _ => decide (w ≤ v) | .lock _ => false

/-- A write of LOCK_WAYS: raising it cleans and locks the new ways first, in order; lowering it holds at once. -/
def lockWaysSet (s : State) (v : Nat) : State :=
  if lockWaysBad s v then s
  else
    let top := max (lockWays s) (s.sum.raising.getD 0)
    let keep := s.sum.walks.filter fun k => match k with | .lock w => decide (w ≤ v) | .off _ _ => true
    if v ≤ lockWays s then showWalk (setF { s with sum.raising := none, sum.walks := keep } Reg.sumCfgLockWays v)
    else showWalk { s with sum.raising := some v, sum.walks := keep ++ (span (top + 1) (v + 1)).map Walk.lock }

/-! ## Writing -/

/-- RWL fields lock at service open; the rail table locks at the first enable of a rail (R344). -/
def fldLocked (s : State) (f : Reg.Fld) : Bool :=
  f.acc == .rwl && (if 0x50100 ≤ f.off ∧ f.off < 0x50300 then s.seq.locked else serviceOpen s)

/-- The level a change of a field needs (R473): clearing CAMP_RFG_CFG.EN needs factory. -/
def needLevel (f : Reg.Fld) (v : Nat) : Nat := if f.off = 0xA0018 ∧ f.lo = 48 ∧ v = 0 then 3 else f.level

/-- A write of 1 to a clock-loss bit is ignored until the clock has been present for 1 ms (Table 18-10). -/
def w1cOk (s : State) (f : Reg.Fld) : Bool :=
  if f.off = 0x1008 then (if f.lo = 0 then s.fab.refOk else s.fab.sdOk) else true

/-- Bits of a mask that lie in a field. -/
def inFld (f : Reg.Fld) (m : Nat) : Nat := bits m f.lo f.w

/-- The value that a write access gives a field: the bits it covers replaced (rw, rwl), or ones cleared (w1c). -/
def newVal (s : State) (f : Reg.Fld) (mask data : Nat) : Nat :=
  let old := readF s f
  let m := inFld f mask
  let d := Nat.land (inFld f data) m
  if f.acc = .w1c then old - Nat.land old d else old - Nat.land old m + d

/-- How a write access ended: the state, whether a field was left for want of a grant, and whether a value was out of
range. -/
structure Written where
  s : State
  denied : Bool := false
  bad : Bool := false

/-- Writes one field of an access at a level (R473). -/
def putField (lvl mask data : Nat) (r : Written) (f : Reg.Fld) : Written :=
  match f.acc with
  | .ro | .rc | .wo => r
  | _ =>
    let v := newVal r.s f mask data
    if v = readF r.s f ∨ fldLocked r.s f then r
    else if f.acc = .w1c then
      (if ! w1cOk r.s f then r else if lvl < f.level then { r with denied := true } else { r with s := setF r.s f v })
    else if lvl < needLevel f v then { r with denied := true }
    else if ! fieldOk r.s f v then { r with bad := true }
    else if f.off = 0x90000 then { r with s := lockWaysSet r.s v }
    else { r with s := setF r.s f v }

/-- What follows the writing of a register: the AVSBus target (R26), RANGE_ERR (R25), the rail and cause of SEQ_FAULT
(Table 12-10). -/
def regAfter (s : State) (off : Nat) (bad : Bool) : State :=
  if off = 0x1010 then vcoreTarget (if bad then setB s Reg.fabVcoreRangeErr true else s)
  else if off = 0x50010 then
    if getF s Reg.seqFaultFaultMap = 0 then setF (setF s Reg.seqFaultRail 31) Reg.seqFaultCause 0 else s
  else s

/-- The sub-ports of a port whose mode has changed train again; the others are absent (R42). -/
def newMode (s0 s : State) (off : Nat) : State :=
  let p := (off - 0xC1018) / 256
  let mode := getF s (Reg.hpPortCfgMode p)
  if 0xC1018 ≤ off ∧ off < 0xC1800 ∧ off % 256 = 0x18 ∧ mode ≠ getF s0 (Reg.hpPortCfgMode p) then
    (List.range 4).foldl (fun s k =>
      let sub := 4 * p + k
      let s := if subState s sub = subAbsent then s else subPathsDown s sub
      setSub s sub (if (modeSubs mode).contains k then subTraining else subAbsent)) s
  else s

/-- A write of a register at a level: `mask` marks the bits of the access. -/
def regWrite (s : State) (off mask data lvl : Nat) : Written :=
  let r := (Reg.fieldsAt off).foldl (putField lvl mask data) { s := s }
  let m := regMend s r.s off r.bad
  let bad := r.bad || decide (m.regs ≠ r.s.regs)
  { s := newMode s (regAfter m off bad) off, denied := r.denied, bad := bad }

/-- A whole-register write by a command, refused whole when a value is out of range: `none` then. Locked fields that it
would change make it out of range too (log entry 32). -/
def regCommand (s : State) (off : Nat) (w : Nat) : Option State :=
  let locked := (Reg.fieldsAt off).any fun f => fldLocked s f && newVal s f (2 ^ 64 - 1) w != readF s f
  let r := regWrite s off (2 ^ 64 - 1) w 3
  if r.bad || locked then none else some r.s

/-- Bits and data of an aligned access of 4 or 8 bytes within its register. -/
def accMask (off len : Nat) : Nat := if len = 8 then 2 ^ 64 - 1 else (2 ^ 32 - 1) * 2 ^ (off % 8 / 4 * 32)
def accData (off : Nat) (d : Bytes) : Nat := if d.length = 8 then leNat d else leNat d * 2 ^ (off % 8 / 4 * 32)

/-- The grant level in force (R473, R474). -/
def grantLevel (s : State) : Nat := if s.timebase < s.mgmt.grantEnd then getF s Reg.mbxGrantStatusLevel else 0

/-- An access with a field left unchanged for want of a grant: DENIED rises, and the first in each second writes a
logbook record (R473). -/
def deny (s : State) (off : Nat) : State :=
  let s := bumpF s Reg.mbxGrantStatusDenied
  let due := match s.log.deniedAt with | some t => decide (s.timebase / sec 1 ≠ t / sec 1) | none => true
  if due then logEv { s with log.deniedAt := some s.timebase } srcMgmt .deniedWrite noUnit [off] else s

/-- An access through the control window happens only while the PCIe link is up (R467, R502). -/
def onWindow (s : State) (f : State → State) : State := if s.mgmt.linkUp then f s else s

/-- An aligned 4- or 8-byte write of a register through the window, under the grant in force. -/
def windowReg (s : State) (off : Nat) (d : Bytes) : State :=
  let r := regWrite s (off / 8 * 8) (accMask off d.length) (accData off d) (grantLevel s)
  if r.denied then deny r.s off else r.s

end Sys2Proof.Machine
end

