-- ==== Sys2Proof/Machine/Media.lean ====
section
/-! DEFINITION. Table-log flushes, the logbook's copies, the cairn's sectors and the pitch-log flush images (7, 15). -/

namespace Sys2Proof.Machine

/-! ## Journal, table log, logbook copies (R216 to R221) -/

/-- The open table-log page is programmed with every change of the tables, and the commands that waited for it are answered
(R124, R218). -/
def flushTables (s : State) : State :=
  let s := { programTables (tableLog s) true with val.tlogTickets := [] }
  releaseHolds { s with cmd.tickets := s.cmd.tickets.map fun x => match x.2.st with
    | .hold _ i r => (x.1, { x.2 with st := .hold false i r })
    | _ => x }

/-- The logbook page of the newest record, which is the one that changes, is programmed again as a new copy (R221). -/
def programLog (s : State) : State :=
  if s.log.loaded && s.log.changed then { s with log := (s.log.program ((s.log.recs.length - 1) / 255)) } else s

/-! ## Cairn (R223 to R227, R414) -/

/-- Shows the highest erase count. -/
def showErase (s : State) : State :=
  setF s Reg.valCairnStatusMaxErase (min 65535 (s.cairn.erases.foldl (fun m x => max m x.2) 0))

/-- Sectors `a` to `a + n - 1` have been erased once more. -/
def sectorsErased (s : State) (a n : Nat) : State :=
  showErase { s with cairn.erases := (List.range n).foldl (fun e i => tset e (a + i) (tcnt e (a + i) + 1)) s.cairn.erases }

/-- First sector of the two configuration copies, of 252 sectors each, and of the six flush images, of 82 (Table 7-10; log entry
134). -/
def cfgSector (k : Nat) : Nat := 3072 + k * 252
def flushSector (i : Nat) : Nat := 3584 + i * 82

/-- Sectors `a` to `a + n - 1` are erased and programmed by the part itself: in a sector that takes no erase or program any more,
with no spare left for it, nothing is written (R225). Gives whether all were. -/
def sectorsWritten (s : State) (a n : Nat) : State × Bool :=
  (sectorsErased s a n, (List.range n).all fun i => ! s.cairn.weak.contains (a + i))

/-- A pitch-log flush (R414): an image of the 40 rings, with the operating hours (R412); six images rotate. One whose sectors
cannot be written has no commit row, and the image that it replaces is gone (R226). -/
def flushPitch (s : State) (cause : Nat) : State :=
  let n := ((s.cairn.images.getLast?).map (·.seq)).getD 0 + 1
  let w := sectorsWritten s (flushSector (n % 6)) 81
  let s := w.1
  let img : FlushImage := { seq := n, stamp := stampNow s, nextSeq := s.log.next, cause := cause, logs := s.plog, committed := w.2 }
  let l := s.cairn.images ++ [img]
  { s with cairn.images := l.drop (l.length - 6), cairn.lastFlush := some s.timebase, log.hoursCfg := s.log.hours }

/-- The hourly flush is limited to one per hour; one beyond the limit is skipped and counted (R227). -/
def flushHourly (s : State) : State :=
  let due := match s.cairn.lastFlush with | some t => decide (t + sec 3600 ≤ s.timebase) | none => true
  if due then flushPitch s 1 else pitchEv (bumpF s Reg.valCairnStatusFlushSkipped) srcCairn .flushSkipped

end Sys2Proof.Machine
end

