-- ==== Sys2Proof/Machine/Power.lean ====
section
/-! DEFINITION. Power (12): the rail table, starting and stopping the rails, rail faults, what a loss of core power leaves,
the bivouac, and the device reset's own steps (6, 16, 17). -/

namespace Sys2Proof.Machine

/-! ## The rail table (R344, R345) -/

def railOrder (s : State) (r : Nat) : Nat := getF s (Reg.seqRailOrder r)
def railUsed (s : State) (r : Nat) : Bool := decide (railOrder s r < 24)
def rails (s : State) : List Nat := (List.range 24).filter (railUsed s)
def groupRails (s : State) (g : Nat) : List Nat := (rails s).filter (railOrder s · == g)

/-- A fused time of 0 is used as the recommended one (R344). -/
def fusedOr (v d : Nat) : Nat := if v = 0 then d else v
def pgTimeout (s : State) (r : Nat) : Nat := ms (fusedOr (getF s (Reg.seqRailPgTimeoutMs r)) 20)
def dwellTime (s : State) (r : Nat) : Nat := us (100 * fusedOr (getF s (Reg.seqRailDwell100us r)) 10)

/-- The group's delay: the longest of its rails (log entry 34). -/
def groupDelay (s : State) (g : Nat) : Nat :=
  us (100 * (groupRails s g).foldl (fun m r => max m (getF s (Reg.seqRailDelay100us r))) 0)

/-- The first group at or above an ORDER that has rails. -/
def groupFrom (s : State) (g : Nat) : Option Nat := (span g 24).find? fun k => ! (groupRails s k).isEmpty

def railOn (s : State) (r : Nat) : Bool := bitF s Reg.seqStatusRailsOn r
def railPg (s : State) (r : Nat) : Bool := bitF s Reg.seqStatusPgState r

/-- The last group with a rail enabled. -/
def topGroup (s : State) : Option Nat := ((span 0 24).filter fun g => (groupRails s g).any (railOn s)).getLast?

/-! ## Monitors (R346, R347) -/

def monReadF (c : Nat) : Reg.Fld :=
  if c % 4 = 0 then Reg.seqMonReadC0 (c / 4) else if c % 4 = 1 then Reg.seqMonReadC1 (c / 4)
  else if c % 4 = 2 then Reg.seqMonReadC2 (c / 4) else Reg.seqMonReadC3 (c / 4)

/-- The rails that a monitor channel watches. -/
def monRails (s : State) (c : Nat) : List Nat :=
  (rails s).filter fun r => isSet s (Reg.seqRailMonEn r) && getF s (Reg.seqRailMon r) == c

/-- The last reading of a rail's monitor lies in its window; a rail without one always does. -/
def monInside (s : State) (r : Nat) : Bool :=
  let c := getF s (Reg.seqRailMon r)
  if isSet s (Reg.seqRailMonEn r) && isSet s (Reg.seqMonEn c) then
    decide (getF s (Reg.seqMonLowMv c) ≤ getF s (monReadF c) ∧ getF s (monReadF c) ≤ getF s (Reg.seqMonHighMv c))
  else true

/-! ## Loss of core power -/

/-- Register fields that PD0 keeps (R41, R373, R450, R465). -/
def keptRegs (s : State) : Tab Nat := s.regs.filter fun x => (Reg.fieldsAt (x.1 / 64)).any fun f => f.lo == x.1 % 64 && f.pd0

/-- What the valley and the cairn hold through a stop: everything but programs in flight, whose pages are torn, records not yet
programmed, the running parity, and what the next scan finds again. -/
def durableValley (v : Valley) : Valley :=
  { v with
    progs := [], torn := v.torn ++ tkeys v.progs, dies := diesFree v, stripes := v.stripes.map fun x => (x.1, { x.2 with sum := { kind := 0 }, closing := false }),
    dev := none, prof := none, ces := 0, perCe := 0, rootBad := false, jopen := [], jrnlSince := none,
    topen := [], tlogSince := none, tlogTickets := [], tnext := v.tnext - recCount v.topen, tseen := v.tables,
    held := [], moved := [], verifyAt := 0, verifyDays := 7, verified := [], opWarned := false }

/-- The ladder after core power was lost: no rung of a function runs, nothing waits, the counts stay (R444). -/
def ladderStopped (l : Ladder) : Ladder :=
  { l with
    due := 0, wait := 0, retiring := none,
    fns := l.fns.map fun x => (x.1, { x.2 with rung := 0, tries := 0, held := false, joined := [] }) }

/-- The core loses power or is reset: PD0, the cairn, the valley, the pins and straps, and the records of outputs stay;
every other domain is at its reset state. The pitch logs of PD0's subsystems stay; the others are SRAM (R410). What the
cairn records of camp (retired frames, channels) stays. -/
def coreOff (s : State) : State :=
  { ({} : State) with
    pending := s.pending, timebase := s.timebase, free := s.free, fuse := s.fuse, regs := keptRegs s,
    pins := s.pins, seq := s.seq, thm := s.thm, start := { s.start with soloOrdered := false, halted := false },
    ladder := ladderStopped s.ladder,
    cairn := s.cairn, val := durableValley s.val,
    fab := { avsLog := s.fab.avsLog, refOk := s.fab.refOk, sdOk := s.fab.sdOk, sdSince := s.fab.sdSince },
    log := { area := s.log.area, pageSeq := s.log.pageSeq, hours := s.log.hours, hoursCfg := s.log.hoursCfg, start := s.log.start, startLost := s.log.startLost },
    plog := s.plog.filter fun x => decide (x.1 ≤ 2),
    mgmt := { sent := s.mgmt.sent, linkUp := false }, i3c := { out := s.i3c.out }, port := { wire := s.port.wire },
    connGen := s.connGen,
    code := { marked := s.code.marked, soft := s.code.soft,
              disabled := s.code.disabled.filter fun k => ! s.code.soft.any (· / 2 ^ 32 == k) },
    camp := { retired := s.camp.retired, permanent := s.camp.permanent, pendingRows := s.camp.pendingRows,
              lastingRows := s.camp.lastingRows, gone := s.camp.gone, issued := s.camp.issued,
              liveMap := (List.range 16).filter fun c => ! s.camp.gone.contains c } }

/-! ## Starting the rails (R348, R349) -/

/-- FAB_START_STATUS.WAIT. -/
def startWait (s : State) (w : Nat) : State := setF s Reg.fabStartStatusWait w

/-- The start begins: stage 2, first group's delay. With a blank table nothing is enabled (R344; log entry 54). -/
def startRails (s : State) : State :=
  match groupFrom s 0 with
  | none => setSeqState { s with seq.startPending := false } stOff
  | some g =>
    setF (setSeqState { s with
      seq.startPending := false, seq.group := some g, seq.delayEnd := some (s.timebase + groupDelay s g), seq.enabledAt := none,
      seq.dwell := [], seq.good := [], seq.chat := [], seq.fell := [], seq.monOut := [], seq.why := none, seq.down := none,
      seq.stayOff := false } stStarting) Reg.fabStartStatusStage 2

/-- A start that waits begins when the input supply is good and stage 1 has ended (R348, R451). -/
def startIfDue (s : State) : State :=
  if s.seq.startPending && isSet s Reg.seqStatusVinGood && getF s Reg.fabStartStatusStage != 1 then startRails s else s

/-- A start of the rails is asked for (R348); refused after a trip until the part is cool (R382). OPEN_MS counts from
here. -/
def askStart (s : State) : State :=
  let s := { s with seq.restartAt := none }
  if s.thm.shut then s else startIfDue { s with seq.startPending := true, start.entry := s.timebase }

/-! ## Stopping the rails (R354, R370) -/

/-- The power-down has ended: the part is off, at stage 2 for its next start (Table 17-1), and a restart follows where R370
gives one. -/
def powerDownEnd (s : State) : State :=
  let why := s.seq.why
  let biv := s.seq.bivStep != 0
  let s := startWait (setF (coreOff s) Reg.fabStartStatusStage 2) 0
  let s := setSeqState { s with seq.down := none, seq.delayEnd := none, seq.discharging := [], seq.why := none, seq.bivStep := 0,
                                seq.group := none, seq.good := [], seq.dwell := [], seq.fell := [], seq.graceEnd := none } stOff
  let s := { s with start.cause := if biv && why != some .cycle then 1 else 2 }
  match why with
  | some .collapse => if biv && isSet s Reg.seqCfgAutoRestart && ! s.seq.stayOff then askStart s else s
  | some .railFault => if biv && isSet s Reg.seqCfgAutoRestart && ! s.seq.stayOff then askStart s else s
  | some .cycle => if s.seq.stayOff then s else { s with seq.restartAt := some (s.timebase + sec 1) }
  | _ => s

/-- A rail that is off is discharged: its power-good is low, and its monitor reads below OFF_MV (R347, R354). -/
def discharged (s : State) (r : Nat) : Bool :=
  let c := getF s (Reg.seqRailMon r)
  ! (isSet s (Reg.seqRailPgUsed r) && railPg s r) &&
  (! (isSet s (Reg.seqRailMonEn r) && isSet s (Reg.seqMonEn c)) || decide (getF s (monReadF c) < getF s (Reg.seqMonOffMv c)))

def dischTime (s : State) (r : Nat) : Nat := ms (fusedOr (getF s (Reg.seqRailDischMs r)) 50)

/-- The last group that is still on is disabled; none left: the power-down has ended. -/
def downGroup (s : State) : State :=
  match topGroup s with
  | none => powerDownEnd s
  | some g =>
    let l := (groupRails s g).filter (railOn s)
    let s := l.foldl (fun s r => putF s Reg.seqStatusRailsOn r false) s
    { s with seq.down := some g, seq.discharging := l, seq.downAt := s.timebase,
             seq.delayEnd := if s.seq.pace then some (s.timebase + us (10 * getF s Reg.seqCfgBivStep10us)) else none }

/-- A reverse-order shutdown begins (R354), with the departure word (R435). -/
def shutDown (s : State) (why : StopWhy) (pace : Bool) : State :=
  if s.seq.down.isSome then s
  else downGroup (departFenced (setSeqState { s with
    seq.why := some why, seq.pace := pace, seq.group := none, seq.delayEnd := none, seq.dwell := [], seq.graceEnd := none,
    seq.startPending := false } stDown))

/-- Every PS_EN is released at once, in no order (R343). -/
def releaseAll (s : State) (why : StopWhy) : State :=
  powerDownEnd (setF { s with seq.why := some why } Reg.seqStatusRailsOn 0)

/-! ## Bivouac (R358 to R360) -/

/-- SHUTDOWN_IMMINENT with its cause, the last EVENT (R117). -/
def shutdownImminent (s : State) (cause : Nat) : State :=
  if s.port.eventsOff then s else { deviceEvent s 0x0404 cause 0 with port.eventsOff := true }

/-- A bivouac begins, with the cause of its header (Table 7-8) and of SHUTDOWN_IMMINENT (Table 4-11): step B1. -/
def startBivouac (s : State) (hdr ev : Nat) (why : StopWhy) : State :=
  let s := shutdownImminent s ev
  let s := logEv s srcSeq .bivouac noUnit [hdr]
  departFenced (setSeqState { s with
    seq.why := some why, seq.bivStep := 1, seq.bivCause := hdr, seq.bivAt := s.timebase, seq.graceEnd := none } stBivouac)

/-- Promotions and destages are abandoned (Table 5-8): PROMOTING back to VALLEY, DESTAGING back to DIRTY. The dies' programs and
erases are abandoned with them (Table 7-12). -/
def abandonMoves (s : State) : State :=
  let back := fun (x : Nat × Slab) => match x.2.st with
    | .promoting => (x.1, { x.2 with st := .valley, unit := none, filled := 0 })
    | .destaging => (x.1, { x.2 with st := .dirty, target := none, wrote := false })
    | _ => x
  { s with range.slabs := s.range.slabs.map back, range.jobs := [], range.movers := [],
           val.progs := [], val.torn := s.val.torn ++ tkeys s.val.progs, val.dies := diesFree s.val }

/-- Parked requests end (Table 12-3, B2): what they hold is released, and nothing is sent for them. -/
def endParked (s : State) : State :=
  s.conns.foldl (fun s x => (x.2.msgs.filter (·.2.parked)).foldl (fun s y =>
    modConn (releaseMsg s x.1 y.1 y.2) x.1 fun c => { c with msgs := tdel c.msgs y.1 }) s) s

/-- Summit is cleaned to camp: fills abandoned, every dirty line written (R268). -/
def cleanSummit (s : State) : State :=
  let s := (s.sum.lines.filter (·.2.dirty)).foldl (fun s x => campAsk s true .demand 0 0 x.2.line) s
  let s := { s with sum.stopped := true, sum.fills := [], sum.evicting := [] }
  showDirty { s with sum.lines := s.sum.lines.map fun x => (x.1, { x.2 with dirty := false }) }

/-- Index entries of the dirty list (Table 7-8). -/
def bivIndex (s : State) : List BivSlab :=
  s.range.dirtyList.map fun n =>
    { slab := n, roped := slabRoped s n, sealed_ := slabSealed s n, pois := (slabOf s n).pois, page := none }

/-- The open stripes are closed. -/
def closeStripes (s : State) : State := (tkeys s.val.stripes).foldl closeStripe s

/-- The rope bitmap is saved (R329). -/
def saveMap (s : State) : State :=
  { s with cairn.ropeMap := some (s.rope.bitmap ++ s.rope.oldMap).eraseDups }

/-- The work of a bivouac step (Table 12-3), done when the step completes. -/
def bivWork (s : State) : State :=
  match s.seq.bivStep with
  | 2 => cleanSummit (abandonMoves (endParked (haltRuns { s with ops.budgetQ := [] })))
  | 3 =>
    let s := programTables (tableLog (flushJournal s)) true
    let q := max s.val.bivSeq ((s.val.root.map (·.lastReplayed)).getD 0) + 1
    -- the dirty slabs are read through the bivouac engine's camp port (Table 6-3)
    s.range.dirtyList.foldl (fun s n => campLines s false .bivouac 0 (span (n * 256) (n * 256 + 256)))
      { s with seq.staged := 0, val.bivSeq := q, val.biv := some {
        seq := q, cause := s.seq.bivCause, identity := ((s.val.root.map (·.identity)).getD 0), stamp := s.seq.bivAt,
        cycle := getF s Reg.idBootCount / 256, budgetGib := budgetGib s, jrnl := s.val.jnext - 1, slabs := bivIndex s } }
  | 4 => { s with val.biv := s.val.biv.map fun b => { b with
      slabs := b.slabs.map fun x => { x with page := some (slabPage s x.slab 6) } } }
  | 5 => saveMap (flushPitch (programLog (closeStripes { s with val.biv := s.val.biv.map fun b => { b with trailer := some (b.slabs.countP (·.page.isSome)) } })) 3)
  | _ => s

/-! ## Rail faults (R350 to R352, R355, R357) -/

/-- Whether the rails are going up. -/
def railsStarting (s : State) : Bool := seqState s == stStarting

/-- A rail faults: recorded, then handled by the sequencer's state (log entry 35 for the states R352 does not name). -/
def railFault (s : State) (r cause : Nat) : State :=
  let first := getF s Reg.seqFaultFaultMap == 0
  let s := if first then setF (setF s Reg.seqFaultRail r) Reg.seqFaultCause cause else s
  let s := putF s Reg.seqFaultFaultMap r true
  let s := logEv s srcSeq .railFault r [cause] true
  let st := seqState s
  if s.seq.down.isSome || st == stOff then s
  else if st == stStarting then shutDown s .railStart false
  else if st == stBivouac then (if isSet s (Reg.seqRailBivNeed r) then releaseAll s .railFault else s)
  else if (st == stService || st == stStopping) && ! isSet s (Reg.seqRailBivNeed r) then startBivouac s 1 1 .railFault
  else shutDown s .railStart false

/-- A chatter is recorded; CHATTER_N of them within CHATTER_WIN_MS fault the rail (R350, R351). -/
def chatter (s : State) (r : Nat) : State :=
  let l := (s.seq.chat.filter fun x => decide (s.timebase < x.2 + ms (getF s Reg.seqCfgChatterWinMs))) ++ [(r, s.timebase)]
  let s := { s with seq.chat := l }
  if l.countP (·.1 == r) ≥ getF s Reg.seqCfgChatterN then railFault s r 2 else s

/-- A rail whose power-good has held for its dwell, with its monitor inside its window, is good; with the last rail of its
group good, the next group's delay starts (R349). -/
def railGood (s : State) (r : Nat) : State :=
  match tget s.seq.dwell r with
  | none => s
  | some t =>
    if s.timebase < t + dwellTime s r ∨ ! monInside s r then s
    else
      let s := { s with seq.dwell := tdel s.seq.dwell r, seq.good := s.seq.good ++ [r] }
      match s.seq.group with
      | none => s
      | some g =>
        if s.seq.enabledAt.isNone ∨ ! ((rails s).filter fun r => railOrder s r ≤ g).all s.seq.good.contains then s
        else match groupFrom s (g + 1) with
          | some k => { s with seq.group := some k, seq.enabledAt := none, seq.delayEnd := some (s.timebase + groupDelay s k) }
          | none => { s with seq.group := none, seq.enabledAt := none }

/-- Every rail of the table is on and good. -/
def railsUp (s : State) : Bool := s.seq.group.isNone && ! (rails s).isEmpty && (rails s).all s.seq.good.contains

/-! ## Device reset (R187, R461, R446) -/

/-- A channel of the camp controller that has a stuck handshake, so that the steps of R187 do not end within their bounds (log
entry 44). -/
def campStuck (s : State) (c : Nat) : Bool :=
  (s.fab.stuck.any fun x => x.1 % 128 == 58 + c) || bitF s (Reg.fabStallMap 0) (58 + c)

/-- Channels whose self-refresh is confirmed (R187): those in service, less the ones that miss a bound of a step. -/
def selfRefreshMap (s : State) : Nat :=
  (s.camp.liveMap.filter fun c => getF s (Reg.campChStatusState c) == 2 && ! campStuck s c).foldl (fun m c => putBit m c true) 0

/-- Steps 2 to 4 of R187 on the channels in service: queued writes complete, every rank's debt is paid, every rank enters
self-refresh. The commands go out; what they leave is reset with the controller's domain. -/
def quiesceCamp (s : State) : State :=
  (s.camp.liveMap.filter fun c => getF s (Reg.campChStatusState c) == 2).foldl (fun s c =>
    [c * 2, c * 2 + 1].foldl (fun s k =>
      let q := (tget s.camp.q k).getD {}
      let s := { s with camp.q := tset s.camp.q k {}, camp.issued := s.camp.issued ++ q.wr.map fun r => (k, .wr r.cpa) }
      (List.range ((tget s.camp.ch c).getD {}).ranks).foldl (fun s r =>
        let debt := ((tget s.camp.rank (k * 16 + r)).getD {}).debt.toNat
        { s with camp.rank := tset s.camp.rank (k * 16 + r) {},
                 camp.issued := s.camp.issued ++ (List.replicate debt (k, .refAb r)) ++ [(k, .selfRefresh r)] }) s) s) s

/-- FLAGS of the integrity record (Table 17-6): camp queues empty; summit clean; the journal page programmed; the logbook
flushed. A channel that is out of service or stuck keeps its queued writes, and summit lines that belong to it. -/
def integrityFlags (s : State) : Nat :=
  let out (k : Nat) : Bool := getF s (Reg.campChStatusState (k / 2)) != 2 || campStuck s (k / 2)
  let queued := s.camp.q.any fun x => out x.1 && ! x.2.wr.isEmpty
  let dirty := s.sum.lines.any fun x => x.2.dirty && out ((campLoc s (cpaOf s x.2.line)).ch * 2)
  (if queued then 0 else 1) + (if dirty then 0 else 2) + 12

def liveMask (s : State) : Nat := s.camp.liveMap.foldl (fun m c => putBit m c true) 0

/-- The camp format of the firmware that runs: its build (log entry 41). -/
def campFormat (s : State) : Nat := if getF s Reg.fabStartStatusBank = 0 then s.cairn.bankA.build else s.cairn.bankB.build

/-- A row of the power-cycle counter ring (R390): the count and a CRC-32C over it, the rest erased. -/
def bootRow (c : Nat) : Bytes := leBytes 4 c ++ leBytes 4 (crc32c (leBytes 4 c)) ++ List.replicate 248 255

/-- The newest count of the ring, the 128 rows of sectors 3576 to 3583, with its row: the valid row with the highest count stands. -/
def ringCount (s : State) : Nat × Nat :=
  (s.cairn.rows.filter fun r => decide (57216 ≤ r.1 ∧ r.1 < 57344) && r.2 == bootRow (leNat (r.2.take 4))).foldl
    (fun b r => if b.1 < leNat (r.2.take 4) then (leNat (r.2.take 4), r.1) else b) (0, 57343)

/-- ID_BOOT.COUNT is raised: by a device reset in [7:0], past 255 or by any other start in [31:8]; the next row of the ring holds
the new count, a sector being erased as the ring enters it (R390). -/
def bumpBoot (s : State) (warm : Bool) : State :=
  let r := ringCount s
  let c := if warm ∧ r.1 % 256 < 255 then r.1 + 1 else (r.1 / 256 + 1) * 256
  let row := 57216 + (r.2 - 57216 + 1) % 128
  let s := if row % 16 = 0 then sectorsErased { s with cairn.rows := s.cairn.rows.filter fun x => x.1 / 16 != row / 16 } (row / 16) 1 else s
  setF { s with cairn.rows := tset s.cairn.rows row (bootRow c) } Reg.idBootCount c

/-- The jobs that restart after a reset that keeps camp (R159, Table 5-7): slab moves; the others belong to what the reset ends. -/
def restartJobs (s : State) : List Job :=
  (s.range.jobs ++ s.range.movers.map (·.2)).filterMap fun j => match j.kind with
    | .promote _ | .prefetch .. | .load _ | .destage _ | .move _ => some { j with offset := 0 }
    | _ => none

/-- The device reset (R461): operations and reservations end, queued writes complete and summit is cleaned, the journal page, logbook and pitch logs are
flushed, the integrity record is written when the part was in service or stopping, and every domain but PD0 is reset with
camp in self-refresh. A twin that resets departs first (R435, R445; log entry 42). The start enters at stage 4. -/
def deviceReset (s : State) (cause : Nat) : State :=
  let served := serviceOpen s
  let s := departFenced s
  let jobs := restartJobs s
  let s := haltRuns ((tkeys s.conns).foldl abandonMsgs { s with ops.budgetQ := [] })
  let flags := integrityFlags s
  let s := quiesceCamp (cleanSummit (abandonMoves s))
  let s := if served then flushPitch (programLog (flushJournal s)) 4 else s
  let rec_ : Option Integrity := if served then some {
      count := getF s Reg.idBootCount, confirmed := selfRefreshMap s, live := liveMask s, flags := flags,
      rangeGib := rangeGib s, budgetGib := budgetGib s, format := campFormat s, crcOk := true } else none
  -- a channel holds its contents in self-refresh where it was in service (R188)
  let live := s.camp.liveMap.filter fun c => getF s (Reg.campChStatusState c) == 2 && ! campStuck s c
  let t := saveMap s
  let r := coreOff t
  let r := { r with
    fab.avsAcked := s.fab.avsAcked,
    start.integrity := rec_, start.cause := cause, start.entry := s.timebase,
    range := { s.range with
      jobs := jobs, movers := [], segQ := [], segRun := [], leaving := [],
      slabs := s.range.slabs.map fun x => (x.1, { x.2 with evictAfter := [] }) },
    tables := s.tables, ops.nextId := s.ops.nextId,
    rope.bitmap := s.rope.bitmap, rope.oldMap := s.rope.oldMap,
    camp.ch := s.camp.ch.map fun x => (x.1, { x.2 with stage := 0, selfRef := live.contains x.1, reinit := false }),
    code.lostFrames := s.code.lostFrames }
  let r := live.foldl (fun r c => setF r (Reg.campChStatusState c) 4) r
  let r := s.camp.gone.foldl (fun r c => setF r (Reg.campChStatusState c) 5) r
  startWait (setF (setSeqState { avsNext r with seq.graceEnd := none, seq.why := none } stRecovery) Reg.fabStartStatusStage 4) 0

end Sys2Proof.Machine
end

