-- ==== Sys2Proof/Machine/Repair.lean ====
section
/-! DEFINITION. Protection of stored data (6, 8): lost lines and their repair sources, eviction, retired rows, marked
devices, the fault counting windows, a lost camp channel. -/

namespace Sys2Proof.Machine

/-! ## From a camp address back to a slab -/

/-- The slab whose camp frame holds a camp physical address. -/
def slabOfCpa (s : State) (cpa : Nat) : Option Nat :=
  let f := cpa / 16384 - poolBase s
  if cpa / 16384 < poolBase s then none
  else (s.range.slabs.find? fun x => x.1 % 256 == f % 256 && x.2.frame == f / 256 && x.2.st.resident).map (·.1)

/-- The line of the range that a camp code word holds. -/
def lineOfCpa (s : State) (cpa : Nat) : Option Nat := (slabOfCpa s cpa).map fun n => n * 256 + cpa / 64 % 256

/-- The channel of a line of a resident slab. -/
def lineCh (s : State) (line : Nat) : Nat := (campLoc s (cpaOf s line)).ch

/-! ## Eviction (Table 5-3, R147, R149) -/

/-- The reads that have translated to a slab's frame and have not passed their release point (Table 4-3). -/
def readersOf (s : State) (n : Nat) : List (Nat × Nat) :=
  s.conns.flatMap fun c => (c.2.msgs.filter fun m => m.2.started && ! m.2.over &&
    (partSlabs (msgParts s m.2)).contains n).map fun m => (c.1, m.1)

/-- A CLEAN slab becomes VALLEY: its frame is free once every read that had translated to it is done (R148). -/
def evictSlab (s : State) (n : Nat) : State :=
  let x := slabOf s n
  match x.st with
  | .clean =>
    let s := match readersOf s n with
      | [] => s
      | l => { s with range.leaving := s.range.leaving ++ [(n, x.frame, l)] }
    let s := dropJobs { s with camp.moves := tdel s.camp.moves n } (· == .move n)
    setSlab s n { x with st := .valley, frame := 0, mask := 0 }
  | _ => s

/-- Whether a parked request waits on a slab. -/
def hasParked (s : State) (n : Nat) : Bool :=
  s.conns.any fun c => c.2.msgs.any fun m => m.2.parked &&
    (partSlabs (msgParts s m.2)).contains n

/-! ## Repair of lost lines (R237 to R239, R338, R339) -/

/-- A line fetch from the Second is a source: roped slab at a Lead whose team is ROPED or RETURNING with the rope up. -/
def lineFetchOk (s : State) (n : Nat) : Bool :=
  slabRoped s n && role s == roleLead && (team s == teamRoped || team s == teamReturning) && (ropePick s).isSome &&
  seqState s != stBivouac

/-- A repair fetch can be sent: published slab, a twin, and the rope up. -/
def repairFetchOk (s : State) (n : Nat) : Bool :=
  slabPublished s n && (ropePick s).isSome && (role s == roleLead || role s == roleSecond) && seqState s != stBivouac

/-- The fetch of the 4 KiB unit that holds a line (R338). -/
def fetchOf (s : State) (published : Bool) (line : Nat) : Fetch :=
  let u := line / 64 * 64
  match (if published then objOfSlab s (line / 256) else none) with
  | some (_, o) => { published := true, digest := o.digest, slab := line / 256, off := u * 64 - o.base, len := 4096 }
  | none => { slab := line / 256, off := u % 256 * 64, len := 4096 }

/-- Asks the twin for a line; a published slab has one fetch, which has REPAIR_MS (R339). -/
def askTwin (s : State) (published : Bool) (line : Nat) : State :=
  let n := line / 256
  let s := ropeSend { s with code.repairing := tset s.code.repairing line (if published then 4 else 3) } true
    (.fetchReq (fetchOf s published line))
  if published && ! thas s.rope.repairAt n then
    { s with rope.repairAt := tset s.rope.repairAt n (s.timebase + ms (getF s Reg.rlCfgRepairMs)) }
  else s

/-- A line found uncorrectable in the valley: line fetch, repair fetch, or poison (Table 8-8). -/
def lostInValley (s : State) (line : Nat) : State :=
  let n := line / 256
  if lineBad s line || (slabOf s n).st == .unwritten then s
  else if lineFetchOk s n then askTwin s false line
  else if repairFetchOk s n then askTwin s true line
  else poisonLine { s with code.repairing := tdel s.code.repairing line } line

/-- A line found uncorrectable in camp, or dirty in summit: its valley page while the slab is CLEAN, else a line fetch, else
poison (Table 8-8). One repair runs; who finds it again waits on it. -/
def lostInCamp (s : State) (line : Nat) : State :=
  let n := line / 256
  let st := (slabOf s n).st
  if lineBad s line || thas s.code.repairing line || zeroLine s line then s
  else if st == .clean then addJob { s with code.repairing := tset s.code.repairing line 2 } 1 (.repair n)
  else if st.charged && lineFetchOk s n then askTwin s false line
  else if st.resident then poisonLine s line
  else s

/-- A line is repaired with these bytes: written back where the fault was found (R237). -/
def lineGood (s : State) (line : Nat) (d : Bytes) : State :=
  let s := { cleanLine s line with range.mem := memPut (cleanLine s line).range.mem (line * 64) d,
                                   code.repairing := tdel s.code.repairing line }
  if (slabOf s (line / 256)).st.resident then campAsk s true .demand 0 0 line else s

/-- The line's bytes and poison mark in its slab's valley page. -/
def pageLine (s : State) (line : Nat) : Option (Bytes × Bool) :=
  ((slabOf s (line / 256)).vloc.bind (tget s.val.pages)).map fun p =>
    (memRead p.data (line % 256 * 64) 64, p.poison.contains (line % 256))

/-- The valley page answers for a line: good, poisoned there, or not readable (then the valley's own sources). Where a
write has made the slab DIRTY since, the page's answer still stands (Table 8-13). -/
def repairFromPage (s : State) (line : Nat) (data : Option Bytes) : State :=
  match data, pageLine s line with
  | some _, some (_, true) => poisonLine { s with code.repairing := tdel s.code.repairing line } line
  | some _, some (d, false) => lineGood s line d
  | some d, none => lineGood s line (bfit d 64)
  | none, _ => lostInValley s line

/-- The end of a line's repair (LINE_REPAIR_DONE). A repair that is no longer running changes nothing: a write of the
whole line ended it (Table 8-13). -/
def repairDone (s : State) (line : Nat) (data : Option Bytes) : State :=
  match tget s.code.repairing line with
  | none => s
  | some 2 => repairFromPage s line data
  | some _ => match data with
    | some d => lineGood s line (bfit d 64)
    | none => poisonLine { s with code.repairing := tdel s.code.repairing line } line

/-! ## Rows retired (R191) -/

/-- Frames of camp that hold lines of the row of a CPA: 16 with x4 devices (Table 6-2), 8 with x8 (R166); with the reduced
map the groups of the row are spread (R167). -/
def rowFrames (s : State) (cpa : Nat) : List Nat :=
  let d := if campX8 s then 1 else 0
  let live := s.camp.liveMap.length
  if live = 16 then (List.range (2 ^ (4 - d))).map fun i => cpa / 2 ^ (18 - d) * 2 ^ (4 - d) + i
  else
    let g := cpa / 256
    ((List.range (2 ^ (6 - d))).map fun j => ((g / max 1 live / 2 ^ (6 - d) * 2 ^ (6 - d) + j) * live + g % max 1 live) * 256 / 16384).eraseDups

/-- A number for a row: bank (of RFG_TOKEN) and row. -/
def rowKey (d : Dram) : Nat := d.row * 16384 + d.bank

/-- A slab leaves a retired frame: CLEAN ones are evicted; a promotion begins again in another frame, or waits for one; every
other one is moved to another frame of its partition by a class 1 job. -/
def leaveFrame (s : State) (n : Nat) : State :=
  match (slabOf s n).st with
  | .clean => evictSlab s n
  | .promoting =>
    if frameFree s n then setSlab (useFree s) n { slabOf s n with frame := pickFrame s n, filled := 0, unit := none }
    else abandonPromotion s n
  | _ => addJob s 1 (.move n)

/-- Retired frames by the channel of their rows, for RETIRED_FRAMES. -/
def retiredOn (s : State) (c : Nat) : Nat := s.camp.retired.countP fun x => x.2.any fun k => k % 16384 / 1024 == c

/-- A row is classed as lasting: its frames leave use and it joins the pending-repair list; 65,536 frames at most. A frame of two
such rows is recorded under both (R192). -/
def rowRetire (s : State) (cpa : Nat) : State :=
  let loc := campLoc s cpa
  let key := rowKey loc
  if s.camp.pendingRows.contains key || s.camp.permanent.contains key then s
  else
    let fs := ((rowFrames s cpa).filter fun f => decide (poolBase s ≤ f)).map (· - poolBase s)
    let new := fs.filter fun f => ! thas s.camp.retired f
    if s.camp.retired.length + new.length > 65536 then
      logEv { s with camp.lastingRows := s.camp.lastingRows + 1 } (srcCamp loc.ch) .rowLimit loc.rank [loc.bank, loc.row]
    else
      let holders := (s.range.slabs.filter fun x => (x.2.st.resident || x.2.st == .promoting) &&
        new.contains (x.2.frame * 256 + x.1 % 256)).map (·.1)
      let s := { s with camp.retired := fs.foldl (fun t f => tset t f (((tget t f).getD []) ++ [key])) s.camp.retired,
                        camp.pendingRows := s.camp.pendingRows ++ [key],
                        cairn.pendingRows := tset s.cairn.pendingRows key (rowFrames s cpa) }
      let s := setF s (Reg.campChStatusRetiredFrames loc.ch) (min 65535 (retiredOn s loc.ch))
      let s := logEv s (srcCamp loc.ch) .rowRetired loc.rank [loc.bank, loc.row]
      holders.foldl leaveFrame s

/-! ## Fault counting windows (R244, Table 8-11) -/

/-- A rank of a subchannel. -/
def rankKey (d : Dram) : Nat := (d.ch * 2 + d.sub) * 16 + d.rank

/-- Whether a count at time `t` lies in a window of `n` buckets of `b` ticks that ends now. -/
def inWin (s : State) (n b t : Nat) : Bool := decide (s.timebase / b < t / b + n)
def in24h (s : State) (t : Nat) : Bool := inWin s 24 (sec 3600) t
def in1h (s : State) (t : Nat) : Bool := inWin s 12 (sec 300) t

/-- Corrected symbols by nibble. -/
def nibbleCounts (errs : List (Nat × Nat)) : List (Nat × Nat) :=
  ((errs.map fun e => e.1 / 8).eraseDups).map fun n => (n, errs.countP fun e => e.1 / 8 == n)

/-- The serial number of the DIMM of a rank (R234). -/
def dimmSerial (s : State) (ch rank : Nat) : Nat :=
  match tget s.camp.ch ch with
  | some c => (c.dimmOf rank).serial
  | none => 0

/-- A device is classed as lasting (R234, R245): marked on a rank that has none, on an x4 camp; else recorded. -/
def deviceLasting (s : State) (d : Dram) (nib : Nat) : State :=
  if campX8 s then s
  else match tget s.code.marked (rankKey d) with
    | some (m, _) => if m = nib then s else logEv s (srcCamp d.ch) .deviceSecond d.rank [d.sub, nib] true
    | none => logEv { s with code.marked := tset s.code.marked (rankKey d) (nib, dimmSerial s d.ch d.rank) }
        (srcCamp d.ch) .deviceMarked d.rank [d.sub, nib] true

/-- Write centring of a rank begins (R186). -/
def centreRank (s : State) (k : Nat) : State :=
  if thas s.camp.centring k then s else { s with camp.centring := tset s.camp.centring k s.timebase }

/-- The word row of Table 8-11: second correction, within 24 h, of a word that had been made clean. -/
def countWord (s : State) (cpa : Nat) : State × Bool :=
  if s.code.win.stale.contains cpa then (s, false)
  else
    let l := ((tget s.code.win.word cpa).getD []).filter (in24h s) ++ [s.timebase]
    ({ s with code.win := { s.code.win with word := tset s.code.win.word cpa l, stale := s.code.win.stale ++ [cpa] } }, decide (2 ≤ l.length))

/-- Counts of the row line: distinct code words of one row and nibble within 24 h, the uncorrectable ones (place 15) with
those of every nibble. -/
def rowCount (s : State) (d : Dram) (nib : Nat) : Nat :=
  let of (k : Nat) : List Nat := (((tget s.code.win.row (rowKey d * 16 + k)).getD []).filter fun x => in24h s x.2).map (·.1)
  ((of nib ++ of 15).eraseDups).length

/-- A code word joins the row line of a nibble. -/
def countRow (s : State) (d : Dram) (cpa nib : Nat) : State × Bool :=
  let k := rowKey d * 16 + nib
  let l := ((tget s.code.win.row k).getD []).filter fun x => in24h s x.2 && x.1 != cpa
  let s := { s with code.win := { s.code.win with row := tset s.code.win.row k (l ++ [(cpa, s.timebase)]) } }
  (s, decide (getF s Reg.campCodeCfgRowThresh ≤ rowCount s d nib))

/-- An uncorrectable word: counted for its row, which is lasting at the threshold or when the word was repaired within the
window before. -/
def countUncorr (s : State) (cpa : Nat) : State :=
  let d := campLoc s cpa
  let again := ((tget s.code.win.row (rowKey d * 16 + 15)).getD []).any fun x => x.1 == cpa && in24h s x.2
  let r := countRow s d cpa 15
  let full := (List.range 10).any fun n => decide (getF s Reg.campCodeCfgRowThresh ≤ rowCount r.1 d n)
  if again || full then rowRetire r.1 cpa else r.1

/-- The device line: corrected symbols of a nibble at distinct code words in at least 2 rows within 24 h. -/
def countDev (s : State) (d : Dram) (cpa nib n : Nat) : State × Bool :=
  let k := rankKey d * 16 + nib
  let l := ((tget s.code.win.dev k).getD []).filter fun x => in24h s x.2.2.2 && x.2.1 != cpa
  let l := l ++ [(rowKey d, cpa, n, s.timebase)]
  ({ s with code.win := { s.code.win with dev := tset s.code.win.dev k l } },
   decide (getF s Reg.campCodeCfgDevThresh ≤ (l.map (·.2.2.1)).sum ∧ 2 ≤ ((l.map (·.1)).eraseDups).length))

/-- The rank line: 3 nibbles with at least 4 corrected symbols each within 1 h. -/
def countRank (s : State) (d : Dram) (nib n : Nat) : State × Bool :=
  let k := rankKey d
  let l := ((tget s.code.win.rank k).getD []).filter (fun x => in1h s x.2.2) ++ [(nib, n, s.timebase)]
  let good := ((l.map (·.1)).eraseDups).filter fun m => decide (4 ≤ ((l.filter (·.1 == m)).map (·.2.1)).sum)
  ({ s with code.win := { s.code.win with rank := tset s.code.win.rank k l } }, decide (3 ≤ good.length))

/-- A correction is counted, and the first line of Table 8-11 that it meets decides. Gives the state and, where the rank
line is met again within the hour after its centring, the channel that must be re-initialised. -/
def countCorrection (s : State) (cpa : Nat) (errs : List (Nat × Nat)) : State × Option Nat :=
  let d := campLoc s cpa
  let nibs := nibbleCounts errs
  let w := countWord s cpa
  let r := nibs.foldl (fun (p : State × Bool) x => let q := countRow p.1 d cpa x.1; (q.1, p.2 || q.2)) (w.1, false)
  let v := nibs.foldl (fun (p : State × List Nat) x =>
    let q := countDev p.1 d cpa x.1 x.2; (q.1, if q.2 then p.2 ++ [x.1] else p.2)) (r.1, [])
  let k := nibs.foldl (fun (p : State × Bool) x => let q := countRank p.1 d x.1 x.2; (q.1, p.2 || q.2)) (v.1, false)
  let s := k.1
  if w.2 || r.2 then (rowRetire s cpa, none)
  else match v.2 with
    | nib :: _ => (deviceLasting s d nib, none)
    | [] =>
      if k.2 then
        let key := rankKey d
        match tget s.code.win.rankAt key with
        | some t =>
          if s.timebase < t + sec 3600 then (s, if t = s.timebase then none else some d.ch)
          else (centreRank { s with code.win := { s.code.win with rankAt := tset s.code.win.rankAt key s.timebase } } key, none)
        | none => (centreRank { s with code.win := { s.code.win with rankAt := tset s.code.win.rankAt key s.timebase } } key, none)
      else (s, none)

/-- A write or a scrub write-back makes a code word clean. -/
def wordClean (s : State) (cpa : Nat) : State :=
  { s with code.win := { s.code.win with stale := s.code.win.stale.filter (· != cpa) } }

/-! ## A camp channel is lost (R189, R190) -/

/-- Lines of a resident slab that lie on a channel. -/
def slabLinesOn (s : State) (c n : Nat) : List Nat :=
  ((span (n * 256) (n * 256 + 256)).filter fun l => ! zeroLine s l && lineCh s l == c)

/-- Lost lines of a DIRTY slab: of a roped one they come back with the Second's catch-up of its 1 MiB group, others are poisoned
(R189, R331). -/
def lostLines (s : State) (n : Nat) (ls : List Nat) : State :=
  if lineFetchOk s n then { s with
    code.repairing := ls.foldl (fun t l => tset t l 5) s.code.repairing,
    rope.recopy := if s.rope.recopy.contains (n / 64) then s.rope.recopy else s.rope.recopy ++ [n / 64] }
  else ls.foldl poisonLine s

/-- The Second is asked for the slabs of the groups. DESIGN CHOICE (log entry 128): by a CONTROL frame with the groups, as a saved
bitmap names them. -/
def askRecopy (s : State) : State :=
  if s.rope.recopy.isEmpty then s
  else ropeSend { s with rope.recopy := [] } true (.control (.savedMap (some s.rope.recopy)))

/-- A translation group in the reserve is lost (Table 8-10): CLEAN slabs become VALLEY, the lines of roped DIRTY ones are recopied
from the Second and those of others poisoned; the frames they held are not used again until camp is next not trusted. -/
def groupLost (s : State) (g : Nat) : State :=
  let mine := s.range.slabs.filter fun x => x.1 / 8 == g && (x.2.st.resident || x.2.st == .promoting)
  let frames := mine.map fun x => x.2.frame * 256 + x.1 % 256
  let s := { s with code.lostFrames := s.code.lostFrames ++ frames, range.tcache := s.range.tcache.filter (· != g) }
  let s := if mine.isEmpty then s else logEv s srcRange .frameLost noUnit [g, s.code.lostFrames.length]
  askRecopy <| mine.foldl (fun s x =>
    let n := x.1
    match x.2.st with
    | .clean => evictSlab s n
    | .promoting => setSlab (useFree s) n { x.2 with frame := pickFrame s n, filled := 0, unit := none }
    | _ =>
      let s := dropJobs s (· == .destage n)
      let s := { s with range.sideQ := s.range.sideQ.filter (· != n) }
      let s := setSlab (useFree s) n { x.2 with st := .dirty, mask := 0, frame := pickFrame s n, target := none, wrote := false }
      lostLines s n (span (n * 256) (n * 256 + 256))) s

/-- Every line on a channel is lost: CLEAN slabs are evicted, roped DIRTY ones recopied from the Second, other DIRTY ones
written poisoned; promotions begin again. -/
def channelLost (s : State) (c : Nat) : State :=
  askRecopy <| s.range.slabs.foldl (fun s x =>
    let n := x.1
    match x.2.st with
    | .clean => evictSlab s n
    | .promoting => setSlab s n { x.2 with filled := 0, unit := none }
    | .partial_ | .dirty | .destaging =>
      let s := match x.2.st with
        | .destaging => setSlab (dropJobs s (· == .destage n)) n { x.2 with st := .dirty, target := none, wrote := false }
        | _ => s
      lostLines s n (slabLinesOn s c n)
    | _ => s) s

end Sys2Proof.Machine
end

