-- ==== Sys2Proof/Machine/Mirror.lean ====
section
/-! DEFINITION. What the commands that change mirrored state do (R312, R400), each as one function of its numbers: the
Lead runs it when it executes the command, the Second when it applies the record (Table 11-7). -/

namespace Sys2Proof.Machine

/-! ## Cairn configuration (R226, Table 7-10) -/

/-- A configuration copy with a change is written and stands: the other copy, its sequence one higher (R226). The sector of
its header and commit row, the first of its 252, is erased (R507, log entry 23); where that sector takes no program any more the
copy is not valid, and the one in force stays (R225, R226). -/
def cfgWrite (s : State) (f : CfgCopy → CfgCopy) : State :=
  let old := if s.cairn.inForce = 0 then s.cairn.cfg0 else s.cairn.cfg1
  let base : CfgCopy := old.getD { seq := 0, committed := true, regs := [], ids := [], opKey := none, custKey := none,
                                   roots := [], route := [], bootPref := s.cairn.bootPref }
  let c := { f base with seq := base.seq + 1, committed := true }
  let k := if s.cairn.inForce = 0 then 1 else 0
  let w := sectorsWritten s (cfgSector k) 1
  let c := { c with committed := w.2 }
  let s := if k = 1 then { w.1 with cairn.cfg1 := some c } else { w.1 with cairn.cfg0 := some c }
  if w.2 then { s with cairn.inForce := k } else s

/-! ## Regions and access groups (4) -/

/-- The descriptor that REGION_REGISTER's parameters give (Table 4-1, bytes 4 to 27). -/
def regionOfBytes (key : Nat) (b : Bytes) : Region :=
  { key := key, base := le b 0 6, len := le b 6 6, obj := le b 12 3 % 2 ^ 22, rights := le b 15 1, group := le b 16 2 % 4096,
    owner := le b 18 2 % 4096, ownConn := le b 20 3, deadline := le b 23 1 }

def addRegion (s : State) (key : Nat) (b : Bytes) : State :=
  { s with tables.regions := tset s.tables.regions (keyIdx key) (regionOfBytes key b),
           tables.regionGen := tset s.tables.regionGen (keyIdx key) (keyGen key) }

/-- ACCESS_GROUP_SET: the first setter becomes the owner (Table 14-6). -/
def setGroup (s : State) (grp who : Nat) (members : List Nat) : State :=
  let owner := ((tget s.tables.groups grp).map (·.owner)).getD who
  { s with tables.groups := tset s.tables.groups grp { owner := owner, members := members } }

/-! ## Landing buffers and connections -/

def addLanding (s : State) (ci key len : Nat) : State :=
  showLandings { s with ops.landings := tset s.ops.landings (landingKey ci key) len }

def removeLanding (s : State) (ci key : Nat) : State :=
  showLandings { s with ops.landings := tdel s.ops.landings (landingKey ci key) }

/-- A connection that the Lead opened, as the Second holds it: its paths to this twin are still to be opened (R306). -/
def addConn (s : State) (num ident slot saltIn saltOut : Nat) (b : Bytes) : State :=
  let ci := connIdx num
  let hostNum := beNat (bsub b 3 3)
  let nonce := bsub b 16 8
  let win := beNat (bsub b 12 4)
  let c : Conn :=
    { gen := num / 16384, ident := ident, hostNum := hostNum, unit := if le b 6 1 = 1 then 8192 else 4096, checks := le b 7 1,
      prio := 0, dscp := 0, nonce := nonce, saltIn := beBytes 4 saltIn, saltOut := beBytes 4 saltOut, winPk := win / 2 ^ 23,
      winBy := win % 2 ^ 21, order := s.timebase * 65536 + s.conns.length, slot := if slot < 4096 then some slot else none,
      paths := [] }
  let s := match (if slot < 4096 then (tget s.ids ident).bind (·.sessRoot) else none) with
    | some root =>
      let label := beBytes 2 ident ++ beBytes 3 hostNum ++ beBytes 3 num ++ nonce.take 4 ++ [0x02#8, 0, 0, 0]
      let auto := isSet s Reg.keyCfgAutoRoll
      showSlots (setSlot s slot { title := false, root := root, label := label, limit := getF s Reg.keyCfgLimitLog2,
                                  auto := auto, genMax := if auto then 65535 else 0,
                                  rootKey := (rootKeyOf s root).getD [], keyLost := (rootKeyOf s root).isNone })
    | none => s
  showConns { setConn s ci c with connGen := tset s.connGen ci (num / 16384) }

/-! ## Chain queues and trigger tags -/

def addQueue (s : State) (q owner oconn : Nat) (rep : Bool) (depth report : Nat) : State :=
  setQueue s q { owner := owner, oconn := oconn, repeatMode := rep, depth := depth, report := report }

/-- Work requests joined to the ring at its tail, in order (R109). -/
def postWrs (s : State) (q : Nat) (wrs : List Bytes) : State :=
  modQueue s q fun x => wrs.foldl (fun x w => { x with
    ring := tset x.ring ((x.head + x.used) % x.depth) w, used := x.used + 1 }) x

/-- CHAIN_RESET (R109, R114): IDLE again; in CONSUME mode the head stands after the failed chain's END, in REPEAT mode at
the chain's first work request. A REPEAT queue that is not in ERROR is emptied. -/
def resetQueue (s : State) (q : Nat) : State :=
  modQueue s q fun x =>
    if x.st == .error then
      if x.repeatMode then { x with st := .idle, run := none }
      else match x.endSlot with
        | some e =>
          let gone := x.between x.head e
          { x with st := .idle, run := none, head := (e + 1) % x.depth, used := x.used - gone.length, ring := gone.foldl tdel x.ring }
        | none => { x with st := .idle, run := none }
    else if x.repeatMode then { x with ring := [], used := 0 } else x

/-- A queue is deleted, and its tags are unbound (Table 14-6). -/
def deleteQueue (s : State) (q : Nat) : State :=
  { s with tables.queues := tdel s.tables.queues q, tables.tags := s.tables.tags.filter fun x => x.2.queue != q }

def bindTag (s : State) (tag q grp : Nat) : State :=
  { s with tables.tags := tset s.tables.tags tag { queue := q, group := grp } }

def unbindTag (s : State) (tag : Nat) : State := { s with tables.tags := tdel s.tables.tags tag }

/-! ## Objects (R129 to R135) -/

def objOf (s : State) (n : Nat) : Option Obj := tget s.tables.objects n

def modObj (s : State) (n : Nat) (f : Obj → Obj) : State := { s with tables.objects := tmod s.tables.objects n f }

/-- The ways a pin-summit object needs (R262). -/
def waysNeeded (len : Nat) : Nat := cdiv len 6291456

/-- The lowest free run of `k` consecutive ways in ways 1 to L (R262). -/
def freeRun (s : State) (k : Nat) : Option Nat :=
  (span 1 (lockWays s + 1)).find? fun w =>
    decide (w + k ≤ lockWays s + 1) && ! (s.sum.runs.any fun r => decide (r.2.1 < w + k ∧ w < r.2.1 + r.2.2))

/-- Loads of a pinned object (R131, R157): its unbuilt segments are asked for, its VALLEY slabs are promoted at class 6, its
locked lines loaded. -/
def placementLoad (s : State) (n : Nat) : State :=
  match objOf s n with
  | none => s
  | some o =>
    if o.cls > 1 then s
    else
      let open_ := ((o.slabs.map segOf).eraseDups).filter fun g => ! segBuilt s g
      if ! open_.isEmpty then open_.foldl askSegment s
      else
        let s := o.slabs.foldl (fun s k => promote s 6 k (.load k)) s
        if o.cls = 0 then loadLockedExtent s o.base o.len else s

/-- An object enters a placement class: its run of ways and its loads. -/
def enterClass (s : State) (n : Nat) : State :=
  match objOf s n with
  | none => s
  | some o =>
    let s := if o.cls = 0 then
        (match freeRun s (waysNeeded o.len) with
         | some w => showLocked { s with sum.runs := tset s.sum.runs n (w, waysNeeded o.len) }
         | none => s)
      else s
    placementLoad s n

/-- OBJECT_CREATE's parameters (Table 14-7): length, class, mirror class, owner. -/
def addObject (s : State) (n base : Nat) (b : Bytes) : State :=
  let o : Obj := { base := base, len := le b 0 8, owner := le b 10 2 % 4096, cls := le b 8 1, mirror := le b 9 1 }
  enterClass { s with tables.objects := tset s.tables.objects n o, tables.objNext := (base / 16384 + o.slabCount) % 256 } n

/-- OBJECT_SET_PLACEMENT: an object that leaves the pin-summit class loses its locked lines and its run (R133, R263). -/
def placeObject (s : State) (n cls : Nat) : State :=
  match objOf s n with
  | none => s
  | some o =>
    let s := if o.cls = 0 ∧ cls ≠ 0 then
        (let s := sumInvalidate s o.base o.len; showLocked { s with sum.runs := tdel s.sum.runs n })
      else s
    let s := modObj s n fun o => { o with cls := cls }
    if o.cls = cls then s else enterClass s n

def trimObject (s : State) (n start len : Nat) : State :=
  match objOf s n with
  | none => s
  | some o => (slabsOf (o.base + start) len).foldl trimSlab s

/-- OBJECT_DELETE: every region DRAINING, the object DELETING, and its end when nothing holds it (R135). -/
def deleteObject (s : State) (n : Nat) : State :=
  let s := modObj s n fun o => { o with st := .deleting }
  let s := (s.tables.regions.filter (·.2.obj == n)).foldl (fun s x => drainRegion s x.1) s
  tryDelete s n

/-! ## Publishing (R134, R277, R287, R337) -/

/-- OBJECT_PUBLISH's parameters (Table 14-7). -/
def pubSeal (b : Bytes) : Bool := bit (le b 4 1) 0
def pubRoot (b : Bytes) : Nat := le b 5 1
def pubGen (b : Bytes) : Nat := le b 6 2
def pubTitle (b : Bytes) : Nat := le b 8 8
def pubVersion (b : Bytes) : Nat := le b 16 4
def pubLen (b : Bytes) : Nat := le b 24 8
def pubDigest (b : Bytes) : Bytes := bsub b 32 32

/-- The context label of a title slot (Table 10-2). -/
def titleLabel (b : Bytes) : Bytes :=
  beBytes 8 (pubTitle b) ++ beBytes 4 (pubVersion b) ++ [0x01#8, 0] ++ beBytes 2 (pubGen b)

/-- The title slot of a publish: one that carries the same root and label already, else a free one from slot 4,095
downward (R277, R313); none when all are taken. -/
def titleSlot (s : State) (b : Bytes) : Option Nat :=
  match s.key.slots.find? fun x => x.2.title && x.2.root == pubRoot b && x.2.label == titleLabel b with
  | some (n, _) => some n
  | none => ((List.range (s.key.slots.length + 1)).map fun i => 4095 - i).find? fun n => ! thas s.key.slots n

/-- A title slot takes one more user, bound first if it is free. -/
def useTitle (s : State) (n : Nat) (b : Bytes) : State :=
  match tget s.key.slots n with
  | some k => { s with key.slots := tset s.key.slots n { k with users := k.users + 1 } }
  | none =>
    let k : KeySlot := { title := true, root := pubRoot b, label := titleLabel b, limit := getF s Reg.keyCfgLimitLog2,
                         auto := false, genMax := pubGen b, rootKey := (rootKeyOf s (pubRoot b)).getD [],
                         keyLost := (rootKeyOf s (pubRoot b)).isNone }
    showSlots { s with key.slots := tset s.key.slots n k }

/-- Seal units decrypted under a title slot (Table 10-3). -/
def countUnits (s : State) (n c : Nat) : State :=
  { s with key.slots := tmod s.key.slots n fun k => { k with decrypts := k.decrypts + c } }

/-- The sealing facts that a publish gives an object. -/
def sealInfo (b : Bytes) (slot : Option Nat) : SealInfo :=
  { root := pubRoot b, titleGen := pubGen b, titleId := pubTitle b, version := pubVersion b, dataLen := pubLen b, slot := slot }

/-- Every poisoned line of an object, from its base. -/
def objPoison (s : State) (o : Obj) : List Nat := (linesOf o.base o.len).filter (lineBad s)

/-- The first seal unit whose title tag fails (R287). -/
def firstBadUnit (s : State) (o : Obj) (si : SealInfo) : Option Nat :=
  (List.range (cdiv si.dataLen 4096)).find? fun u => (unitPlain s o si u).isNone

/-- The object check (R130, R299). -/
def objCheck (s : State) (o : Obj) : Nat := crc64 (rangeRead s o.base o.len)

/-- The object stands PUBLISHED with its digest and check (R134, steps 4 and 5). -/
def publishDone (s : State) (n check : Nat) (b : Bytes) (slot : Option Nat) : State :=
  let s := modObj s n fun o => { o with
    st := .published, mirror := mirPublished, digest := pubDigest b, check := check,
    sealed_ := if pubSeal b then some (sealInfo b slot) else none }
  match objOf s n with
  | some o => o.slabs.foldl journal s
  | none => s

/-- A publish is given up: OPEN again, and no slot is kept. -/
def publishStop (s : State) (n : Nat) (slot : Option Nat) : State :=
  let s := modObj s n fun o => { o with st := .opened, pub := [] }
  match slot with
  | some k => dropTitleUser s k
  | none => s

/-- The Second's own part of a publish, on its copy, once it holds the object's bytes (R337): tags verified with sealing,
the check computed, the object PUBLISHED; gives the check, none where a tag fails or a line is poisoned. -/
def publishOwn (s : State) (n : Nat) : State × Option Nat :=
  match objOf s n with
  | none => (s, none)
  | some o =>
    let b := o.pub
    if ! (objPoison s o).isEmpty then (publishStop s n none, none)
    else if pubSeal b then
      match titleSlot s b with
      | none => (publishStop s n none, none)
      | some k =>
        let s1 := countUnits (useTitle s k b) k (cdiv (pubLen b) 4096)
        match firstBadUnit s1 o (sealInfo b (some k)) with
        | some _ => (publishStop s1 n (some k), none)
        | none => (publishDone s1 n (objCheck s o) b (some k), some (objCheck s o))
    else (publishDone s n (objCheck s o) b none, some (objCheck s o))

/-! ## Topos (R151 to R153) -/

/-- TOPO_CREATE's header (Table 5-9). -/
def addTopo (s : State) (b : Bytes) : State :=
  let t : Topo := { owner := le b 6 2 % 4096, look := le b 2 1, trail := le b 3 1, cmdOnly := bit (le b 4 1) 0,
                    loop := bit (le b 4 1) 1, count := le b 8 2 }
  { s with tables.topos := tset s.tables.topos (le b 0 2) t }

/-- Extent `i` of a step (Table 5-10): object, start, length. -/
def stepExtent (b : Bytes) (i : Nat) : Nat × Nat × Nat :=
  (le b (16 + 16 * i) 3 % 2 ^ 22, le b (16 + 16 * i + 4) 6, le b (16 + 16 * i + 10) 6)

def addStep (s : State) (t : Nat) (b : Bytes) : State :=
  { s with tables.topos := tmod s.tables.topos t fun x => { x with
      steps := tset x.steps (le b 0 2) ((List.range (le b 2 2)).map (stepExtent b)) } }

/-- TOPO_COMMIT: marker 0, 0xFF fields resolved (R160), and the window prefetched (R154). -/
def commitTopo (s : State) (t : Nat) : State :=
  prefetch { s with tables.topos := tmod s.tables.topos t fun x => { x with
    committed := true, marker := 0, logged := 0, look := x.lookN s, trail := x.trailN s } } t

def deleteTopo (s : State) (t : Nat) : State :=
  cancelOut { s with tables.topos := tdel s.tables.topos t }

/-! ## Identities (Table 14-8) -/

/-- The record that IDENTITY_SET's parameters give. -/
def identOfBytes (b : Bytes) : Ident :=
  { mgmtNet := bit (le b 2 1) 0, sessRoot := if bit (le b 2 1) 1 then some (le b 3 1 % 16) else none, quota := le b 4 2,
    connectKey := bsub b 8 32, cmdKey := if isZero b 40 32 then none else some (bsub b 40 32) }

/-- The parameters that give an identity's record. -/
def identBytes (n : Nat) (i : Ident) : Bytes :=
  leBytes 2 n ++ [byte (i.mgmtNet.toNat + 2 * i.sessRoot.isSome.toNat), byte (i.sessRoot.getD 0)] ++ leBytes 2 i.quota ++
  zeros 2 ++ i.connectKey ++ i.cmdKey.getD (zeros 32)

def setIdent (s : State) (b : Bytes) : State :=
  let n := le b 0 2 % 4096
  let s := { s with ids := tset s.ids n (identOfBytes b) }
  cfgWrite s fun c => { c with ids := tset c.ids n (identOfBytes b) }

/-- IDENTITY_REMOVE: connections closed with reason 0x03, its regions DRAINING, its fence removed. -/
def removeIdent (s : State) (n : Nat) : State :=
  let s := { s with ids := tdel s.ids n, cmd.fencedIds := s.cmd.fencedIds.filter (· != n) }
  let s := cfgWrite s fun c => { c with ids := tdel c.ids n }
  let s := (s.conns.filter (·.2.ident == n)).foldl (fun s x => closeConn s x.1 3) s
  (s.tables.regions.filter fun x => x.2.owner == n && ! x.2.draining).foldl (fun s x => drainRegion s x.1) s

/-! ## Key slots and check-value contexts -/

/-- KEY_SLOT_STEP: GEN_MAX one higher; an EXHAUSTED slot is BOUND again (R285). -/
def stepSlot (s : State) (n : Nat) : State :=
  match tget s.key.slots n with
  | some k => setSlot s n { k with genMax := k.genMax + 1 }
  | none => s

/-- Parameters of a check-value context as numbers: width, polynomial, initial value, reflections, final XOR, preset. -/
def ctxParams (p : CrcPar) : Option (Nat × Nat × Nat × Bool × Bool × Nat × Nat) :=
  match p with
  | .preset n => (crcPreset n).map fun x => (x.1, x.2.1, x.2.2.1, x.2.2.2.1, x.2.2.2.2.1, x.2.2.2.2.2, n)
  | .explicit w poly init xo ri ro => if 8 ≤ w ∧ w ≤ 64 then some (w, poly.toNat, init.toNat, ri, ro, xo.toNat, 0) else none

/-! ## Applying a COMMAND record (Table 11-7) -/

/-- Cuts bytes into work requests of 64 bytes. -/
def cutWrs (b : Bytes) : List Bytes := (List.range (b.length / 64)).map fun i => bsub b (64 * i) 64

/-- The Second applies a mirrored command: the same function, with the numbers the Lead assigned (R311). Object publishing
has phases (R337): 0 the Lead has begun, 1 it is complete, 2 given up, 3 the object stood published at the join. -/
def applyCommand (s : State) (op who : Nat) (l : List Nat) (b : Bytes) : State :=
  match op with
  | 0 => addConn s (numAt l 0) who (numAt l 1) (numAt l 2) (numAt l 3) b
  | 1 => modQueue s (numAt l 0) fun x => { x with pend := x.pend ++ [⟨numAt l 1, numAt l 2, b⟩] }
  | 2 => modQueue s (numAt l 0) fun x => { x with
      head := numAt l 1, failures := numAt l 2, runs := numAt l 3, logged := numAt l 1, st := if numAt l 4 = 0 then .idle else .error }
  | 0x0103 => setIdent s b
  | 0x0104 => removeIdent s (numAt l 0)
  | 0x0201 => addRegion s (numAt l 0) b
  | 0x0203 => drainRegion s (keyIdx (numAt l 0))
  | 0x0204 => setGroup s (numAt l 0) who (l.drop 1)
  | 0x0206 => addLanding s (connIdx (numAt l 0)) (numAt l 1) (numAt l 2)
  | 0x0207 => removeLanding s (connIdx (numAt l 0)) (numAt l 1)
  | 0x0209 => modConn s (connIdx (numAt l 0)) fun c => { c with st := .closing (s.timebase + ms 10) }
  | 0x020A => addQueue s (numAt l 0) (numAt l 1) (numAt l 2) (numAt l 3 != 0) (numAt l 4) (numAt l 5)
  | 0x020B => postWrs s (numAt l 0) (cutWrs b)
  | 0x020C => resetQueue s (numAt l 0)
  | 0x020D => deleteQueue s (numAt l 0)
  | 0x020F => bindTag s (numAt l 0) (numAt l 1) (numAt l 2)
  | 0x0210 => unbindTag s (numAt l 0)
  | 0x0301 => addObject s (numAt l 0) (numAt l 1) b
  | 0x0303 => placeObject s (numAt l 0) (numAt l 1)
  | 0x0305 => trimObject s (numAt l 0) (numAt l 1) (numAt l 2)
  | 0x0306 => deleteObject s (numAt l 0)
  | 0x0307 =>
    let n := numAt l 0
    if numAt l 1 = 0 then modObj s n fun o => { o with st := .publishing, pub := b }
    else if numAt l 1 = 2 then publishStop s n (((objOf s n).bind (·.sealed_)).bind (·.slot))
    else if numAt l 1 = 3 then modObj s n fun o => { o with st := .publishing, mirror := mirPublished, pub := b, digest := pubDigest b }
    else s
  | 0x0308 => addTopo s b
  | 0x0309 => addStep s (numAt l 0) b
  | 0x030A => commitTopo s (numAt l 0)
  | 0x030B => deleteTopo s (numAt l 0)
  | 0x030C => setMarker s (numAt l 0) (numAt l 1)
  | 0x0405 => stepSlot s (numAt l 0)
  | 0x0409 => setCtxNums s (numAt l 0) (l.drop 1)
  | _ => s

/-- The reply that a mirrored command's record stands for (R399): the payload that Tables 14-6 and 14-7 give. -/
def mirrorReply (op : Nat) (l : List Nat) : Bytes :=
  match op with
  | 0x0201 => leBytes 4 (numAt l 0)
  | 0x0301 => leBytes 4 (numAt l 0) ++ leBytes 6 (numAt l 1)
  | 0x0307 => leBytes 8 (numAt l 2)
  | _ => []

/-! ## The state transfer (R330) -/

/-- A mirrored command as the state transfer carries it. -/
def snapCmd (op who : Nat) (l : List Nat) (b : Bytes) : OrderBody := .command op 0 who l b

/-- OBJECT_CREATE's parameters of an object. -/
def objBytes (o : Obj) : Bytes :=
  leBytes 8 o.len ++ [byte o.cls, byte (if o.mirror = mirPublished then mirUnroped else o.mirror)] ++ leBytes 2 o.owner ++ zeros 4

/-- OBJECT_PUBLISH's parameters of a published object. -/
def pubBytes (n : Nat) (o : Obj) : Bytes :=
  match o.sealed_ with
  | some si => leBytes 4 n ++ [1#8, byte si.root] ++ leBytes 2 si.titleGen ++ leBytes 8 si.titleId ++ leBytes 4 si.version ++
      zeros 4 ++ leBytes 8 si.dataLen ++ o.digest
  | none => leBytes 4 n ++ zeros 28 ++ o.digest

/-- REGION_REGISTER's parameters of a region. -/
def regionBytes (r : Region) : Bytes :=
  leBytes 6 r.base ++ leBytes 6 r.len ++ leBytes 3 r.obj ++ [byte r.rights] ++ leBytes 2 r.group ++ leBytes 2 r.owner ++
  leBytes 3 r.ownConn ++ [byte r.deadline]

/-- A topo's header and one of its steps as parameters. -/
def topoBytes (n : Nat) (t : Topo) : Bytes :=
  leBytes 2 n ++ [byte t.look, byte t.trail, byte (t.cmdOnly.toNat + 2 * t.loop.toNat), 0] ++ leBytes 2 t.owner ++
  leBytes 2 t.count ++ zeros 6
def stepBytes (k : Nat) (l : List (Nat × Nat × Nat)) : Bytes :=
  leBytes 2 k ++ leBytes 2 l.length ++ zeros 12 ++
  (l.map fun e => leBytes 3 e.1 ++ [0#8] ++ leBytes 6 e.2.1 ++ leBytes 6 e.2.2).flatten

/-- The mirrored tables as the records that build them. -/
def snapshot (s : State) : List OrderBody :=
  let t := s.tables
  (s.ids.map fun x => snapCmd 0x0103 mgmtPrincipal [x.1] (identBytes x.1 x.2)) ++
  (t.groups.map fun x => snapCmd 0x0204 x.2.owner (x.1 :: x.2.members) []) ++
  ((s.conns.filter (·.2.st.live)).map fun x => snapCmd 0 x.2.ident
    [connNum x.1 x.2, x.2.slot.getD 4096, beNat x.2.saltIn, beNat x.2.saltOut] (((x.2.path 0).map (·.ctlIn)).getD [])) ++
  ((s.conns.filter (·.2.st.live)).map fun x => .ivReserve (connNum x.1 x.2) (max x.2.invoc (ivLimit s x.1))) ++
  (t.objects.map fun x => snapCmd 0x0301 x.2.owner [x.1, x.2.base] (objBytes x.2)) ++
  ((t.objects.filter (·.2.st == .published)).map fun x => snapCmd 0x0307 x.2.owner [x.1, 3, x.2.check] (pubBytes x.1 x.2)) ++
  ((t.regions.filter (! ·.2.draining)).map fun x => snapCmd 0x0201 x.2.owner [x.2.key] (regionBytes x.2)) ++
  (s.ops.landings.map fun x => snapCmd 0x0206 mgmtPrincipal [x.1 / 2 ^ 32, x.1 % 2 ^ 32, x.2] []) ++
  (t.queues.map fun x => snapCmd 0x020A x.2.owner [x.1, x.2.owner, x.2.oconn, x.2.repeatMode.toNat, x.2.depth, x.2.report] []) ++
  (t.queues.map fun x => snapCmd 2 x.2.owner
    [x.1, x.2.head, x.2.failures, x.2.runs, if x.2.st == .error then 1 else 0] []) ++
  (t.queues.map fun x => snapCmd 0x020B x.2.owner [x.1] ((x.2.slots.map x.2.wr).flatten)) ++
  (t.queues.flatMap fun x => ((x.2.run.map (·.trig)).toList ++ x.2.pend).map fun g =>
    snapCmd 1 x.2.owner [x.1, g.conn, g.msn] g.arg) ++
  ((t.queues.filter fun x => x.2.run.isSome && x.2.st == .running).map fun x => .chain x.1 2 0 0) ++
  (t.tags.map fun x => snapCmd 0x020F mgmtPrincipal [x.1, x.2.queue, x.2.group] []) ++
  (t.topos.map fun x => snapCmd 0x0308 x.2.owner [x.1] (topoBytes x.1 x.2)) ++
  (t.topos.flatMap fun x => x.2.steps.map fun k => snapCmd 0x0309 x.2.owner [x.1] (stepBytes k.1 k.2)) ++
  ((t.topos.filter (·.2.committed)).flatMap fun x => [snapCmd 0x030A x.2.owner [x.1] [], .topo x.1 x.2.marker]) ++
  ((span 16 1024).filterMap fun n => (tget s.key.ctx n).map fun c => snapCmd 0x0409 c.owner
    [n, c.width, c.poly, c.init, c.refin.toNat, c.refout.toNat, c.xorout, c.preset, c.owner, c.chained.toNat, 1, c.value] [])

end Sys2Proof.Machine
end

