-- ==== Sys2Proof/Machine/RopeOps.lean ====
section
/-! DEFINITION. The rope team's transitions (11): HELLO and the role decision, becoming Lead, joining and catch-up, loss and
return of the rope, handover, receiving a rope frame. -/

namespace Sys2Proof.Machine

/-! ## HELLO (R305) -/

def showEpoch (s : State) : State := setF s Reg.rlEpochEpoch s.cairn.epoch

/-- What HELLO carries. -/
def myHello (s : State) : Hello :=
  { twinId := s.pins.twinId, epoch := s.cairn.epoch, wasLead := s.cairn.role == roleLead, inSync := s.cairn.inSync,
    serving := serviceOpen s && ! isSecond s && ! silent s, clkLoss := isSet s Reg.fabTbStatusClkLoss,
    digest := Config.teamDigest (rangeGib s) (budgetGib s) (getF s Reg.hpTmtCfgUdpPort) (getF s Reg.hpTmtCfgJumbo) }

/-- HELLO on the rope link and through the belay wires. -/
def sendHello (s : State) : State := belaySend (ropeSendAll s true (.hello (myHello s))) belayHello 0

/-- Negotiation begins (stage 10), with NEGOTIATE_S to go; a part outside a team is single at once. -/
def negotiate (s : State) : State :=
  if isSet s Reg.rlCfgTeamEn then
    sendHello (setTeam { s with rope.helloAt := some (s.timebase + sec (getF s Reg.rlCfgNegotiateS)) } teamNegotiating)
  else setTeam (setRole s roleSingle) teamSingle

/-- Table 11-1 for two twins that are both free to take a role: whether this one leads. Where both or neither of them are
recorded as Lead at equal epochs the preferred Lead leads (log entry 48). -/
def thisLeads (s : State) (p : Hello) : Bool :=
  let own := myHello s
  let preferred := s.pins.twinId == getF s Reg.rlCfgPreferred
  if own.serving != p.serving then own.serving
  else if own.clkLoss != p.clkLoss then p.clkLoss
  else if own.epoch != p.epoch then decide (p.epoch < own.epoch)
  else if own.inSync && p.inSync then preferred
  else if own.wasLead != p.wasLead then own.wasLead
  else preferred

/-! ## Becoming Lead or single -/

/-- The in-sync flag of the cairn configuration. -/
def setSync (s : State) (b : Bool) : State := { s with cairn.inSync := b }

/-- A command that ordered a handover is answered: OK when the handover is complete, BUSY when it was given up. -/
def handoverEnd (s : State) (ok : Bool) : State :=
  match s.rope.handoverTicket with
  | none => s
  | some t =>
    let s := { s with rope.handoverTicket := none }
    if ok then answer s t scOk else answer s t scBusy 2

/-- Publishes that no command of this twin runs are given up: OPEN again (log entry 63). -/
def publishesLost (s : State) : State :=
  { s with tables.objects := s.tables.objects.map fun x =>
      (x.1, if x.2.st == .publishing && x.2.waiters.isEmpty then { x.2 with st := .opened, pub := [] } else x.2) }

/-- A publish that this twin runs is given up, as its commands are the Lead's. -/
def publishDrop (s : State) (n t : Nat) (slot : Option Nat) : State :=
  answer (publishStop (modObj s n fun o => { o with waiters := [] }) n slot) t scNotLead ((s.rope.peer.map (·.twinId)).getD 0xFF)

/-- A twin that becomes Second gives up the publishes that it runs. -/
def publishesEnd (s : State) : State :=
  let l := s.rope.pubs
  let s := l.foldl (fun s x => publishDrop s x.1 x.2.1 (match objOf s x.1 with
    | some o => if pubSeal o.pub then titleSlot s o.pub else none
    | none => none)) { s with rope.pubs := [] }
  (s.tables.objects.filter fun x => x.2.st == .publishing && ! x.2.waiters.isEmpty).foldl
    (fun s x => x.2.waiters.foldl (fun s t => publishDrop s x.1 t none) s) s

/-- Publishes that wait for the Second are complete without it. -/
def publishAlone (s : State) (x : Nat × Nat × Nat) : State :=
  match objOf s x.1 with
  | none => s
  | some o =>
    let own := objCheck s o
    let slot := if pubSeal o.pub then titleSlot s o.pub else none
    conclude (publishDone s x.1 own o.pub slot) x.2.1 true true scOk 0 (leBytes 8 own) [x.1, 1, own]

/-- The twin becomes Lead (R304): the epoch one higher than any known and recorded with the role, order indices from 1. -/
def becomeLead (s : State) : State :=
  let e := max s.cairn.epoch ((s.rope.peer.map (·.epoch)).getD 0) + 1
  let s := showEpoch { s with cairn.epoch := e, cairn.role := roleLead }
  let s := { s with
    rope.index := 0, rope.confirmed := 0, rope.applied := 0, rope.release := 0, rope.held := [], rope.sent := [],
    rope.stash := [], rope.payload := [], rope.hold := [], rope.recs := [], rope.expiry := none, rope.guard := none,
    rope.fillAt := [], rope.filled := [], rope.catchBuf := [], rope.doneDue := false, rope.handDue := false,
    rope.fetches := [], rope.handover := none, rope.fenced := false, rope.joined := false }
  setF (setRole (publishesLost s) roleLead) Reg.rlIndexIndex 0

/-- What waited for the Second goes on without it: responses (single copies where they promise persistence), replies,
ACCEPTs, invocation limits. -/
def withoutSecond (s : State) : State :=
  let s := confirmMsgs s s.rope.index true
  let l := s.rope.pubs
  let s := l.foldl publishAlone { s with rope.pubs := [], rope.sent := [] }
  pumpAll (releaseAccepts (releaseHolds s))

/-- Line fetches and recopies that the twin can answer no more: the lines are poisoned (R338, Table 8-8). -/
def fetchesLost (s : State) : State :=
  let l := (s.code.repairing.filter fun x => x.2 == 3 || x.2 == 5).map (·.1)
  let s := l.foldl (fun s n => poisonLine { s with code.repairing := tdel s.code.repairing n } n) s
  if l.isEmpty then s else runAll s

/-- A Lead goes on alone: no twin, or the twin departed (Table 11-9, R436). -/
def goSingle (s : State) : State :=
  let was := team s
  let s := setTeam (setSync { s with
    rope.leaseEnd := none, rope.renewAt := [], rope.handover := none, rope.handDue := false, rope.roped := none } false) teamSingle
  let s := handoverEnd s false
  if was = teamSingle ∨ was = teamNegotiating then s
  else fetchesLost (withoutSecond (logEv (deviceEvent s 0x0502 0 0) srcRope .ropeSingle noUnit [] true))

/-- Service single, without a Lead's role (Table 11-1). -/
def openSingle (s : State) : State :=
  setTeam (setRole { s with rope.helloAt := none } roleSingle) teamSingle

/-! ## Join and catch-up (R330, R331, R336) -/

/-- The groups marked as changed: the bitmap and the bits of the previous mark. -/
def markedGroups (s : State) : List Nat := (s.rope.bitmap ++ s.rope.oldMap).eraseDups

/-- Published objects with their digests. -/
def publishedList (s : State) : List (Nat × Bytes) :=
  (s.tables.objects.filter (·.2.st == .published)).map fun x => (x.1, x.2.digest)

/-- The list of published objects with their digests goes to the twin, at every join and after every publish (R336). -/
def reportDigests (s : State) : State := ropeSend s true (.control (.digestList (publishedList s)))

/-- This twin's title slots. -/
def titleSlots (s : State) : List Nat := (s.key.slots.filter (·.2.title)).map (·.1)

/-- Title bindings are reported to the twin (R313). -/
def reportTitles (s : State) : State := ropeSend s true (.control (.titleBindings (titleSlots s)))

/-- Slabs that hold data, of objects that `p` accepts. -/
def writtenSlabs (s : State) (p : Obj → Bool) : List Nat :=
  (s.range.slabs.filter fun x => x.2.st != .unwritten && (match objOfSlab s x.1 with | some (_, o) => p o | none => false)).map (·.1)

/-- Roped slabs that catch-up copies: of the groups that either map marks; every one where a map is missing (R331). -/
def catchList (s : State) (theirs : Option (List Nat)) : List Nat :=
  let all := writtenSlabs s fun o => o.mirror == mirRoped
  match theirs with
  | none => all
  | some g => all.filter fun n => (markedGroups s).contains (n / 64) || g.contains (n / 64)

/-- Slabs of the published objects whose digest the Second lacks. -/
def publishSlabs (s : State) (held : List (Nat × Bytes)) : List Nat :=
  writtenSlabs s fun o => o.st == .published && ! (held.any fun x => x.2 == o.digest)

/-- Catch-up is sent, and its end marked. -/
def sendCatchup (s : State) (l : List Nat) : State :=
  ropeSend (setF (l.foldl sendSlab { s with rope.sentN := 0 }) Reg.rlStatusCatchupPct 0) true (.control .catchupDone)

/-- RL_STATUS.CATCHUP_PCT of a Lead that copies: the slabs that the Second has acknowledged (R331). -/
def showCatchup (s : State) : State :=
  let left := ((ropeInst s 0).held ++ (ropeInst s 1).held).countP fun f => match f.body with | .catchup .. => true | _ => false
  if s.rope.sentN = 0 || ! (team s == teamCatchUp || team s == teamReturning) then s
  else setF s Reg.rlStatusCatchupPct ((s.rope.sentN - left) * 100 / s.rope.sentN)

/-- A twin joins this Lead (R330): what waited for an earlier Second goes on without it; state transfer at the current index,
title bindings and digests; CATCH_UP. The lease runs from here. -/
def startJoin (s : State) : State :=
  let s := if hasSecond s then fetchesLost (withoutSecond s) else s
  let s := { s with
    rope.confirmed := s.rope.index, rope.held := [], rope.sent := [], rope.stash := [], rope.payload := [], rope.hold := [],
    rope.handDue := false, rope.copyDue := true, rope.leaseEnd := some (s.timebase + us 200) }
  let s := setTeam { s with rope.release := s.rope.index } teamCatchUp
  let s := ropeSend s true (.control (.stateTransfer s.rope.index (snapshot s)))
  reportDigests (reportTitles s)

/-- Commands whose state the Lead keeps are refused where they stand, when this twin has become Second (R312): those that
`p` accepts. -/
def notLead (s : State) (p : Ticket → Bool) : State :=
  let l := s.cmd.tickets.filter fun x => (mirroredOp x.2.op || x.2.op == 0x0408) && p x.2
  let s := { s with key.ctxWait := [] }
  l.foldl (fun s x => answer s x.1 scNotLead ((s.rope.peer.map (·.twinId)).getD 0xFF)) s

/-- This twin joins as Second (R330): its slabs of unroped and roped objects are UNWRITTEN; what it held of the tables and
connections goes with the state transfer. -/
def joinSecond (s : State) (p : Hello) : State :=
  let s := haltRuns ((tkeys s.conns).foldl abandonMsgs s)
  let s := (writtenSlabs s fun o => o.mirror != mirPublished).foldl trimSlab s
  let s := ((tkeys s.val.entries).filter fun n => ! slabPublished s n && ! journalOpen s n).foldl (fun s n => journalRec s (.entry n none)) s
  let s := showEpoch { s with
    cairn.epoch := max s.cairn.epoch p.epoch, cairn.role := roleSecond, rope.peer := some p, rope.fenced := false,
    rope.queue := [], rope.recs := [], rope.catchBuf := [], rope.joined := false, rope.helloAt := none,
    rope.applied := 0, rope.release := 0, rope.held := [], rope.sent := [], rope.stash := [], rope.payload := [],
    rope.hold := [], rope.fillAt := [], rope.filled := [], rope.doneDue := false, rope.fetches := [], rope.pubs := [],
    rope.returnReq := false, rope.handover := none, rope.handDue := false, rope.roped := none,
    rope.expiry := some (s.timebase + us 200), rope.guard := none }
  let s := setTeam (setRole s roleSecond) teamCatchUp
  let s := notLead s fun _ => true
  reportDigests (ropeSend (reportTitles s) true (.control (.savedMap s.cairn.ropeMap)))

/-- The twin that Table 11-1 would make Lead has CLK_LOSS set, so that it does not take that role (R30; log entry 114). -/
def leadHasNoClock (s : State) (p : Hello) : Bool := if thisLeads s p then (myHello s).clkLoss else p.clkLoss

/-- Table 11-1 decides for this twin; where the Lead it names has CLK_LOSS set no role is decided, and a serving part goes on
alone (R30; log entry 114). -/
def decideRole (s : State) (p : Hello) : State :=
  let s := { s with rope.peer := some p }
  if p.twinId = s.pins.twinId then
    logEv (setTeam (openSingle s) teamConflict) srcRope .sameTwin noUnit [p.twinId] true
  else if p.digest ≠ (myHello s).digest then
    let s' := logEv s srcRope .digestMismatch noUnit [] true
    if thisLeads s p then (if serviceOpen s then s' else openSingle s') else s'
  else if leadHasNoClock s p then s
  else if thisLeads s p then
    let s := { s with rope.helloAt := none }
    startJoin (if role s = roleLead && ! silent s then s else becomeLead s)
  else joinSecond s p

/-- The team is ROPED from now on, with the HOLDOFF_S of now (R332, R341). -/
def ropedNow (s : State) : State := { s with rope.roped := some s.timebase, rope.holdoff := getF s Reg.rlCfgHoldoffS }

/-- The team is ROPED: the flag, ROPE_RESTORED from the Lead (R331). -/
def becomeRoped (s : State) : State :=
  let was := team s
  let s := setF (setTeam (setSync (ropedNow s) true) teamRoped) Reg.rlStatusCatchupPct 100
  if role s = roleLead then
    pitchEv (if was = teamCatchUp then deviceEvent s 0x0503 0 0 else s) srcRope .ropeRoped [s.rope.index]
  else s

/-! ## Installing slabs at the Second (R331, R334) -/

/-- A CATCHUP slab replaces the slab's content; it is charged as a write of the whole slab (R314). -/
def installSlab (s : State) (n : Nat) (d : Bytes) (poison : List Nat) : State :=
  let s := slabWrite s n 0 256 true
  let s := sumForget s (n * 16384) 16384
  let s := { s with range.mem := memPut (memDrop s.range.mem (n * 16384) 16384) (n * 16384) d,
                    range.poison := s.range.poison.filter (· / 256 != n) }
  poison.foldl (fun s l => poisonLine s (n * 256 + l % 256)) s

/-- Slabs whose stamp the applied index has reached are installed; a slab that a promotion fills waits for it. -/
def installReady (s : State) : State :=
  let ok := fun (x : Nat × Bytes × List Nat × Nat) => decide (x.2.2.2 ≤ s.rope.applied) && (slabOf s x.1).st != .promoting
  let ready := s.rope.catchBuf.filter ok
  let s := { s with rope.catchBuf := s.rope.catchBuf.filter fun x => ! ok x }
  ready.foldl (fun s x => installSlab s x.1 x.2.1 x.2.2.1) s

/-- Objects that the Second publishes once it holds their bytes (R337): each check is reported. -/
def publishHeld (s : State) : State :=
  (s.tables.objects.filter (·.2.st == .publishing)).foldl (fun s x =>
    let r := publishOwn s x.1
    let s := ropeSend r.1 true (.control (.publishCheck x.1 (r.2.map (BitVec.ofNat 64))))
    if r.2.isSome then reportDigests s else s) s

/-- The end of a catch-up at the Second: once every slab is installed its copies are published and it answers. -/
def catchupEnd (s : State) : State :=
  if s.rope.doneDue && s.rope.catchBuf.isEmpty then
    let s := publishHeld { s with rope.doneDue := false }
    let s := if team s = teamCatchUp then becomeRoped s else s
    ropeSend s true (.control .catchupDone)
  else s

/-! ## Handover (R332, R334) -/

/-- The Lead starts a return or planned handover: RETURNING, and its unroped slabs are copied. -/
def startReturn (s : State) : State :=
  if role s = roleLead && team s = teamRoped then
    sendCatchup (setTeam s teamReturning) (writtenSlabs s fun o => o.mirror == mirUnroped)
  else s

/-- HANDOVER names the last index; with it the lease counts no more (LEASE_END) and is not renewed. -/
def sendHandover (s : State) : State :=
  let h := s.rope.index
  let o := order s (.handover h)
  { o.1 with rope.handover := some o.2, rope.handDue := false }

/-- The copy of a return is installed: HANDOVER goes once no mirrored command is in progress, whose response it would lose
(R335; log entry 112). -/
def handoverReady (s : State) : State :=
  if s.cmd.tickets.any fun x => mirroredOp x.2.op && (match x.2.st with | .executing => true | _ => false) then
    { s with rope.handDue := true }
  else sendHandover s

/-- A request that this twin has not ordered becomes a held one (R318, R334). -/
def holdRequest (s : State) (ci msn : Nat) : State :=
  match msgOf s ci msn with
  | some m =>
    if m.over || m.first.ty == tyMgmt then s
    else
      let s := releaseMsg s ci msn { m with occ := [] }
      let s := setMsg s ci msn { m with
        region := none, resv := [], wait := [], wthru := false, validated := false, parked := false, started := false,
        units := [], payload := none, inv := 0, st := .placing }
      if s.rope.queue.contains (ci, msn) then s else { s with rope.queue := s.rope.queue ++ [(ci, msn)] }
  | none => s

/-- After the handover the old Lead is Second: responses up to the last index have gone, its unroped slabs are trimmed
(Table 11-2), and requests it did not order are held. -/
def becomeSecond (s : State) : State :=
  let idx := s.rope.index
  let s := confirmMsgs s idx false
  let s := { s with
    cairn.role := roleSecond, rope.handover := none, rope.applied := 0, rope.release := 0, rope.recs := [], rope.held := [],
    rope.sent := [], rope.stash := [], rope.payload := [], rope.hold := [], rope.joined := true,
    rope.leaseEnd := none, rope.renewAt := [],
    rope.expiry := some (s.timebase + us 200), rope.guard := none }
  let s := setTeam (setRole (ropedNow s) roleSecond) teamRoped
  let s := notLead (publishesEnd (haltRuns s)) fun tk => match tk.st with | .waiting | .executing => true | _ => false
  let s := s.conns.foldl (fun s x => x.2.msgs.foldl (fun s y => holdRequest s x.1 y.1) s) s
  (writtenSlabs s fun o => o.mirror == mirUnroped).foldl trimSlab (setF s Reg.rlIndexIndex 0)

/-- Returns by itself in the last 60 min; RL_STATUS.RETURNS shows them. -/
def showReturns (s : State) : State :=
  let l := s.rope.returns.filter fun t => decide (s.timebase < t + sec 3600)
  setF { s with rope.returns := l } Reg.rlStatusReturns (min l.length 3)

/-- A self-driven return is counted; the third within 60 min clears RETURN_EN (R333). -/
def countReturn (s : State) : State :=
  let s := showReturns { s with rope.returns := s.rope.returns ++ [s.timebase] }
  if s.rope.returns.length ≥ 3 then logEv (setB s Reg.rlCfgReturnEn false) srcRope .returnDisabled noUnit [] true else s

/-! ## The rope cut and restored (R327, R328) -/

def instMap (s : State) : Nat := (ropeInst s 0).up.toNat + 2 * (ropeInst s 1).up.toNat
def showInst (s : State) : State := setF s Reg.rlStatusInstUp (instMap s)

/-- A Lead in ROPE_CUT: responses that waited go, except persistence promises, of work requests too, while HOLD_MS runs (R328). -/
def cutResponses (s : State) : State :=
  let h := getF s Reg.rlCfgHoldMs
  let s := s.conns.foldl (fun s x => x.2.msgs.foldl (fun s y => match y.2.st with
    | .rope idx r =>
      if ! msgPersist y.2 then doneMsg s x.1 y.1 r
      else if h = 0 then doneMsg s x.1 y.1 r.single
      else { s with rope.hold := tset s.rope.hold idx (s.timebase + ms h) }
    | _ => s) s) s
  let late := s.tables.queues.flatMap fun x => match x.2.run with
    | some r => (r.live.filter fun l => decide (s.rope.confirmed < l.idx) && wrPersist (x.2.wr l.slot)).map (·.idx)
    | none => []
  let s := if h = 0 then s else late.foldl (fun s i => { s with rope.hold := tset s.rope.hold i (s.timebase + ms h) }) s
  pumpAll (releaseAccepts (releaseHolds s))

/-- A request that the Second holds is refused (ROPE_CUT). -/
def refuseHeld (s : State) (x : Nat × Nat) : State :=
  match msgOf s x.1 x.2 with
  | some m =>
    let s := sendNak s x.1 m.first.path nkRopeRefused 0 x.2 (((rangeOf m.first).map (·.key)).getD 0)
    doneMsg s x.1 x.2 (.nak nkRopeRefused)
  | none => s

/-- A Lead enters ROPE_CUT, in a return too, whose role it keeps (R335). -/
def leadCut (s : State) : State :=
  let s := { s with rope.roped := none, rope.handDue := false }
  let s := logEv (setTeam (setSync s false) teamCut) srcRope .ropeSingle noUnit [] true
  cutResponses (handoverEnd (deviceEvent s 0x0502 0 0) false)

/-- A Second enters ROPE_CUT: it refuses what it holds. -/
def secondCut (s : State) : State :=
  let l := s.rope.queue
  l.foldl refuseHeld (handoverEnd (setTeam (setSync { s with rope.queue := [], rope.roped := none, rope.returnReq := false } false)
    teamCut) false)

/-- An ORDER frame with a HANDOVER record. -/
def handsOver : RopeBody → Bool
  | .order l => l.any fun r => match r.body with | .handover _ => true | _ => false
  | _ => false
def carriesHandover : Frame → Bool
  | .rope f => handsOver f.body
  | _ => false

/-- The rope is down with the belay wires receiving: ROPE_CUT. A Lead whose HANDOVER has left is Second (R335); one that
has not left is withdrawn, its index free again (log entry 112). -/
def enterCut (s : State) : State :=
  if role s = roleLead && ropeSynced s then
    match s.rope.handover with
    | none => leadCut s
    | some i =>
      if s.port.fifo.any fun x => x.2.any carriesHandover then
        leadCut (setF { s with
          rope.handover := none, rope.index := i - 1, rope.sent := tdel s.rope.sent i,
          rope.stash := s.rope.stash.filter (! handsOver ·),
          port.fifo := s.port.fifo.map fun x => (x.1, x.2.filter (! carriesHandover ·)) } Reg.rlIndexIndex (i - 1))
      else secondCut (handoverEnd (becomeSecond s) true)
  else if isSecond s && team s ≠ teamCut then secondCut s
  else s

/-- The slabs of an object go to the Second, with their end marked (R337). -/
def sendObject (s : State) (n : Nat) : State :=
  match objOf s n with
  | some o => ropeSend ((o.slabs.filter fun k => (slabOf s k).st != .unwritten).foldl sendSlab s) true (.control .catchupDone)
  | none => s

/-- Frames that the partner still needs after a cut: renewals, fetches, catch-up and what belongs to a return are made
anew. -/
def keptBody : RopeBody → Bool
  | .order _ | .fillReq _ | .fillData .. => true
  | .control c => (match c with | .catchupDone | .depart => false | _ => true)
  | _ => false

/-- A list cut into lists of `n`. -/
def chunksOf {α : Type} (n : Nat) (l : List α) : List (List α) :=
  (List.range (cdiv l.length n)).map fun i => (l.drop (i * n)).take n

/-- The rope is back after a cut: the frames that were not delivered go, the Lead sends again the records that the Second has
not confirmed, up to 140 in a frame (Table 11-4), and the Second its list of published objects, which asks for the catch-up; both twins are in CATCH_UP (R316,
R328, R329, R336). -/
def cutMended (s : State) : State :=
  let l := s.rope.stash
  let s := l.foldl (fun s b => ropeSend s true b) { s with rope.stash := [] }
  if role s = roleLead && team s = teamCut then
    let s := setTeam { s with rope.copyDue := true } teamCatchUp
    let s := (chunksOf 140 (s.rope.sent.map (·.2))).foldl (fun s l => ropeSend s true (.order l)) s
    s.rope.pubs.foldl (fun s x => sendObject s x.1) s
  else if isSecond s && team s = teamCut then
    reportDigests (setTeam s teamCatchUp)
  else s

/-- An instance comes up: its sequences start again, and no frame of before is sent (R316); the team goes on, or HELLO is sent. -/
def instUp (s : State) (i : Nat) : State :=
  let narrow := (ropeInst s i).lanes == 4
  let s := showInst (setRopeInst { s with port.fifo := tdel s.port.fifo (32 + i) } i { up := true, lanes := if narrow then 4 else 8 })
  let s := pitchEv s srcRope .ropeInstUp [i]
  if team s = teamCut then cutMended s
  else if isSet s Reg.rlCfgTeamEn && (s.rope.helloAt.isSome || silent s || team s == teamSingle || team s == teamConflict ||
      (team s == teamNegotiating && getF s Reg.fabStartStatusStage == 10)) then sendHello s
  else s

/-- Frames held on an instance that goes down are sent again on the other (R316), or kept until one is up. -/
def moveFrames (s : State) (i : Nat) (l : List RopeFrame) : State :=
  if (ropeInst s (1 - i)).up then l.foldl (fun s f => ropeSendOn s (1 - i) true f.body) s
  else { s with rope.stash := s.rope.stash ++ (l.map (·.body)).filter keptBody }

/-- An instance goes down (R315, R316, R327). -/
def instDown (s : State) (i : Nat) : State :=
  let r := ropeInst s i
  if ! r.up then s
  else
    let s := showInst (setRopeInst s i { up := false, lanes := r.lanes })
    let s := moveFrames (logEv s srcRope .ropeInstDown i [i] true) i r.held
    if (ropeInst s (1 - i)).up then s
    else
      let s := fetchesLost s
      if isSet s Reg.rlStatusBelayUp then enterCut s else s

end Sys2Proof.Machine
end

