-- ==== Sys2Proof/Machine/Ladder.lean ====
section
/-! DEFINITION. The recovery ladder (16): a function's rungs 1 and 2, device reset and power cycle, and the orderly
shutdown (12). -/

namespace Sys2Proof.Machine

/-! ## Functions and their counts (R444, Table 14-9) -/

/-- Times of a list within the last hour. -/
def lastHour (s : State) (l : List Nat) : List Nat := l.filter fun t => decide (s.timebase < t + sec 3600)

/-- RESETS_1H and CYCLES_1H. -/
def showLadderCounts (s : State) : State :=
  setF (setF s Reg.fabLadderStatusResets1h (min 3 (lastHour s s.ladder.resets).length))
    Reg.fabLadderStatusCycles1h (min 3 (lastHour s s.ladder.cycles).length)

/-- The rung last started, and its function. -/
def showRung (s : State) (rung k : Nat) : State :=
  setF (setF (setF (showLadderCounts s) Reg.fabLadderStatusLastRung rung) Reg.fabLadderStatusLastClass (fnCls k))
    Reg.fabLadderStatusLastIndex (fnIdx k)

/-- The commands that a rung answers: with a record in the logbook where it failed (R448, Table 14-11). -/
def answerJoined (s : State) (l : List Nat) (ok : Bool) : State :=
  l.foldl (fun s t => if ok then answer s t scOk else answer s t scDeviceFault (lastSeq s)) s

/-! ## Rungs 3 and 4 (R442, R444 to R447) -/

/-- Rung 4: bivouac, reverse-order shutdown and restart; the third within an hour stays off. -/
def rung4 (s : State) (k : Nat) : State :=
  let s := { s with ladder.cycles := lastHour s s.ladder.cycles ++ [s.timebase],
                    ladder.run := 4, ladder.since := s.timebase, ladder.due := 0, ladder.wait := 0 }
  let s := logEv (showRung s 4 k) srcSeq .powerCycle noUnit [k] true
  let s := if s.ladder.cycles.length ≥ 3 then
      logEv (setB { s with seq.stayOff := true } Reg.fabLadderStatusHeldOff true) srcSeq .ladderHeld noUnit [k] true
    else s
  if seqState s == stService || seqState s == stStopping then startBivouac s 4 3 .cycle else shutDown s .cycle false

/-- Rung 3: the record that names the function, then the device reset with its start cause (5 by the ladder). -/
def rung3 (s : State) (k cause : Nat) : State :=
  let s := { s with ladder.resets := lastHour s s.ladder.resets ++ [s.timebase],
                    ladder.run := 3, ladder.since := s.timebase, ladder.due := 0, ladder.wait := 0 }
  deviceReset (logEv (showRung s 3 k) srcSeq .deviceReset noUnit [k, cause] true) cause

def runRung (s : State) (rung k cause : Nat) : State := if rung = 4 then rung4 s k else rung3 s k cause

/-- A planned handover can finish within 10 ms: the unroped slabs fit in that time at CATCHUP_GBPS (R445). -/
def handoverFits (s : State) : Bool :=
  role s == roleLead && team s == teamRoped &&
  decide ((writtenSlabs s fun o => o.mirror == mirUnroped).length * 16384 ≤ getF s Reg.rlCfgCatchupGbps * 10000000)

/-- Rung 3 or 4 is due: a Lead of a ROPED team first hands over, if it can in time (R445). -/
def startRung (s : State) (rung k cause : Nat) : State :=
  if s.ladder.wait ≠ 0 then { s with ladder.wait := max rung s.ladder.wait }
  else if handoverFits s then
    startReturn { s with ladder.wait := rung, ladder.waitFn := k, ladder.waitCause := cause, ladder.since := s.timebase }
  else runRung s rung k cause

/-- Escalation to rung 4: at once with AUTO_CYCLE, else it waits for PWR_CYCLE. -/
def needCycle (s : State) (k : Nat) : State :=
  if isSet s Reg.fabLadderCfgAutoCycle then startRung s 4 k 2
  else { s with ladder.due := 4 }

/-- Escalation to rung 3: a third device reset within the hour is a power cycle instead (Table 16-2). -/
def needReset (s : State) (k : Nat) : State :=
  let s := logEv s srcSeq .ladderRung noUnit [3, k]
  if (lastHour s s.ladder.resets).length ≥ 2 then needCycle s k
  else if isSet s Reg.fabLadderCfgAutoReset then startRung s 3 k 5
  else { s with ladder.due := max 3 s.ladder.due }

/-- The handover that a rung waited for has ended, or cannot end (R445). -/
def handoverOver (s : State) : State :=
  if s.ladder.wait = 0 then s else runRung s s.ladder.wait s.ladder.waitFn s.ladder.waitCause

/-! ## The end of a rung -/

/-- A rung of a function has ended: its commands are answered. -/
def rungEnd (s : State) (k : Nat) (ok : Bool) : State :=
  let f := ladFn s k
  answerJoined (setLadFn s k { f with rung := 0, tries := if ok then 0 else f.tries, joined := [], until_ := none }) f.joined ok

/-- A function that waits for rung 2 to succeed works again. -/
def rungOk (s : State) (k : Nat) : State := if (ladFn s k).rung = 0 then s else rungEnd s k true

/-- A camp channel is retired (R190): lost lines, destage of every dirty slab, the record in the cairn; rung 3 follows
when the destage has ended. -/
def retireChannel (s : State) (c : Nat) : State :=
  let s := { s with camp.gone := s.camp.gone ++ [c], cairn.retiredCh := s.cairn.retiredCh ++ [c], ladder.retiring := some c }
  let s := cfgWrite s id
  destageAll (channelLost (logEv (setF s (Reg.campChStatusState c) 5) (srcCamp c) .channelRetired c [c] true) c)

/-- The destage of a retired channel has ended: rung 3. -/
def retireCheck (s : State) : State :=
  match s.ladder.retiring with
  | some c => if s.range.dirtyList.isEmpty then needReset { s with ladder.retiring := none } (fnKey 2 c) else s
  | none => s

/-- A sub-port is held down (Table 16-3). -/
def subHold (s : State) (sub : Nat) : State :=
  portEvent (logEv (subPathsDown (setSub s sub subHeld) sub) (srcPort (sub / 4)) .portDown noUnit [sub] true) sub 0x0302 0

/-- Rung 2 has failed twice in succession or is needed a third time within an hour (Table 16-3): the function is held out of use,
but for a connection or a chain queue, to which the table gives no such action. -/
def rung2Failed (s : State) (k : Nat) : State :=
  let s := logEv s srcSeq .ladderHeld noUnit [2, k] true
  let s := rungEnd (setLadFn s k { ladFn s k with held := fnCls k != 4 && fnCls k != 5, tries := 0 }) k false
  let i := fnIdx k
  match fnCls k with
  | 1 => subHold s i
  | 2 => retireChannel s i
  | 3 => if i = 0 then needReset s k else requeueGuide (setDom s (10 + i) false) i
  | 6 => failChannel s i
  | 7 => instDown s i
  | 8 => if 90 ≤ i ∧ i ≤ 109 then setDom s i false else needReset s k
  | _ => s

/-! ## Rungs 1 and 2 of a function (Table 16-3) -/

/-- A rope instance sends its held frames again. -/
def ropeAgain (s : State) (i : Nat) : State :=
  let r := ropeInst s i
  let s := setRopeInst s i { r with timer := if r.held.isEmpty then none else some (s.timebase + ropeRtx) }
  r.held.foldl (fun s f => emit s (32 + i) (.rope { f with ack := r.rx })) s

/-- The work requests of a queue's run start again from their progress offsets. -/
def chainAgain (s : State) (q : Nat) : State :=
  match (queueOf s q).bind (·.run) with
  | some r => (r.live.filter fun l => l.waiting.isNone && l.pushMsn.isNone).foldl (fun s l => addJob s 3 (.chain q l.slot)) s
  | none => s

/-- Rung 1: the step is repeated, and the rung ends. -/
def rung1 (s : State) (k : Nat) : State :=
  let f := ladFn s k
  let s := setLadFn s k { f with t1 := lastHour s f.t1 ++ [s.timebase] }
  let s := pitchEv (showRung s 1 k) srcSeq .ladderRung [1, k]
  let i := fnIdx k
  match fnCls k with
  | 1 => s.conns.foldl (fun s x => x.2.paths.foldl (fun s p =>
      if p.2.sub = i && p.2.up then (match p.2.held with | h :: _ => rewind s x.1 p.1 h.psn | [] => s) else s) s) s
  | 4 => match tget s.conns i with
    | some c => c.paths.foldl (fun s p =>
        if p.2.up then (match p.2.held with | h :: _ => rewind s i p.1 h.psn | [] => s) else s) s
    | none => s
  | 5 => chainAgain s i
  | 7 => if (ropeInst s i).up then ropeAgain s i else s
  | _ => s

/-- Mover jobs of a domain go back to the queue with their offsets. -/
def requeueMovers (s : State) (d : Nat) : State :=
  let mine := s.range.movers.filter fun x => x.1 / 8 == d - 102
  { s with range.jobs := (mine.map (·.2)) ++ s.range.jobs, range.movers := s.range.movers.filter fun x => x.1 / 8 != d - 102 }

/-- A guide stops and is reloaded. The spec bounds the rung by 20 ms (Table 16-3) and does not say when in it the guide
runs again: a free time (log entry 92). -/
def guideReload (s : State) (k : Nat) : State :=
  useFree (setLadFn s k { ladFn s k with until_ := some (s.timebase + freeVal s % ms 20) })

/-- Guides whose reload has ended run again. -/
def guidesReady (s : State) : State :=
  (s.ladder.fns.filter fun x => match x.2.until_ with | some u => decide (u ≤ s.timebase) | none => false).foldl
    (fun s x => rungOk s x.1) s

/-- The function's logic is reset and its work resumes; gives whether the rung has ended at once. `stall`: by a stuck
handshake, so that a camp channel's self-refresh is not confirmed (R189; log entry 49). -/
def reinitFn (s : State) (k : Nat) (stall : Bool) : State × Bool :=
  let i := fnIdx k
  match fnCls k with
  | 1 => (setSub (subPathsDown s i) i subTraining, false)
  | 2 =>
    let s := if stall then channelLost s i else s
    (setF { s with camp.ch := tmod s.camp.ch i fun c => { c with reinit := true, stage := 5, group := 0, retried := false } }
      (Reg.campChStatusState i) 3, false)
  | 3 => (requeueGuide (guideReload s k) i, false)
  | 4 => (if (tget s.conns i).isSome then connError s i else s, true)
  | 5 => (resetQueue (if ((queueOf s i).bind (·.run)).isSome then chainFail s i ((((queueOf s i).bind (·.run)).map (·.first)).getD 0) .storage
      else s) i, true)
  | 6 => (setF s (Reg.valNvStatusState i) 3, false)
  | 7 => (instDown s i, false)
  | _ => (setDom (setDom (if 102 ≤ i then requeueMovers s i else s) i false) i true, true)

/-- Starts a try of rung 2, or acts where the limit of Table 16-2 is met. -/
def rung2Try (s : State) (k : Nat) (stall : Bool) : State :=
  let f := ladFn s k
  let recent := lastHour s f.t2
  if f.tries ≥ 2 ∨ recent.length ≥ 2 then rung2Failed s k
  else
    let s := setLadFn s k { f with rung := 2, tries := f.tries + 1, t2 := recent ++ [s.timebase], since := s.timebase }
    let r := reinitFn (pitchEv (showRung s 2 k) srcSeq .ladderRung [2, k]) k stall
    if r.2 then rungEnd r.1 k true else r.1

/-- Rung 2 is needed: a rung that runs is joined; a function held out of use, or a domain with no rung 2, is not tried. -/
def rung2 (s : State) (k : Nat) (stall : Bool) : State :=
  let f := ladFn s k
  if f.rung ≠ 0 ∨ f.held then s
  else if fnCls k = 8 ∧ ¬ (90 ≤ fnIdx k ∧ fnIdx k ≤ 109) then needReset (showRung s 2 k) k
  else rung2Try s k stall

/-- A try of rung 2 has failed: the second, or the action of Table 16-3. -/
def rung2Again (s : State) (k : Nat) : State :=
  if (ladFn s k).rung = 2 then rung2Try s k false else s

/-- The functions in a power domain (Table 2-6): a stall in it is theirs (R35). -/
def domainFns (s : State) (d : Nat) : List Nat :=
  if d = 0 ∨ d = 127 then []
  else if d ≤ 8 then (modeSubs (getF s (Reg.hpPortCfgMode (d - 1)))).map fun k => fnKey 1 (4 * (d - 1) + k)
  else if d = 9 then [fnKey 7 0, fnKey 7 1]
  else if d ≤ 41 then [fnKey 3 (d - 10)]
  else if d ≤ 57 then [fnKey 8 d]
  else if d ≤ 73 then [fnKey 2 (d - 58)]
  else if d ≤ 89 then [fnKey 6 (2 * (d - 74)), fnKey 6 (2 * (d - 74) + 1)]
  else [fnKey 8 d]

/-! ## Orderly shutdown (R353) -/

/-- Step 3: no new request; connections close. Step 4 begins: every dirty slab is destaged. -/
def orderlyDrain (s : State) : State :=
  destageAll ((tkeys s.conns).foldl (fun s ci => closeConn s ci 1) s)

/-- Steps 1 and 2: SHUTDOWN_IMMINENT (3 command, 4 push-button), a planned handover, then the drain. -/
def orderlyStop (s : State) (cause : Nat) : State :=
  let s := shutdownImminent s cause
  let s := pitchEv (setSeqState { s with seq.why := some .orderly,
                                         seq.graceEnd := some (s.timebase + sec (getF s Reg.seqCfgGraceS)) } stStopping)
    srcSeq .orderlyStop [cause]
  if role s == roleLead && team s == teamRoped then startReturn s else orderlyDrain s

/-- The end of step 4, once nothing is dirty and no connection lives: journal, table log, logbook, pitch logs, rope bitmap
and root (last stop 0), then the rails go down in reverse order. -/
def orderlyCheck (s : State) : State :=
  if seqState s == stStopping && s.seq.why == some .orderly && s.range.dirtyList.isEmpty &&
      ! (s.conns.any (·.2.st.live)) && ! (role s == roleLead && team s == teamReturning) then
    shutDown (writeRoot (saveMap (flushPitch (programLog (flushTables (flushJournal s))) 2)) 0) .orderly false
  else s

/-- After a handover: the rung or the shutdown that waited for it goes on. -/
def afterHandover (s : State) : State :=
  let s := handoverEnd s true
  if s.ladder.wait ≠ 0 then handoverOver s
  else if seqState s == stStopping && s.seq.why == some .orderly then orderlyDrain s
  else s

end Sys2Proof.Machine
end

