-- ==== Sys2Proof/Machine/RopeApply.lean ====
section
/-! DEFINITION. The order stream at the Second (11): applying records, fills, fetches, and taking the Lead's role. -/

namespace Sys2Proof.Machine

/-! ## The next record -/

/-- The record that the Second applies next (R318); in bivouac it confirms no more (Table 12-3, B1). -/
def nextRec (s : State) : Option OrderRec :=
  if isSecond s && s.rope.joined && ! powerStops s then tget s.rope.recs (s.rope.applied + 1) else none

/-- A header-only stand-in for a request whose packets have not all arrived, made from its record (R318, R325). -/
def recPkt (ty conn msn key addr len : Nat) : Pkt :=
  let x : Ext := ⟨exRange, 5, 0, [word key, word (addr / 2 ^ 32), word addr, word len]⟩
  { ty := ty, first := true, last := true, conn := conn, msn := msn, exts := [x], extLen := 5 }

/-- The request of a record is done at the Second: its held packets are discarded, and later ones are duplicates. -/
def recordDone (s : State) (conn msn : Nat) (p : Pkt) : State :=
  let ci := connIdx conn
  match connOf s conn with
  | none => s
  | some c =>
    let s := { s with rope.queue := s.rope.queue.filter (· != (ci, msn)) }
    if msnBefore c.nextDone msn then s
    else
      let s := if thas c.msgs msn then s else setMsg s ci msn { first := p, mlen := 0 }
      doneMsg s ci msn (.silent 0)

/-! ## Line and repair fetches (R338) -/

/-- The extent of the range that a fetch names; none for a published object that this twin does not hold. -/
def fetchBase (s : State) (f : Fetch) : Option Nat :=
  if f.published then
    (s.tables.objects.find? fun o => o.2.st == .published && o.2.digest == f.digest).map fun o => o.2.base + f.off
  else some (f.slab * 16384 + f.off)

/-- Answers a fetch with the lines as this twin holds them, poisoned lines counted from the extent's first. -/
def answerFetch (s : State) (f : Fetch) : State :=
  match fetchBase s f with
  | none => ropeSend s true (.fetchData f .notHeld)
  | some a => ropeSend s true (.fetchData f (.lines (rangeRead s a f.len)
      (((linesOf a f.len).filter (lineBad s)).map fun l => l - a / 64)))

/-- Whether every record received has been applied. -/
def allApplied (s : State) : Bool := ! (s.rope.recs.any fun r => decide (s.rope.applied < r.1))

/-- Line fetches wait until the applied index has reached the Lead's (R338); so does the catch-up of groups that the Lead has
lost: their roped slabs go as catch-up sends them (R331; log entry 128). -/
def answerFetches (s : State) : State :=
  if allApplied s then
    let s := s.rope.fetches.foldl (fun s x => answerFetch s x.1) { s with rope.fetches := [] }
    ((writtenSlabs s fun o => o.mirror == mirRoped).filter fun n => s.rope.recopy.contains (n / 64)).foldl sendSlab
      { s with rope.recopy := [] }
  else s

/-- A slab of the Second's catch-up reaches a Lead that has lost lines of it: these are written back, or poisoned where they are
poisoned there (R189). -/
def recopied (s : State) (n : Nat) (d : Bytes) (poison : List Nat) : State :=
  let ls := (s.code.repairing.filter fun x => x.1 / 256 == n && x.2 == 5).map (·.1)
  runAll (ls.foldl (fun s l =>
    if poison.contains (l % 256) then poisonLine { s with code.repairing := tdel s.code.repairing l } l
    else lineGood s l (bsub d (l % 256 * 64) 64)) s)

/-! ## Applying (Table 11-7) -/

/-- The applied index has advanced: CONFIRM goes, and what waited for it goes on. -/
def appliedTo (s : State) (idx : Nat) : State :=
  let s := setF { s with rope.applied := idx, rope.fillAt := tdel s.rope.fillAt idx, rope.payload := tdel s.rope.payload idx }
    Reg.rlIndexIndex idx
  answerFetches (catchupEnd (installReady (ropeSend s false (.confirm idx))))

/-- The payload of a record at the Second: filled, else the held request's own; none while it is missing or its digest
differs (R319). The flag says that it differs. -/
def recPayload (s : State) (idx conn msn digest : Nat) : Option Bytes × Bool :=
  match tget s.rope.payload idx with
  | some d => if s.rope.filled.contains idx && crc32c d == digest then (some d, false) else (none, false)
  | none =>
    match connOf s conn, msgOf s (connIdx conn) msn with
    | some c, some m =>
      if m.chunks.length = chunkCount c.unit m.mlen then
        (if crc32c (msgPayload m) = digest then (some (msgPayload m), false) else (none, true))
      else (none, false)
    | _, _ => (none, false)

/-- The operands of an atomic at the Second: of the held request, or as filled. -/
def recOperands (s : State) (idx conn msn : Nat) : Option (Nat × Nat) :=
  match tget s.rope.payload idx with
  | some d => if s.rope.filled.contains idx then some (beNat (bsub d 0 16), beNat (bsub d 16 16)) else none
  | none => ((msgOf s (connIdx conn) msn).bind fun m => atomOf m.first).map fun x => (x.a, x.b)

/-- The payload is missing: FILL_WAIT_US begins, once; a mismatch is written to the logbook (R319). -/
def awaitFill (s : State) (idx conn : Nat) (differs : Bool) : State :=
  if thas s.rope.fillAt idx || s.rope.filled.contains idx then s
  else
    let s := { s with rope.fillAt := tset s.rope.fillAt idx (s.timebase + us (getF s Reg.rlCfgFillWaitUs)) }
    if differs then logEv s srcRope .digestMismatch noUnit [idx, conn] else s

/-- An OPERATION record is applied; gives whether it has been. -/
def applyOperation (s : State) (idx : Nat) (apply : Bool) (ty aop conn msn key addr status len digest : Nat)
    (result : Bytes) : State × Bool :=
  let p := recPkt ty conn msn key addr len
  if ! apply || decide (0xFF00 ≤ status) || ty == tyRead || len == 0 then (recordDone s conn msn p, true)
  else if ty = tyAtomic then
    match recOperands s idx conn msn with
    | none => (awaitFill s idx conn false, false)
    | some (a, b) =>
      if ! atomWrites aop (leNat result) a then (recordDone s conn msn p, true)
      else
        let r := applyBytes s conn addr (leBytes (atomSize aop) (atomNew aop (leNat result) a b))
        if r.2 then (recordDone r.1 conn msn p, true) else r
  else
    match recPayload s idx conn msn digest with
    | (none, differs) => (awaitFill s idx conn differs, false)
    | (some d, _) =>
      let r := applyBytes s conn addr d
      if r.2 then (recordDone r.1 conn msn p, true) else r

/-- A CHAIN record at the Second: a trigger is kept with its argument, a run starts, ends, or its queue is in ERROR. -/
def applyChain (s : State) (q ev conn msn : Nat) : State :=
  match queueOf s q with
  | none => s
  | some x =>
    match ev with
    | 1 =>
      let arg := ((msgOf s (connIdx conn) msn).map msgPayload).getD []
      setQueue s q { x with pend := x.pend ++ [⟨conn, msn, arg⟩] }
    | 2 =>
      match x.pend, x.endSlot with
      | t :: rest, some e => setQueue s q { x with
          st := .running, pend := rest, run := some { first := x.head, fin := e, next := x.head, trig := t } }
      | _, _ => s
    | 3 =>
      match x.run with
      | some r => chainEnd (setQueue s q { x with run := some { r with live := [], ended := true, stopped := false } }) q
      | none => s
    | _ => setQueue s q { x with st := .error, pend := [], failures := (x.failures + 1) % 2 ^ 32, run := none }

/-- A record other than OPERATION and HANDOVER takes its effect at the Second. -/
def applyBody (s : State) (b : OrderBody) : State :=
  match b with
  | .command op tag who nums body =>
    let s := applyCommand s op who nums body
    let r : Reply := { status := scOk, op := op, tag := tag, payload := mirrorReply op nums }
    if op = 0 then s else { s with cmd.mirrored := s.cmd.mirrored ++ [(who, op, tag, r)] }
  | .topo t m => setMarker s t m
  | .chain q ev conn msn => applyChain s q ev conn msn
  | .partMsg conn msn .. => modConn s (connIdx conn) fun c => { c with partMsn := msnAdd msn 1 }
  | .ivReserve conn limit => { s with rope.ivRes := tset s.rope.ivRes (connIdx conn) limit }
  | _ => s

/-- The next record is applied, if it is of the kind that `want` accepts (R318: strictly in index order). -/
def applyNext (s : State) (want : OrderBody → Bool) : State :=
  match nextRec s with
  | none => s
  | some r =>
    if ! want r.body then s
    else match r.body with
      | .operation apply _ _ ty aop conn msn key addr status len digest result =>
        let o := applyOperation s r.idx apply ty aop conn msn key addr status len digest result
        if o.2 then appliedTo o.1 r.idx else o.1
      | b => appliedTo (applyBody s b) r.idx

/-- Every record that can be applied is applied (`fuel`: the records held). -/
def applyAll : Nat → State → State
  | 0, s => s
  | fuel + 1, s =>
    let t := applyNext s fun b => match b with | .handover _ => false | _ => true
    if t.rope.applied = s.rope.applied then s else applyAll fuel t

/-! ## Taking the Lead's role (R325, R334) -/

/-- Invocation counts continue at the highest reserved limit; skipped ones count (R322). -/
def skipInvocations (s : State) : State :=
  s.conns.foldl (fun s x =>
    let lim := ivLimit s x.1
    if lim ≤ x.2.invoc then s
    else
      let s := match connSlot s x.2 with
        | some (n, k) => setSlot s n { k with out := k.out + (lim - x.2.invoc) }
        | none => s
      modConn s x.1 fun c => { c with invoc := lim }) s

/-- Runs whose start was recorded and whose end was not start again from their first work request; a trigger that was
recorded and has not started starts its run. -/
def restartRuns (s : State) : State :=
  let s := (s.tables.queues.filter fun x => x.2.run.isSome && x.2.st == .running).foldl (fun s x =>
    modQueue s x.1 fun y => { y with run := y.run.map fun r => { r with next := r.first, live := [], done := [] } }) s
  (tkeys s.tables.queues).foldl chainNext s

/-- A held request is ordered by the new Lead. -/
def runHeld (s : State) (x : Nat × Nat) : State :=
  match msgOf s x.1 x.2 with
  | some m =>
    if m.over then s
    else if m.first.ty = tySend then
      (match tget s.conns x.1 with
       | some c => if m.chunks.length = chunkCount c.unit m.mlen then runSend s x.1 x.2 m.first.path else s
       | none => s)
    else runConn (validateMsg s x.1 x.2 m.first.path) x.1
  | none => s

/-- Held requests are executed in the order in which they arrived. -/
def runQueue (s : State) : State := s.rope.queue.foldl runHeld { s with rope.queue := [] }

/-- The response of an OPERATION record, put back into its connection's sequence; a READ is executed again. -/
def putResponse (s : State) (r : OrderRec) : State :=
  match r.body with
  | .operation _ _ single ty _ conn msn key addr status len _ result =>
    let ci := connIdx conn
    let m : Msg := { first := recPkt ty conn msn key addr len, mlen := 0 }
    if conn = 0 then s
    else if 0xFF00 ≤ status then
      (match (tget s.conns ci).bind (choosePath · none) with
       | some (k, _) => setMsg (sendNak s ci k (status - 0xFF00) 0 msn key) ci msn { m with st := .done (.nak (status - 0xFF00)) }
       | none => s)
    else if ty = tyRead then setMsg s ci msn m
    else if ty = tyAtomic then setMsg s ci msn { m with st := .done (.resp result [] 0) }
    else setMsg s ci msn { m with st := .done (.comp status (if single || ty == tyWritep then cfSingleCopy else 0)) }
  | _ => s

/-- Connection and MSN of an OPERATION record. -/
def recMsn (r : OrderRec) : Option (Nat × Nat) :=
  match r.body with
  | .operation _ _ _ _ _ conn msn .. => if conn = 0 then none else some (connIdx conn, msn)
  | _ => none

/-- Sends again the responses above the release mark (R325, step 4): each connection's sequence goes back to the earliest of
them, with MSNs that need no response passed over. -/
def resendResponses (s : State) (l : List OrderRec) : State :=
  let hit := l.filterMap recMsn
  let s := s.conns.foldl (fun s x =>
    let c := x.2
    let back := (hit.filter fun h => h.1 == x.1 && msnBefore c.nextDone h.2).map fun h => msnDist h.2 c.nextDone
    let k := back.foldl max 0
    if k = 0 then s
    else
      let first := msnAdd c.nextDone (2 ^ 32 - 1 - k)
      let p : Pkt := {}
      let fill := (List.range k).foldl (fun t i => tset t (msnAdd first i) { first := p, mlen := 0, st := .done (.silent 0) }) c.msgs
      modConn s x.1 fun c => { c with nextDone := first, msgs := fill }) s
  let s := l.foldl putResponse s
  (tkeys s.conns).foldl (fun s ci => settle (runConn s ci) ci) s

/-- Sends again the EVENTs above the release mark; for a PUSH, ROLE_CHANGE with its MSN (R325, step 5). -/
def resendPartMsgs (s : State) (l : List OrderRec) (last : Nat) : State :=
  l.foldl (fun s r => match r.body with
    | .partMsg conn msn code qual detail isPush =>
      (match connOf s conn with
       | some c =>
         let keep := c.partMsn
         let s := modConn s (connIdx conn) fun c => { c with partMsn := msn }
         let s := if isPush then sendEvent s (connIdx conn) 0x0501 s.pins.twinId last
           else sendEvent s (connIdx conn) code qual detail
         modConn s (connIdx conn) fun c => { c with partMsn := keep }
       | none => s)
    | _ => s) s

/-- The Second takes the token after the guard (R325). -/
def takeover (s : State) : State :=
  let s := applyAll (s.rope.recs.length + 1) s
  let last := s.rope.applied
  let l := (s.rope.recs.filter fun r => decide (s.rope.release < r.1 ∧ r.1 ≤ last)).map (·.2)
  let s := setTeam (setSync (skipInvocations (becomeLead s)) false) teamSingle
  let s := bumpF (pitchEv s srcRope .takeover [last, s.cairn.epoch]) Reg.rlStatusTakeovers
  let s := resendPartMsgs (resendResponses (runQueue s) l) l last
  let s := deviceEvent (restartRuns s) 0x0501 s.pins.twinId last
  handoverEnd (runAll (deviceEvent s 0x0502 0 0)) true

/-- The returning twin takes the token on the HANDOVER record (R334, step 4); with the rope cut it leads in ROPE_CUT (R335). -/
def takeHandover (s : State) (idx : Nat) : State :=
  let s := ropeSend s false (.confirm idx)
  let last := s.rope.applied
  let s := setTeam (skipInvocations (becomeLead s)) teamRoped
  let s := ropedNow { s with rope.leaseEnd := some (s.timebase + us 200) }
  let s := if s.rope.returnReq then countReturn { s with rope.returnReq := false } else s
  let s := pitchEv (runQueue s) srcRope .roleChange [last, s.cairn.epoch]
  let s := handoverEnd (runAll (deviceEvent (restartRuns s) 0x0501 s.pins.twinId last)) true
  if (ropePick s).isNone then leadCut s else s

/-! ## Frames that answer fetches and checks -/

/-- The page of a slab is relocated with repaired content (R338). -/
def relocateFixed (s : State) (n : Nat) : State :=
  match (slabOf s n).vloc, pickPlace s with
  | some v, some t =>
    (match tget s.val.pages v with
     | some _ => startProg (useFree s) t (.relocate n v (slabPage s n 1))
     | none => s)
  | _, _ => s

/-- A fetch is answered: lines under repair are written back or poisoned; a late answer still repairs poisoned lines of a
published slab (R338, R339). -/
def fetched (s : State) (f : Fetch) (ans : FetchAnswer) : State :=
  match fetchBase s { f with digest := f.digest } with
  | none => s
  | some a =>
    let n := a / 16384
    let s := { s with rope.repairAt := tdel s.rope.repairAt n }
    let asked (l : Nat) : Bool := match tget s.code.repairing l with | some k => k == 3 || k == 4 | none => false
    let ls := linesOf a f.len
    let s := match ans with
      | .notHeld => (ls.filter asked).foldl (fun s l => poisonLine { s with code.repairing := tdel s.code.repairing l } l) s
      | .lines d poison =>
        let bad := (ls.filter asked).filter fun l => poison.contains (l - a / 64)
        let good := ls.filter fun l => (asked l || (f.published && lineBad s l)) && ! poison.contains (l - a / 64)
        let s := good.foldl (fun s l => lineGood s l (bfit (bsub d ((l - a / 64) * 64) 64) 64)) s
        let s := bad.foldl (fun s l => poisonLine { s with code.repairing := tdel s.code.repairing l } l) s
        if good.isEmpty then s else relocateFixed s n
    runAll s

/-- The Second's check of a publish copy has come (R337). -/
def publishCheckIn (s : State) (n : Nat) (check : Option Nat) : State :=
  match s.rope.pubs.find? (·.1 == n), objOf s n with
  | some (_, t, tries), some o =>
    let rest := s.rope.pubs.filter (·.1 != n)
    let own := objCheck s o
    let slot := if pubSeal o.pub then titleSlot s o.pub else none
    if check = some own then
      reportDigests (conclude (publishDone { s with rope.pubs := rest } n own o.pub slot) t true true scOk 0 (leBytes 8 own) [n, 1, own])
    else if tries = 0 then
      let s := (order { s with rope.pubs := rest ++ [(n, t, 1)] } (.command 0x0307 0 o.owner [n, 0, 0] o.pub)).1
      sendObject s n
    else
      conclude (publishStop { s with rope.pubs := rest } n slot) t false true scContentIntegrity 0 [] [n, 2, 0]
  | _, _ => s

/-- The mirrored tables of a state transfer replace this twin's (R330). -/
def takeTransfer (s : State) (index : Nat) (l : List OrderBody) : State :=
  let s := (tkeys s.conns).foldl freeConn s
  let s := { s with
    tables := { objNext := s.tables.objNext, regionGen := s.tables.regionGen }, ops.landings := [], ids := [],
    sum.runs := [], rope.ivRes := [], key.slots := s.key.slots.filter (·.2.title) }
  let s := { l.foldl applyBody s with cmd.mirrored := s.cmd.mirrored }
  let s := ((tkeys s.range.slabs).filter fun n => (objOfSlab s n).isNone).foldl trimSlab s
  let s := setF { s with rope.applied := index, rope.joined := true, rope.recs := s.rope.recs.filter fun r => decide (index < r.1) }
    Reg.rlIndexIndex index
  installReady (ropeSend s false (.confirm index))

/-- What waited for the end of a return goes on when the return has been given up (R353, R445). -/
def returnOver (old s : State) : State :=
  if team old == teamReturning && team s != teamReturning then
    (if s.ladder.wait ≠ 0 then handoverOver s
     else if seqState s == stStopping && s.seq.why == some .orderly then orderlyDrain s
     else s)
  else s

/-- A twin has departed (R436): the Lead goes on alone, a Second only records it. -/
def departed (s : State) : State :=
  if hasSecond s then returnOver s (goSingle (logEv s srcRope .departureRecv noUnit [] true))
  else logEv s srcRope .departureRecv noUnit []

end Sys2Proof.Machine
end

