-- ==== Sys2Proof/Machine/RangeOps.lean ====
section
/-! DEFINITION. Work on the range in the background (5): mover jobs, promotions, destages, eviction, segment rebuild, and
the commands that wait for them (R133, R134, R149). -/

namespace Sys2Proof.Machine

/-! ## Commands that wait for background work -/

/-- Whether every slab of an object is where its placement class wants it (R133). -/
def placed (s : State) (o : Obj) : Bool :=
  decide (1 < o.cls) || o.slabs.all fun n => segBuilt s (segOf n) && (slabOf s n).st != .valley && (slabOf s n).st != .promoting

/-- OBJECT_SET_PLACEMENT is answered when every slab stands (R133). -/
def placeCheck (s : State) (t : Nat) (tk : Ticket) : State :=
  match objOf s (numAt tk.aux 0) with
  | some o => if placed s o then conclude s t true true scOk 0 [] tk.aux else s
  | none => answer s t scNotFound

/-- OBJECT_EVICT is answered when no slab is still to be evicted for it: the slabs left in use decide (R149). -/
def evictCheck (s : State) (t : Nat) (tk : Ticket) : State :=
  if s.range.slabs.any fun x => x.2.evictAfter.contains t then s
  else if numAt tk.aux 0 = 0 then answer s t scOk 0 (leBytes 4 0)
  else answer s t scDeclined (numAt tk.aux 0) (leBytes 4 (numAt tk.aux 0))

/-- A publish without a Second, or with the Second's copy still to come (R134, R337). -/
def publishBoth (s : State) (n t : Nat) (o : Obj) (slot : Option Nat) : State :=
  if hasSecond s then
    let s := (order { s with rope.pubs := s.rope.pubs ++ [(n, t, 0)] } (.command 0x0307 0 o.owner [n, 0, 0] o.pub)).1
    sendObject (if slot.isSome then reportTitles s else s) n
  else
    let own := objCheck s o
    conclude (publishDone s n own o.pub slot) t true true scOk 0 (leBytes 8 own) [n, 1, own]

/-- Steps 3 to 5 of R134: poisoned lines, tags under the title slot (R287), then PUBLISHED. -/
def publishFinish (s : State) (n : Nat) : State :=
  match objOf s n with
  | none => s
  | some o =>
    match o.waiters with
    | [] => s
    | t :: _ =>
      let s := modObj s n fun o => { o with waiters := [] }
      match objPoison s o with
      | l :: _ => answer (publishStop s n none) t scPoisonedData (l - o.base / 64)
      | [] =>
        if pubSeal o.pub then
          match titleSlot s o.pub with
          | none => rangeFree (publishStop s n none) t
          | some k =>
            let s := countUnits (useTitle s k o.pub) k (cdiv (pubLen o.pub) 4096)
            match firstBadUnit s o (sealInfo o.pub (some k)) with
            | some u => answer (publishStop s n (some k)) t scContentIntegrity u
            | none => publishBoth s n t o (some k)
        else publishBoth s n t o none

/-- Step 2 of R134, then the check of step 3 as a class 6 job. -/
def publishGo (s : State) (n : Nat) : State :=
  match objOf s n with
  | none => s
  | some o =>
    if o.st != .publishing || o.waiters.isEmpty || (s.rope.pubs.any (·.1 == n)) then s
    else
      let closed := unbuiltOf s o.slabs
      let dirty := o.slabs.filter fun k => (slabOf s k).st.charged
      if ! closed.isEmpty then closed.foldl askSegment s
      else if ! dirty.isEmpty then dirty.foldl (fun s k => if (slabOf s k).st == .destaging then s else addJob s 6 (.destage k)) s
      else addJob s 6 (.check n)

/-- What OBJECT_EVICT does to one slab (R149): evicted, destaged first, or left in use; gives the slabs left. -/
def evictOne (t : Nat) (r : State × Nat) (n : Nat) : State × Nat :=
  let s := r.1
  let x := slabOf s n
  let inUse := x.st == .promoting || hasParked s n || inWindow s n || slabPin s n
  if x.st == .unwritten || x.st == .valley then r
  else if inUse then (s, r.2 + 1)
  else if x.st == .clean then (evictSlab s n, r.2)
  else
    let s := setSlab s n { x with evictAfter := x.evictAfter ++ [t] }
    (if x.st == .destaging then s else addJob s 6 (.destage n), r.2)

/-- An OBJECT_EVICT that parked on unbuilt segments goes on when the last of them is built (R158). -/
def evictParked (s : State) (t : Nat) (tk : Ticket) : State :=
  match tk.aux with
  | [obj, start, len] =>
    match objOf s obj with
    | none => answer s t scNotFound
    | some o =>
      let l := slabsOf (o.base + start) len
      if ! (unbuiltOf s l).isEmpty then s
      else
        let r := l.foldl (evictOne t) (s, 0)
        let s := { r.1 with cmd.tickets := tmod r.1.cmd.tickets t fun k => { k with aux := [r.2] } }
        match tget s.cmd.tickets t with
        | some k => evictCheck s t k
        | none => s
  | _ => evictCheck s t tk

/-- So does an OBJECT_TRIM; an object that is no longer OPEN refuses it (R135, R158). -/
def trimParked (s : State) (t : Nat) (tk : Ticket) : State :=
  match tk.aux with
  | [obj, start, len] =>
    match objOf s obj with
    | none => answer s t scNotFound
    | some o =>
      if o.st != .opened then answer s t scNotPermitted
      else if ! (unbuiltOf s (slabsOf (o.base + start) len)).isEmpty then s
      else conclude (trimObject s obj start len) t false true scOk 0 [] [obj, start, len]
  | _ => s

/-- Commands that wait for background work look again. -/
def bgCheck (s : State) : State :=
  s.cmd.tickets.foldl (fun s x => match x.2.st with
    | .executing =>
      if x.2.op = 0x0303 then placeCheck s x.1 x.2
      else if x.2.op = 0x0304 then evictParked s x.1 x.2
      else if x.2.op = 0x0305 then trimParked s x.1 x.2
      else if x.2.op = 0x0307 then publishGo s (numAt x.2.aux 0)
      else s
    | _ => s) s

/-! ## Promotion (R139) -/

/-- Units of a slab that a parked READ needs and that are not filled yet. -/
def wantedUnits (s : State) (n filled : Nat) : List Nat :=
  s.conns.flatMap fun c => c.2.msgs.flatMap fun m =>
    if m.2.parked then
      ((msgParts s m.2).flatMap fun e => (unitsNeeded n e.1 e.2).filter fun u => ! bit filled u)
    else []

/-- The next unit to fill: the lowest that a parked request needs, else the lowest. -/
def nextUnit (s : State) (n filled : Nat) : Option Nat :=
  match (wantedUnits s n filled) with
  | u :: us => some (us.foldl min u)
  | [] => (List.range 4).find? fun u => ! bit filled u

/-- Whether a job is the promotion of a slab. -/
def promotes (n : Nat) : JobKind → Bool
  | .promote m | .prefetch m _ | .load m => m == n
  | _ => false

/-- A promotion has filled its slab: CLEAN (Table 5-3). Its locked lines are loaded, and what waited goes on. -/
def promoted (s : State) (n : Nat) : State :=
  let s := dropJobs (setSlab s n { slabOf s n with st := .clean, unit := none, filled := 0 }) (promotes n)
  let s := match objOfSlab s n with
    | some (_, o) => if o.cls = 0 then loadLockedExtent s (n * 16384) 16384 else s
    | none => s
  bgCheck (catchupEnd (installReady s))

/-- The read of a promotion's unit: behind a program or erase on its die it waits, at rank 2 for a class 1 job and else at rank 3
(R203). -/
def unitRead (s : State) (n cls : Nat) : State :=
  match (slabOf s n).unit, (slabOf s n).vloc with
  | some _, some v => if dieSlow (dieOf s (vDie v)) && ! dieDown s (vDie v) then dieAsk s (vDie v) (.read (if cls = 1 then 2 else 3) v) else s
  | _, _ => s

/-- A unit is filled, with the lines of it that could not be read (R139, R237). -/
def unitFilled (s : State) (n : Nat) (lost : List Nat) : State :=
  let x := slabOf s n
  match x.unit with
  | some u =>
    if x.st == .promoting && s.range.movers.any (fun j => promotes n j.2.kind) && ! (x.vloc.any (readWaits s)) then
      let f := putBit x.filled u true
      let cls := ((s.range.movers.find? fun j => promotes n j.2.kind).map (·.2.cls)).getD 0
      let s := unitRead (setSlab s n { x with filled := f, unit := nextUnit s n f }) n cls
      -- the unit's lines are written to the frame through the mover's camp port (Table 6-3)
      let s := (span (n * 256 + u * 64) (n * 256 + u * 64 + 64)).foldl (fun s l => campAsk s true .mover 0 cls l) s
      let s := lost.foldl (fun s l => lostInValley s (n * 256 + u * 64 + l)) s
      let upd := fun (j : Nat × Job) => if promotes n j.2.kind then (j.1, { j.2 with offset := popcount f 4 * 4096 }) else j
      let s := { s with range.movers := s.range.movers.map upd }
      runAll (if popcount f 4 = 4 then promoted s n else s)
    else s
  | none => s

/-! ## Mover jobs (R145, R146) -/

/-- The input of a class's arbiter at which a job waits, in the order in which it was queued there (R33): one for each kind of
job, a chain queue's number modulo 16 for a work request. DESIGN CHOICE (log entry 29). -/
def jobInput : JobKind → Nat
  | .promote _ => 0 | .repair _ => 1 | .prefetch .. => 2 | .load _ => 3 | .destage _ => 4 | .rebuild _ => 5 | .check _ => 6
  | .unseal _ => 7 | .move _ => 8 | .chain q _ => q % 16

/-- The segments that the background rebuild takes next, in the order of R157. -/
def rebuildOrder (s : State) : List Nat :=
  let pinned := (s.tables.objects.filter fun o => decide (o.2.cls ≤ 1)).flatMap fun o => o.2.slabs.map segOf
  let ahead := (s.tables.topos.filter (·.2.committed)).flatMap fun t =>
    ((t.2.stepsFrom 0 (t.2.lookN s)).flatMap (t.2.stepSlabs s)).map segOf
  let wanted := s.range.jobs.filterMap fun j => match j.kind with | .prefetch n _ => some (segOf n) | _ => none
  ((wanted ++ pinned ++ ahead).eraseDups ++ List.range (rangeGib s)).filter fun g =>
    decide (g < rangeGib s) && ! segBuilt s g && ! s.range.segRun.contains g && ! s.range.segQ.contains g &&
    ! (s.range.movers.any fun x => x.2.kind == .rebuild g)

/-- The background rebuild's next segment is a class 5 job at any moment, without a count limit of its own (R157). -/
def bgRebuild (s : State) : List Job :=
  if ! isSet s Reg.campRangeCfgBgRebuild || ! serviceOpen s then []
  else match (rebuildOrder s).head? with
    | some g => [{ cls := 5, kind := .rebuild g }]
    | none => []

/-- Whether a job can start: the segment of its slab is built, and a VALLEY slab finds a free frame (R123, R154, R157). -/
def runnable (s : State) (j : Job) : Bool :=
  match j.kind with
  | .promote n | .prefetch n _ | .load n => segBuilt s (segOf n) && ((slabOf s n).st != .valley || frameFree s n)
  | .move n => ! (slabOf s n).st.resident || thas s.camp.moves n || frameFree s n
  | _ => true

/-- The job that is granted next: of the highest class that waits, the first at or after the class's grant pointer, the oldest of
one input (R33, R145). -/
def bestJob (s : State) : Option Job :=
  let l := (s.range.jobs ++ bgRebuild s).filter (runnable s)
  let dist (j : Job) : Nat := (jobInput j.kind + 16 - tcnt s.range.ptr j.cls % 16) % 16
  l.foldl (fun b j => match b with
    | some k => if j.cls < k.cls ∨ (j.cls = k.cls ∧ dist j < dist k) then some j else b
    | none => some j) none

/-- Removes the first job of a kind from the waiting ones. -/
def takeJob (s : State) (k : JobKind) : State :=
  match takeFirst (fun (j : Job) => j.kind == k) s.range.jobs with
  | some r => { s with range.jobs := r.2 }
  | none => s

/-- A mover takes a job: the grant pointer of its class moves past its input (R33). -/
def onMover (s : State) (m : Nat) (j : Job) : State :=
  { takeJob s j.kind with range.movers := tset s.range.movers m j,
                          range.ptr := tcntSet s.range.ptr j.cls ((jobInput j.kind + 1) % 16) }

/-- A destage begins (Table 5-3): a PARTIAL slab is filled with zeros, summit's dirty lines are written to camp, and the page
goes to a new place (R259). -/
def startDestage (s : State) (m : Nat) (j : Job) (n : Nat) : State :=
  let st := (slabOf s n).st
  if st != .dirty && st != .partial_ then takeJob s j.kind
  else match pickPlace s with
    | none => s
    | some v =>
      let s := sumCleanSlab (zeroFill (useFree s) n) n
      -- the slab is read through the mover's camp port (Table 6-3)
      let s := (span (n * 256) (n * 256 + 256)).foldl (fun s l => campAsk s false .mover 0 j.cls l) s
      let s := startProg s v (.destage n (slabPage s n 1))
      onMover (setSlab s n { slabOf s n with st := .destaging, target := some v, wrote := false }) m j

/-- A job starts on a free mover whose domain is on. -/
def startJob (s : State) (m : Nat) (j : Job) : State :=
  match j.kind with
  | .destage n => startDestage s m j n
  | .promote n | .prefetch n _ | .load n =>
    let x := slabOf s n
    (match x.st with
     | .promoting => onMover (unitRead (setSlab s n { x with unit := nextUnit s n x.filled }) n j.cls) m j
     | .valley =>
       let s := setSlab (useFree s) n { x with st := .promoting, frame := pickFrame s n, filled := 0, unit := nextUnit s n 0 }
       onMover (unitRead s n j.cls) m j
     | _ => takeJob s j.kind)
  | .rebuild g => if segBuilt s g then takeJob s j.kind else onMover s m j
  | .move n =>
    -- the slab's new frame (R191): its lines are read from the old one through the mover's camp port
    if ! (slabOf s n).st.resident then takeJob s j.kind
    else
      let s := if thas s.camp.moves n then s else useFree { s with camp.moves := tset s.camp.moves n (pickFrame s n) }
      onMover (campLines s false .mover j.cls (span (n * 256) (n * 256 + 256))) m j
  | _ => onMover s m j

/-- MOVER_JOB_START on mover `m`. -/
def moverStart (s : State) (m : Nat) : State :=
  if thas s.range.movers m || ! domOn s (102 + m / 8) || powerStops s then s
  else match bestJob s with
    | some j => startJob s m j
    | none => s

/-- What a job keeps when it stops at a boundary (Table 5-7): a promotion its filled units, a destage and a segment rebuild
nothing, the others their offset. -/
def stopJob (s : State) (j : Job) : State × Job :=
  match j.kind with
  | .promote n | .prefetch n _ | .load n => (setSlab s n { slabOf s n with unit := none }, j)
  | .destage n => (setSlab s n { slabOf s n with st := .dirty, target := none, wrote := false }, { j with offset := 0 })
  | .rebuild _ => (s, { j with offset := 0 })
  | _ => (s, j)

/-- A job of a lower class gives way to a higher one that waits (R145). -/
def preempt (s : State) (m : Nat) : State :=
  match tget s.range.movers m, bestJob s with
  | some j, some k =>
    if k.cls < j.cls then
      let r := stopJob s j
      { r.1 with range.movers := tdel r.1.range.movers m, range.jobs := r.1.range.jobs ++ [r.2] }
    else s
  | _, _ => s

/-- The next segment waiting for an on-demand rebuild starts (R158). -/
def nextSegment (s : State) : State :=
  match s.range.segQ with
  | g :: t => if s.range.segRun.length < 16 then addJob { s with range.segQ := t, range.segRun := s.range.segRun ++ [g] } 4 (.rebuild g) else s
  | [] => s

/-- A seal unit of an unseal is ready for the cipher engine (R292): its slabs and those of its destination are at hand, and
the budget has room for it. The job ends with its last unit. -/
def unsealUnit (s : State) (m : Nat) (j : Job) (t : Nat) : State :=
  match tget s.cmd.tickets t with
  | none => dropJobs s (· == j.kind)
  | some tk =>
    match tk.aux with
    | [obj, first, count, _, _, dst] =>
      match objOf s obj with
      | none => dropJobs s (· == j.kind)
      | some o =>
        let k := j.offset / 4096
        let len := unitLen ((o.sealed_.map (·.dataLen)).getD 0) (first + k)
        let to_ := dst + k * 4096
        let waits := ((slabsOf (o.base + (first + k) * 4096) len).filter fun n => ! readable s n) ++
          (slabsOf to_ len).filter fun n => ! applyReady s to_ len n
        let need := uncharged s to_ len
        if ! waits.isEmpty then preempt (askSlabs s waits) m
        else if ! writeThrough s && ! need.isEmpty && ! budgetFits s need then preempt (destageAll s) m
        else
          let s := cipherAsk s ((o.sealed_.bind (·.slot)).getD 0) (.unseal t (first + k))
          if k + 1 ≥ count then dropJobs s (· == j.kind)
          else preempt { s with range.movers := tset s.range.movers m { j with offset := j.offset + 4096 } } m
    | _ => dropJobs s (· == j.kind)

/-- MOVER_UNIT_DONE: a 4 KiB unit of the mover's job is done. A prefetch whose slab has left every window ends here (R154). A
destage gives way until its whole slab is with the die; its page then stands for itself. -/
def moverUnit (s : State) (m : Nat) : State :=
  match tget s.range.movers m with
  | none => s
  | some j =>
    match j.kind with
    | .chain q slot =>
      -- a CHECK waits while every check-value unit is gated off (R39)
      let op := ((queueOf s q).map fun x => wrOp (x.wr slot)).getD 0
      if op == woCheck && ! cvuAwake s then s else
      let s := ctxTurn (wrUnit s q slot)
      let off := ((wrRun s q slot).map (·.offset)).getD j.offset
      let s := { s with range.movers := s.range.movers.map fun x => if x.2.kind == j.kind then (x.1, { x.2 with offset := off }) else x }
      if wrMoved s q slot then dropJobs s (· == j.kind) else preempt s m
    | .check n =>
      let len := ((objOf s n).map (·.len)).getD 0
      if j.offset + 4096 < len then preempt { s with range.movers := tset s.range.movers m { j with offset := j.offset + 4096 } } m
      else publishFinish { s with range.movers := tdel s.range.movers m } n
    | .repair n =>
      if s.code.repairing.any fun x => x.1 / 256 == n && x.2 == 2 then preempt s m else { s with range.movers := tdel s.range.movers m }
    | .unseal t => unsealUnit s m j t
    | .prefetch n _ =>
      if decide (4 ≤ j.cls) && ! inWindow s n then abandonPromotion (dropJobs s (· == j.kind)) n else preempt s m
    | .destage n =>
      if (slabOf s n).st != .destaging || decide (16384 ≤ j.offset) then s
      else
        let s := { s with range.movers := tset s.range.movers m { j with offset := j.offset + 4096 } }
        if j.offset + 4096 < 16384 then preempt s m else s
    | .move n =>
      if ! (slabOf s n).st.resident then dropJobs { s with camp.moves := tdel s.camp.moves n } (· == j.kind)
      else
        let off := min 16384 (j.offset + 4096)
        let s := { s with range.movers := tset s.range.movers m { j with offset := off } }
        if off < 16384 then preempt s m else s
    | .rebuild _ => preempt { s with range.movers := tset s.range.movers m { j with offset := j.offset + 4096 } } m
    | _ => preempt s m

/-! ## Destage (Table 5-3) -/

/-- Work requests that wait for the destage of their slabs go on without this one (R137). -/
def destageWrs (s : State) (n : Nat) : State :=
  { s with tables.queues := s.tables.queues.map fun x => (x.1, { x.2 with run := x.2.run.map fun r =>
    { r with live := r.live.map fun l => { l with wait := l.wait.filter (· != n) } } }) }

/-- Whether a message or a work request waits for the destage of a slab. -/
def destageWaited (s : State) (n : Nat) : Bool :=
  (s.conns.any fun x => x.2.msgs.any fun y => match y.2.st with | .destage _ => y.2.wait.contains n | _ => false) ||
  s.tables.queues.any fun x => match x.2.run with | some r => r.live.any (·.wait.contains n) | none => false

/-- A message or work request that waits for the destage of its slabs goes on without this one (R137). -/
def destageMsgs (s : State) (n : Nat) : State :=
  let s := destageWrs s n
  s.conns.foldl (fun s x => x.2.msgs.foldl (fun s y => match y.2.st with
    | .destage r =>
      if y.2.wait.contains n then
        let w := y.2.wait.filter (· != n)
        let s := modMsg s x.1 y.1 fun m => { m with wait := w }
        if w.isEmpty then endMsg s x.1 y.1 r else s
      else s
    | _ => s) s) s

/-- OBJECT_EVICT's part at the end of a slab's destage (R149). -/
def evictAfter (s : State) (n : Nat) : State :=
  let x := slabOf s n
  if x.evictAfter.isEmpty then s
  else
    let s := setSlab s n { x with evictAfter := [] }
    if x.st == .clean && ! hasParked s n && ! inWindow s n && ! slabPin s n then evictSlab s n
    else { s with cmd.tickets := x.evictAfter.foldl (fun l t => tmod l t fun k => { k with aux := [numAt k.aux 0 + 1] }) s.cmd.tickets }

/-- A program of a slab that has left its DESTAGING (a trim, a lost frame) ends: the page is released at once. -/
def staleDone (s : State) (n : Nat) (ok : Bool) : State :=
  match s.val.progs.find? fun p => match p.2 with | .destage m _ => m == n && (slabOf s n).target != some p.1 && progRuns s p.1 | _ => false with
  | some (v, .destage _ pg) =>
    if ok then joinStripe (putPage s v pg) v else retireBlock (progGone s v) (vBlock s v)
  | _ => s

/-- The page of a destage is programmed and verified, and the journal page that names it (R126, R216). -/
def destageDone (s : State) (n : Nat) : State :=
  let x := slabOf s n
  match x.target with
  | none => staleDone s n true
  | some v =>
    match tget s.val.progs v with
    | some (.destage m pg) =>
      if m ≠ n ∨ x.st ≠ .destaging ∨ ! progRuns s v then s
      else
        let s := dropJobs (joinStripe (putPage s v pg) v) (· == .destage n)
        let s :=
          if x.wrote then
            let s := setSlab s n { x with st := .dirty, target := none, wrote := false }
            if destageWaited s n then addJob s 2 (.destage n) else s
          else
            let pois := (s.range.poison.any (· / 256 == n))
            let s := setSlab s n { x with st := .clean, target := none, vloc := some v, pois := pois }
            destageMsgs (flushJournal (journal (dropReservation s [n]) n)) n
        let s := evictAfter s n
        orderlyCheck (retireCheck (opCheck (bgCheck (runAll (budgetCheck (destagePlan (reclaim s)))))))
    | _ => s

/-- The page of a destage fails: its block is retired, and the job starts again on another page (Table 5-3, R211). -/
def destageFail (s : State) (n : Nat) : State :=
  let x := slabOf s n
  match x.target with
  | none => staleDone s n false
  | some v =>
    match tget s.val.progs v with
    | some (.destage m _) =>
      if m ≠ n ∨ x.st ≠ .destaging ∨ ! progRuns s v then s
      else
        let s := retireBlock (progGone s v) (vBlock s v)
        (match pickPlace s with
         | some w => setSlab (startProg (useFree s) w (.destage n (slabPage s n 1))) n { slabOf s n with target := some w }
         | none => dropJobs (setSlab s n { slabOf s n with st := .dirty, target := none, wrote := false }) (· == .destage n))
    | _ => s

/-! ## The walker (R147) -/

/-- The next slab of a partition in table order, after the walker's position and round again. -/
def walkerNext (s : State) (part : Nat) : Option Nat :=
  let l := (tkeys s.range.slabs).filter (· % 256 == part)
  match l.find? fun n => decide (tcnt s.range.walker part < n) with
  | some n => some n
  | none => l.head?

/-- A CLEAN slab that nothing protects; one that a read has translated to is none (Table 5-8). -/
def candidate (s : State) (n : Nat) : Bool :=
  (slabOf s n).st == .clean && ! slabPin s n && ! inWindow s n && ! hasParked s n && (readersOf s n).isEmpty

def slabCls (s : State) (n : Nat) : Nat := ((objOfSlab s n).map (·.2.cls)).getD 3

/-- The walker visits its next slab: valley-streaming ones first, then camp-preferred ones not accessed since its last visit;
a reference bit is cleared. With no candidate left it starts destages. -/
def walk (s : State) (part : Nat) : State :=
  if ! walkerRuns s part then s
  else match walkerNext s part with
    | none => s
    | some n =>
      let mine := (tkeys s.range.slabs).filter (· % 256 == part)
      let s := { s with range.walker := tset s.range.walker part n }
      if candidate s n then
        (if slabCls s n = 3 then evictSlab s n
         else if mine.any fun k => candidate s k && slabCls s k == 3 then s
         else if s.range.refBits.contains n then { s with range.refBits := s.range.refBits.filter (· != n) }
         else evictSlab s n)
      else if mine.any (candidate s) then s
      else (mine.filter fun k => (slabOf s k).st == .dirty || (slabOf s k).st == .partial_).foldl (fun s k => addJob s 5 (.destage k)) s

/-! ## Segment rebuild (R156 to R158) -/

/-- REBUILD_PCT and REBUILD_DONE. -/
def showRebuild (s : State) : State :=
  let n := rangeGib s
  let k := s.range.built.length
  setB (setF s Reg.campRangeStatusRebuildPct (k * 100 / max 1 n)) Reg.campRangeStatusRebuildDone (decide (n ≤ k))

/-- A written slab without a valley copy, whose only content was in a camp that is lost (R463): as a slab of a lost camp
channel, with a frame and a charge. A Second leaves it to catch-up. -/
def lostSlab (s : State) (n : Nat) : State :=
  if isSecond s then s
  else
    let s := charge (setSlab (useFree s) n { st := .dirty, frame := pickFrame s n, pois := true }) n
    lostLines s n (span (n * 256) (n * 256 + 256))

/-- A slab stands in the valley as its durable entry says, with its bytes and poison; one without a page waits for its segment. -/
def loadEntry (s : State) (x : Nat × DurEntry) : State :=
  if (slabOf s x.1).st != .unwritten then s
  else match x.2.vloc with
  | some v =>
      let s := setSlab s x.1 { st := .valley, vloc := some v, pois := x.2.pois }
      (match tget s.val.pages v with
       | some p => loadPage s x.1 p
       | none => s)
  | none => s

/-- What the rebuild of every segment will give stands in the table from stage 8 on; a segment's entries are used once it is
built (log entry 126). -/
def loadEntries (s : State) : State := s.val.entries.foldl loadEntry s

/-- A segment is built: its lost slabs are known (R156, R463). -/
def segLoad (s : State) (g : Nat) : State :=
  let lost := s.val.entries.filter fun x => segOf x.1 == g && ! x.2.unw && x.2.vloc.isNone &&
    (slabOf s x.1).st == .unwritten && ! journalOpen s x.1
  let s := askRecopy (lost.foldl (fun s x => lostSlab s x.1) s)
  showRebuild { s with range.built := s.range.built ++ [g] }

/-- A segment is built: what parked on it goes on, prefetches and loads that wait for it start. -/
def segmentDone (s : State) (g : Nat) : State :=
  if segBuilt s g then s
  else
    let s := dropJobs { s with range.segRun := s.range.segRun.filter (· != g), range.segQ := s.range.segQ.filter (· != g) } (· == .rebuild g)
    let s := nextSegment (segLoad s g)
    let held := (s.tables.objects.filter fun o => decide (o.2.cls ≤ 1) && (o.2.slabs.any fun n => segOf n == g)).map (·.1)
    let gone := (s.tables.objects.filter fun o => o.2.st == .deleting).map (·.1)
    bgCheck (runAll (gone.foldl tryDelete (held.foldl placementLoad s)))

end Sys2Proof.Machine
end

