-- ==== Sys2Proof/Machine/Camp.lean ====
section
/-! DEFINITION. The camp controller (6): the scheduler of a subchannel, refresh, the rockfall guard, whistles, reads of
code words, training. -/

namespace Sys2Proof.Machine

/-! ## Queues, ranks and banks -/

def chState (s : State) (c : Nat) : Nat := getF s (Reg.campChStatusState c)
def campCh (s : State) (c : Nat) : CampCh := (tget s.camp.ch c).getD {}
def setCampCh (s : State) (c : Nat) (x : CampCh) : State := { s with camp.ch := tset s.camp.ch c x }

def subQ (s : State) (k : Nat) : SubQ := (tget s.camp.q k).getD {}
def setSubQ (s : State) (k : Nat) (q : SubQ) : State := { s with camp.q := tset s.camp.q k q }

/-- What stands in the 64 places of a subchannel's read and write queue; what follows in the lists waits at its port. -/
def SubQ.reads (q : SubQ) : List CampReq := q.rd.take 64
def SubQ.writes (q : SubQ) : List CampReq := q.wr.take 64

/-- A rank of a subchannel: (channel × 2 + subchannel) × 16 + rank; its banks are 32 to a rank. -/
def rankSt (s : State) (rk : Nat) : RankSt := (tget s.camp.rank rk).getD {}
def setRank (s : State) (rk : Nat) (r : RankSt) : State := { s with camp.rank := tset s.camp.rank rk r }
def bankSt (s : State) (b : Nat) : BankSt := (tget s.camp.bank b).getD {}
def setBank (s : State) (b : Nat) (x : BankSt) : State := { s with camp.bank := tset s.camp.bank b x }

/-- Ranks of a subchannel. -/
def ranksOf (s : State) (k : Nat) : List Nat := (List.range (campCh s (k / 2)).ranks).map (k * 16 + ·)

/-- A command goes to the DIMMs. -/
def issue (s : State) (k : Nat) (c : DdrCmd) : State := { s with camp.issued := s.camp.issued ++ [(k, c)] }

/-- A precharge of the first open bank of a rank that `p` accepts. -/
def preOpen (s : State) (rk : Nat) (p : Nat → Bool) : Option State :=
  (s.camp.open_.find? fun x => x.1 / 32 == rk && p x.1).map fun x =>
    issue { s with camp.open_ := tdel s.camp.open_ x.1 } (rk / 16) (.pre x.1)

/-! ## Refresh (R175, R176, R178) -/

/-- The accumulated activation counts of banks are reduced. -/
def raaLess (s : State) (p : Nat → Bool) (n : Nat) : State :=
  { s with camp.bank := s.camp.bank.map fun x => if p x.1 then (x.1, { x.2 with raa := x.2.raa - n }) else x }

/-- One interval has been paid. -/
def paid (r : RankSt) : RankSt := { r with debt := r.debt - 1, force := r.force && decide (1 < r.debt) }

/-- REFsb of a bank index, after a precharge of its open rows; `own` is the guard's extra one (R181). -/
def refSb (s : State) (rk idx : Nat) (own : Bool) : State :=
  match preOpen s rk (fun b => b % 4 == idx) with
  | some s => s
  | none =>
    let r := rankSt s rk
    let r := if own then { r with extra := r.extra.filter (· != idx) }
      else if r.set.length = 3 then paid { r with set := [] } else { r with set := r.set ++ [idx] }
    issue (raaLess (setRank s rk r) (fun b => b / 32 == rk && b % 4 == idx) Config.rfmByRefresh) (rk / 16) (.refSb (rk % 16) idx)

/-- Due refresh of a rank: a set of REFsb that is partly done first, then REFab until the debt is 0. -/
def dueRefresh (s : State) (rk : Nat) : State :=
  let s := setRank s rk { rankSt s rk with force := true }
  let r := rankSt s rk
  match (if r.set.isEmpty then none else (List.range 4).find? fun i => ! r.set.contains i) with
  | some i => refSb s rk i false
  | none =>
    match preOpen s rk (fun _ => true) with
    | some s => s
    | none =>
      issue (raaLess (setRank s rk (paid r)) (fun b => b / 32 == rk) Config.rfmByRefresh) (rk / 16) (.refAb (rk % 16))

/-- The DIMM of a bank. -/
def bankDimm (s : State) (b : Nat) : DimmSpd := (campCh s (b / 1024)).dimmOf (b / 32 % 16)

/-- RFM to a bank, after a precharge. -/
def issueRfm (s : State) (b : Nat) : State :=
  match preOpen s (b / 32) (· == b) with
  | some s => s
  | none => issue (setBank s b { bankSt s b with raa := (bankSt s b).raa - Config.rfmByRfm, rfmDue := false }) (b / 512) (.rfm b)

def refreshDue (s : State) (rk : Nat) : Bool :=
  let r := rankSt s rk
  r.force || decide ((getF s Reg.campRefCfgDueDebt : Int) ≤ r.debt)

/-- A slice of a rank's write centring, of at most 10 µs, if none runs on it (R186). -/
def slice (s : State) (rk : Nat) : State :=
  issue { s with camp.slice := tset s.camp.slice rk (s.timebase + us 10) } (rk / 16) (.centre (rk % 16))
def sliceRuns (s : State) (rk : Nat) : Bool := match tget s.camp.slice rk with | some t => decide (s.timebase < t) | none => false

/-- The first rank of a subchannel that `p` accepts, that is being centred and that no slice runs on. -/
def sliceDue (s : State) (k : Nat) (p : Nat → Bool) : Option Nat :=
  (ranksOf s k).find? fun rk => thas s.camp.centring rk && ! sliceRuns s rk && p rk

/-- Rank 1 of Table 6-4: refresh, an extra REFsb or RFM that is due; then the slices of a centring that has taken 10 ms
(R186). -/
def rankOne (s : State) (k : Nat) : Option State :=
  match (ranksOf s k).find? (refreshDue s) with
  | some rk => some (dueRefresh s rk)
  | none =>
    match (ranksOf s k).find? fun rk => ! (rankSt s rk).extra.isEmpty with
    | some rk => some (refSb s rk ((rankSt s rk).extra.headD 0) true)
    | none =>
      match s.camp.bank.find? fun x => x.1 / 512 == k && x.2.rfmDue with
      | some x => some (issueRfm s x.1)
      | none => (sliceDue s k s.camp.urgent.contains).map (slice s)

/-- Whether a request waits for a bank that `p` accepts. -/
def bankWanted (s : State) (k : Nat) (p : Nat → Bool) : Bool :=
  let q := subQ s k
  (q.reads ++ q.writes).any fun r => p (campLoc s r.cpa).bank

/-- Refresh and RFM that are not due go into idle banks, up to 2 intervals ahead (R175, R178). -/
def idleRefresh (s : State) (k : Nat) : State :=
  match s.camp.bank.find? fun x => x.1 / 512 == k && (bankDimm s x.1).rfmReq && decide ((bankDimm s x.1).rfmAt ≤ x.2.raa) && decide (0 < x.2.raa) &&
      ! bankWanted s k (· == x.1) with
  | some x => issueRfm s x.1
  | none =>
    match (ranksOf s k).findSome? fun rk =>
        if (rankSt s rk).debt > -2 then
          ((List.range 4).find? fun i => ! (rankSt s rk).set.contains i && ! bankWanted s k (fun b => b / 32 == rk && b % 4 == i)).map fun i => (rk, i)
        else none with
    | some (rk, i) => refSb s rk i false
    | none => s

/-! ## The rockfall guard (R180 to R183) -/

/-- Places of a bank's throttles that apply to a requester. -/
def thrFor (x : BankSt) (who : CampPort × Nat) : List Nat :=
  (x.thr.filter fun t => t.2.who == none || t.2.who == some who).map (·.1)

/-- Whether an activation for a requester waits for a token. -/
def thrWaits (x : BankSt) (who : CampPort × Nat) : Bool :=
  x.thr.any fun t => (t.2.who == none || t.2.who == some who) && t.2.tokens == 0

/-- The requester that occurs most often among samples, the most recent of equals. -/
def topWho (last : List (CampPort × Nat)) : CampPort × Nat :=
  last.reverse.foldl (fun w x => if last.count w < last.count x then x else w) (last.getLast?.getD (.maint, 0))

/-- Number of a port, for records. -/
def portNum : CampPort → Nat
  | .bivouac => 0
  | .ropeApply => 1
  | .egress _ => 2
  | .demand => 3
  | .mover => 4
  | .maint => 5

/-- A throttle for an aggressor: extended where it runs, at a free place of four, else the common one (R181, R182). -/
def throttle (s : State) (b : Nat) (who : CampPort × Nat) : State :=
  let x := bankSt s b
  let end_ := s.timebase + ms (getF s Reg.campRfgCfgHoldMs)
  let new (w : Option (CampPort × Nat)) : Throttle :=
    ⟨w, getF s Reg.campRfgCfgBucket, getF s Reg.campRfgCfgBucket, getF s Reg.campRfgCfgTokenUs, end_⟩
  let more (t : Tab Throttle) (i : Nat) : Tab Throttle := tmod t i fun y => { y with until_ := end_ }
  let thr := more x.thr 4
  let thr := match thr.find? fun t => t.2.who == some who with
    | some t => more thr t.1
    | none => match tfree thr 0 4 with
      | some i => tset thr i (new (some who))
      | none => if thas thr 4 then thr else tset thr 4 (new none)
  setBank s b { x with thr := thr }

/-- An aggressor row is found. -/
def aggressor (s : State) (d : Dram) (b : Nat) (row : RfgRow) : State :=
  let who := topWho row.last
  let s := bumpF s (Reg.campChStatusRfgDetect d.ch)
  let s := logEv s (srcCamp d.ch) .aggressor d.rank [d.sub, b, row.row, portNum who.1, who.2]
  let s := if (bankDimm s b).rfm then setBank s b { bankSt s b with rfmDue := true }
    else
      let r := rankSt s (rankKey d)
      setRank s (rankKey d) { r with extra := if r.extra.contains d.ba then r.extra else r.extra ++ [d.ba] }
  throttle s b who

/-- The entry with the lowest count leaves a full table. DESIGN CHOICE (log entry 78): of several that share it, the one whose
last sample is the oldest. -/
def dropLowest (l : List RfgRow) : List RfgRow :=
  match l with
  | [] => []
  | x :: t =>
    let low := t.foldl (fun m y => min m y.count) x.count
    match takeFirst (fun y => y.count == low) l with
    | some (_, rest) => rest
    | none => l

/-- A sampled activation of a row: an aggressor once its count has reached THRESH, found once in a window (log entry 78). -/
def sample (s : State) (d : Dram) (b : Nat) (who : CampPort × Nat) : State :=
  let x := bankSt s b
  let old := (x.rows.find? (·.row == d.row)).getD ⟨d.row, 0, [], false⟩
  let hit := decide (getF s Reg.campRfgCfgThresh ≤ old.count + 1) && ! old.found
  let new : RfgRow := ⟨d.row, old.count + 1, lastK 16 old.last who, old.found || hit⟩
  let others := x.rows.filter (·.row != d.row)
  let others := if others.length < 8 then others else dropLowest others
  let s := setBank s b { x with rows := others ++ [new] }
  if hit then aggressor s d b new else s

/-- An activation: the row opens, tokens are taken, the counts rise. RFM is due before the count can reach the DIMM's
maximum. -/
def activate (s : State) (d : Dram) (b : Nat) (who : CampPort × Nat) : State :=
  let s := issue { s with camp.open_ := tset s.camp.open_ b d.row } (b / 512) (.act b d.row)
  let x := bankSt s b
  let rfm := (bankDimm s b).rfmReq
  let x := { x with
    thr := (thrFor x who).foldl (fun t i => tmod t i fun y => { y with tokens := y.tokens - 1 }) x.thr,
    acts := x.acts + 1, lastAct := some s.timebase, raa := if rfm then x.raa + 1 else x.raa }
  let s := setBank s b { x with rfmDue := x.rfmDue || (rfm && decide ((bankDimm s b).rfmMax ≤ x.raa + 1)) }
  if isSet s Reg.campRfgCfgEn && x.acts % 2 ^ getF s Reg.campRfgCfgSampleShift == 0 then sample s d b who else s

/-! ## Whistles (R171, R172) -/

/-- KiB of read data that stand before the wire of a sub-port. -/
def egressKib (s : State) (sub : Nat) : Nat :=
  ((((tget s.port.fifo sub).getD []).map fun f => match f with
    | .tmt _ p => if p.ty = tyReadResp then p.payload.length else 0
    | _ => 0).sum) / 1024

/-- Whether a port's whistle is raised, given whether it was (Table 6-5). -/
def whistles (s : State) (was : Bool) : CampPort → Bool
  | .bivouac =>
    let low := getF s Reg.campSchedCfgWhBivLowMib
    seqState s == stBivouac && s.seq.bivStep == 4 &&
      (decide (s.seq.staged < low * 2 ^ 20) || (was && decide (s.seq.staged < (low + 4) * 2 ^ 20)))
  | .ropeApply =>
    let n := s.rope.recs.length
    let h := getF s Reg.campSchedCfgWhRopeHigh
    decide (h ≤ n) || (was && decide (h - 128 < n))
  | .egress sub =>
    let w := getF s Reg.campSchedCfgWhEgrLowKib
    (s.camp.q.any fun q => q.2.rd.any (·.port == .egress sub)) &&
      (decide (egressKib s sub < w) || (was && decide (egressKib s sub < 2 * w)))
  | _ => false

/-- Key of a real-time port in the table of raised whistles. -/
def whKey : CampPort → Nat
  | .ropeApply => 1
  | .egress sub => 2 + sub
  | _ => 0

/-- The whistles as they stand now. -/
def measure (s : State) : State :=
  ([CampPort.bivouac, .ropeApply] ++ (List.range 32).map CampPort.egress).foldl (fun s p =>
    let was := s.camp.whistle.contains p
    if whistles s was p then
      (if was then s else { s with camp.whistle := s.camp.whistle ++ [p], camp.raised := tset s.camp.raised (whKey p) s.timebase })
    else if was then { s with camp.whistle := s.camp.whistle.filter (· != p), camp.raised := tdel s.camp.raised (whKey p) }
    else s) s

/-- A whistle has been raised for more than 100 µs: counted for each channel where the port has requests, logged once. -/
def whistleLong (s : State) (p : CampPort) : State :=
  let s := measure s
  match tget s.camp.raised (whKey p) with
  | some t =>
    if s.camp.whistle.contains p then
      let s := reach { s with camp.raised := tdel s.camp.raised (whKey p) } (t + us 100 + 1)
      let chs := (List.range 16).filter fun c => (s.camp.q.any fun q => q.1 / 2 == c && (q.2.rd ++ q.2.wr).any (·.port == p))
      logEv (chs.foldl (fun s c => bumpF s (Reg.campChStatusWhLong c)) s) (srcCamp (chs.headD 0)) .whistleLong noUnit [whKey p]
    else s
  | none => s

/-! ## The scheduler (R169, R170) -/

/-- A queued request: whether it writes, and itself. -/
abbrev Cand := Bool × CampReq

def rowHit (s : State) (x : Cand) : Bool :=
  let d := campLoc s x.2.cpa
  tget s.camp.open_ d.bank == some d.row

/-- A request's activation waits: for a token, or for the 200 ns of a hot channel (R179). -/
def actWaits (s : State) (x : Cand) : Bool :=
  let d := campLoc s x.2.cpa
  let b := bankSt s d.bank
  thrWaits b (x.2.port, x.2.conn) ||
    (! (campCh s d.ch).hotDimms.isEmpty && (match b.lastAct with | some t => decide (s.timebase < t + 20) | none => false))

/-- Whether a request has a command that can be issued now; a slice of write centring blocks its rank, and no other (R186). -/
def issuable (s : State) (x : Cand) : Bool :=
  ! sliceRuns s (rankKey (campLoc s x.2.cpa)) && (rowHit s x || ! actWaits s x)

/-- The queues of a subchannel by rank of Table 6-4, from rank 2 down. -/
def candRanks (s : State) (k : Nat) : List (List Cand) :=
  let q := subQ s k
  let rd : List Cand := q.reads.map fun r => (false, r)
  let wr : List Cand := q.writes.map fun r => (true, r)
  let wh (p : CampPort → Bool) : List Cand := (rd ++ wr).filter fun x => s.camp.whistle.contains x.2.port && p x.2.port
  let moverLow (r : CampReq) : Bool := r.port == .mover && ! decide (1 ≤ r.cls ∧ r.cls ≤ 2)
  [wh (· == .bivouac), wh (· == .ropeApply), wh (fun p => match p with | .egress _ => true | _ => false),
   if q.drain then wr else [],
   rd.filter fun x => x.2.port != .maint && ! moverLow x.2,
   (wr.filter fun x => x.2.port != .maint) ++ rd.filter fun x => moverLow x.2 || (x.2.port == .maint && s.code.late),
   (rd ++ wr).filter fun x => x.2.port == .maint && ! (s.code.late && ! x.1)]

/-- The request a rank serves: one that row hits may pass no more, else a row hit, else any; ports in turn from the
grant pointer, the oldest of a port (R33). -/
def pickCand (s : State) (ptr : Nat) (l : List Cand) : Option Cand :=
  let ok := l.filter (issuable s)
  let starved := ok.filter fun x => ! rowHit s x && decide (getF s Reg.campSchedCfgHitPass ≤ x.2.passed)
  let hits := ok.filter (rowHit s)
  let pool := if ! starved.isEmpty then starved else if ! hits.isEmpty then hits else ok
  (List.range 6).findSome? fun i => pool.find? fun x => portNum x.2.port == (ptr + i) % 6

/-- Older entries that `pass` accepts have been passed by a row hit of request `r` (R169). -/
def passReq (pass : CampReq → Bool) (r : CampReq) (l : List CampReq) : List CampReq :=
  l.map fun x => if decide (x.no < r.no) && pass x then { x with passed := x.passed + 1 } else x

/-- The next command of a request: read or write on a row hit, precharge, or activation. -/
def serveCand (s : State) (k : Nat) (l : List Cand) (x : Cand) : State :=
  let d := campLoc s x.2.cpa
  let b := d.bank
  let q := { subQ s k with ptr := (portNum x.2.port + 1) % 6 }
  match tget s.camp.open_ b with
  | some row =>
    if row = d.row then
      -- requests of the same rank, reads and writes alike, that need an activation
      let pass (w : Bool) (r : CampReq) : Bool := l.contains (w, r) && ! rowHit s (w, r)
      let q := { q with rd := passReq (pass false) x.2 q.rd, wr := passReq (pass true) x.2 q.wr }
      if x.1 then
        let q := { q with wr := q.wr.erase x.2 }
        wordClean (issue (setSubQ s k { q with drain := q.drain && decide (getF s Reg.campSchedCfgWqLow < q.wr.length) }) k (.wr x.2.cpa)) x.2.cpa
      else
        let s := if x.2.port == .bivouac then { s with seq.staged := s.seq.staged + 64 } else s
        issue (setSubQ s k { q with rd := q.rd.erase x.2 }) k (.rd x.2.cpa)
    else issue { setSubQ s k q with camp.open_ := tdel s.camp.open_ b } k (.pre b)
  | none => activate (setSubQ s k q) d b (x.2.port, x.2.conn)

/-- Operations whose request waits for a token carry THROTTLED (R183). -/
def markThrottled (s : State) (k : Nat) : State :=
  let q := subQ s k
  let held := (q.reads ++ q.writes).filter fun r => r.conn != 0 && ! rowHit s (false, r) &&
    thrWaits (bankSt s (campLoc s r.cpa).bank) (r.port, r.conn)
  held.foldl (fun s r => match lineOfCpa s r.cpa with
    | some line => { s with conns := tmod s.conns (connIdx r.conn) fun c =>
        { c with msgs := c.msgs.map fun m =>
            if (msgParts s m.2).any (fun e => (linesOf e.1 e.2).contains line) && ! m.2.over then
              (m.1, { m.2 with throttled := true }) else m } }
    | none => s) s

/-! ## The patrol scrub's reads (R246) -/

/-- Where the pass should stand by now, in bytes. -/
def scrubDue (s : State) : Nat :=
  (s.timebase - s.code.passAt) * (campGib s * 2 ^ 30) / (s.code.passH * sec 3600)

/-- The patrol asks for its next word; a pass more than 10 % behind its schedule is late until it is back on it. -/
def scrubAsk (s : State) : State :=
  let late := if s.code.late then decide (s.code.patrol < scrubDue s) else decide (s.code.patrol * 10 < scrubDue s * 9)
  let s := { s with code.late := late }
  let d := campLoc s s.code.patrol
  let k := d.ch * 2 + d.sub
  let asked := (subQ s k).rd.any fun r => r.port == .maint && r.cpa == s.code.patrol
  if ! isSet s Reg.campCodeCfgScrubEn || campGib s == 0 || chState s d.ch != 2 || asked then s
  else campAskAt s false .maint 0 0 s.code.patrol

/-- The patrol's read of its place has been made. -/
def scrubTaken (s : State) : State :=
  let d := campLoc s s.code.patrol
  let k := d.ch * 2 + d.sub
  let q := subQ s k
  setSubQ s k { q with rd := q.rd.filter fun r => ! (r.port == .maint && r.cpa == s.code.patrol) }

/-- DDR_COMMAND_ISSUE: one command slot of a subchannel. -/
def ddrIssue (s : State) (k : Nat) : State :=
  if chState s (k / 2) ≠ 2 then s
  else
    let s := markThrottled (measure s) k
    let q := subQ s k
    let s := setSubQ s k { q with drain := decide (getF s Reg.campSchedCfgWqHigh ≤ q.wr.length) || (q.drain && decide (getF s Reg.campSchedCfgWqLow < q.wr.length)) }
    match rankOne s k with
    | some t => t
    | none =>
      match (candRanks s k).findSome? fun l => (pickCand s (subQ s k).ptr l).map fun x => (l, x) with
      | some (l, x) => serveCand s k l x
      | none =>
        -- slices of write centring are rank 6 until they become urgent (R186)
        match sliceDue s k fun _ => true with
        | some rk => slice s rk
        | none => idleRefresh s k

/-! ## Code words as read (R232, R234, R244) -/

/-- A code word has been read: counted, corrected, repaired or poisoned (Tables 8-5, 8-9, 8-11); one of the translation reserve
loses its group (Table 8-10). Symbols of a device marked failed are erasures, and are not counted. -/
def wordRead (s : State) (cpa : Nat) (word : Bytes) (scrub : Bool) : State :=
  let d := campLoc s cpa
  let marked := (tget s.code.marked (rankKey d)).map (·.1)
  let line := lineOfCpa s cpa
  let merge := match line with | some l => s.code.merges.contains l | none => false
  let s := match line with | some l => { s with code.merges := s.code.merges.filter (· != l) } | none => s
  match decodeWord (word.map (·.toNat)) marked with
  | .clean => s
  | .poisoned =>
    if scrub then s
    else
      let s := if merge then bumpF s Reg.campCodeStatusRmwPoison else s
      match line with | some l => poisonLine s l | none => s
  | .corrected errs =>
    let s := bumpF s Reg.campCodeStatusCorrWords
    let s := if merge then bumpF s Reg.campCodeStatusRmwCorr else s
    let new := errs.filter fun e => marked != some (e.1 / 8)
    let r := if new.isEmpty then (s, none) else countCorrection s cpa new
    match r.2 with
    | some ch => rung2 r.1 (fnKey 2 ch) false
    | none => r.1
  | .uncorrectable =>
    let s := bumpF s Reg.campCodeStatusUncorrWords
    let s := logEv s (srcCamp d.ch) .uncorrectable d.rank [d.sub, d.bank, d.row, d.col]
    let s := countUncorr s cpa
    match line with
    | some l => lostInCamp s l
    | none => if 2 ^ 30 ≤ cpa ∧ cpa < poolBase s * 16384 then groupLost s ((cpa - 2 ^ 30) / 64) else s

/-! ## Training (R184, R185, R192) -/

/-- The channel does not open: its population or a rank has failed. -/
def trainFailed (s : State) (c : Nat) (e : Ev) (unit : Nat) (detail : List Nat) : State :=
  logEv (setF s (Reg.campChStatusState c) 6) (srcCamp c) e unit detail true

/-- A DIMM that the part drives (Table 6-1, R161): an RDIMM, also 3DS, or an MRDIMM that is neither 3DS nor x8, of the die
densities, ranks, capacities and speed grades of the table. -/
def dimmOk (d : DimmSpd) : Bool :=
  [16, 24, 32].contains d.gbit && decide (1 ≤ d.pkg ∧ d.pkg ≤ 2 ∧ 16 ≤ d.gib ∧ d.gib ≤ 256) &&
  (if d.mr then ! d.x8 && d.height == 1 && [8000, 8800].contains d.mts
   else [1, 2, 4].contains d.height && [4800, 5200, 5600, 6000, 6400].contains d.mts)

/-- DIMMs of one kind: type, device width, die density, rank organisation, capacity and speed grade (R162). -/
def dimmAlike (a b : DimmSpd) : Bool :=
  a.mr == b.mr && a.x8 == b.x8 && a.gbit == b.gbit && a.pkg == b.pkg && a.height == b.height && a.gib == b.gib && a.mts == b.mts

/-- The DIMMs of a channel: one, or two RDIMMs, all alike, of at most 16 logical ranks (R161, R162). -/
def dimmsOk (x : CampCh) : Bool :=
  (x.dimms == 1 || (x.dimms == 2 && ! x.one.mr)) && x.spd.all (fun d => dimmOk d && dimmAlike d x.one) && decide (x.ranks ≤ 16)

/-- The transfer rate: the speed grade, at most 5,600 MT/s with two DIMMs on a channel (R162). -/
def chRate (x : CampCh) : Nat := if x.dimms = 2 then min x.one.mts 5600 else x.one.mts

/-- CAMP_CHnn_STATUS shows a channel's population. -/
def showCh (s : State) (c : Nat) (x : CampCh) : State :=
  let s := setF (setF (setF s (Reg.campChStatusRate c) (chRate x / 400)) (Reg.campChStatusDimms c) x.dimms) (Reg.campChStatusRanks c) x.ranks
  setB (setB s (Reg.campChStatusType c) x.one.mr) (Reg.campChStatusWidth c) x.one.x8

/-- T1: the population is stored, if the part drives it and it is the same as on the channels found before (R162); markings of a replaced DIMM
are cleared (R234). -/
def trainT1 (s : State) (c : Nat) (x : CampCh) : State :=
  let alike := s.camp.ch.all fun y => y.1 == c || y.2.dimms == 0 || chState s y.1 == 6 ||
    (y.2.dimms == x.dimms && dimmAlike y.2.one x.one)
  let s := setCampCh s c { x with stage := 2 }
  let s := showCh s c x
  let s := { s with code.marked := s.code.marked.filter fun m => m.1 / 32 != c || m.2.2 == dimmSerial s c (m.1 % 16) }
  if ¬ dimmsOk x ∨ ¬ alike then trainFailed s c .campPopulation noUnit [c, x.dimms, x.one.gib, x.ranks, x.one.mts] else s

/-- A rank group has passed or failed T5. -/
def trainT5 (s : State) (c g : Nat) (ok : Bool) : State :=
  let x := campCh s c
  if ok then
    if g + 1 < x.groups then setCampCh s c { x with stage := if x.reinit || x.selfRef then 5 else 4, group := g + 1, retried := false }
    else if x.reinit then
      rungOk (setF (setCampCh s c { x with stage := 0, group := 0, retried := false, reinit := false }) (Reg.campChStatusState c) 2) (fnKey 2 c)
    else setCampCh s c { x with stage := 6, retried := false }
  else if x.reinit then rung2Again s (fnKey 2 c)
  else if x.retried then trainFailed (setCampCh s c { x with failed := x.failed ++ [g], stage := 0 }) c .rankFailed g [c, g]
  else setCampCh s c { x with stage := 4, retried := true }

/-- Hard repair of a pending row: its frames go back to the pool, or stay retired for good. -/
def rowRepaired (s : State) (c bank row : Nat) (ok : Bool) : State :=
  let key := row * 16384 + bank
  if ! s.camp.pendingRows.contains key then s
  else
    let s := { s with camp.pendingRows := s.camp.pendingRows.filter (· != key), cairn.pendingRows := tdel s.cairn.pendingRows key }
    if ok then
      -- a frame of another pending or permanent row stays retired
      let left := s.camp.retired.map fun x => (x.1, x.2.filter (· != key))
      let s := { s with camp.retired := left.filter fun x => ! x.2.isEmpty }
      let s := setF s (Reg.campChStatusRetiredFrames c) (min 65535 (retiredOn s c))
      logEv s (srcCamp c) .rowRepaired (bank / 32 % 16) [bank, row]
    else logEv { s with camp.permanent := s.camp.permanent ++ [key] } (srcCamp c) .rowPermanent (bank / 32 % 16) [bank, row]

/-- A stage of Table 6-6 ends: the next begins. Hard repair runs at cold starts and restarts only (R457). A result that does not fit the stage in progress changes nothing. -/
def trainStage (s : State) (c : Nat) (res : TrainResult) : State :=
  let x := campCh s c
  let st := chState s c
  let go := st == 1 || (st == 3 && x.reinit)
  if ! go then s
  else match res with
  | .t1 dimms =>
    if x.stage = 1 then trainT1 s c { x with spd := dimms, dimm := 0, group := 0, retried := false, failed := [] } else s
  | .t2 d => if x.stage = 2 ∧ x.dimm = d then setCampCh s c { x with stage := 3 } else s
  | .t3 d =>
    if x.stage = 3 ∧ x.dimm = d then
      setCampCh s c (if d + 1 < x.dimms then { x with stage := 2, dimm := d + 1 } else { x with stage := 4, group := 0 })
    else s
  | .t4 g => if x.stage = 4 ∧ x.group = g then setCampCh s c { x with stage := 5 } else s
  | .t5 g ok => if x.stage = 5 ∧ x.group = g then trainT5 s c g ok else s
  | .ppr bank row ok => if x.stage = 6 ∧ bank / 1024 = c ∧ ¬ x.selfRef then rowRepaired s c bank row ok else s
  | .t6 =>
    if x.stage = 6 ∧ (x.selfRef ∨ ¬ (s.camp.pendingRows.any fun k => k % 16384 / 1024 == c)) then
      let s := { s with camp.rank := s.camp.rank.filter fun r => r.1 / 32 != c, camp.open_ := s.camp.open_.filter fun b => b.1 / 1024 != c }
      setF (setCampCh s c { x with stage := 0, selfRef := false }) (Reg.campChStatusState c) 2
    else s

/-! ## Moves off retired frames (R191) -/

/-- A slab has been copied into its new frame: its entry names it from now on. -/
def frameMoved (s : State) (n : Nat) : State :=
  match tget s.camp.moves n with
  | none => s
  | some f =>
    let s := dropJobs { s with camp.moves := tdel s.camp.moves n } (· == .move n)
    let x := slabOf s n
    if x.st.resident then
      -- reads that have translated to the old frame hold it until their release points (R148, R191)
      let s := match readersOf s n with
        | [] => s
        | l => { s with range.leaving := s.range.leaving ++ [(n, x.frame, l)] }
      -- the lines go to the new frame through the mover's camp port
      campLines (setSlab s n { x with frame := f }) true .mover 1 (span (n * 256) (n * 256 + 256))
    else s

end Sys2Proof.Machine
end

