-- ==== Sys2Proof/Machine/CampRows.lean ====
section
/-! DEFINITION. Meanings of the camp commands (6). -/

namespace Sys2Proof.Machine

/-- DDR_COMMAND_ISSUE (R169). -/
def execDdrCommandIssue (ch sub : Nat) (s : State) : Out := needs (wfDdrCommandIssue ch sub) s (ddrIssue s (ch * 2 + sub))

/-- CAMP_READ_DONE (R232): a channel that is not in service reads nothing. -/
def execCampReadDone (cpa : Nat) (word : Bytes) (_ : CampPort) (s : State) : Out :=
  needs (wfCampReadDone cpa word) s (if chState s (campLoc s cpa).ch == 2 then runAll (wordRead s cpa word false) else s)

/-- WHISTLE_LONG (R172). -/
def execWhistleLong (port : CampPort) (s : State) : Out := needs true s (whistleLong s port)

/-- REFRESH_INTERVAL: both subchannels' ranks owe one more interval (R175). -/
def execRefreshInterval (ch rank : Nat) (s : State) : Out :=
  needs (wfRefreshInterval ch rank) s (
    if chState s ch == 2 && decide (rank < (campCh s ch).ranks) then
      [ch * 2, ch * 2 + 1].foldl (fun s k =>
        let r := rankSt s (k * 16 + rank)
        setRank s (k * 16 + rank) { r with debt := r.debt + 1 }) s
    else s)

/-- MR4_POLL: the rate reported holds from the next interval (R177). -/
def execMr4Poll (ch rank : Nat) (double : Bool) (s : State) : Out :=
  needs (wfMr4Poll ch rank) s (
    if chState s ch == 2 && decide (rank < (campCh s ch).ranks) then
      let s := [ch * 2, ch * 2 + 1].foldl (fun s k =>
        let s := issue s k (.mrr rank)
        setRank s (k * 16 + rank) { rankSt s (k * 16 + rank) with x2 := double }) s
      setB s (Reg.campChStatusRef2x ch) (s.camp.rank.any fun r => r.1 / 32 == ch && r.2.x2)
    else s)

/-- DIMM_TEMP_POLL: the hot limit of the channel (R179). -/
def execDimmTempPoll (ch dimm tempC : Nat) (s : State) : Out :=
  needs (wfDimmTempPoll ch dimm tempC) s (
    let x := campCh s ch
    let lim := getF s Reg.campRefCfgDimmHotC
    if decide (dimm < x.dimms) then
      if decide (lim ≤ tempC) && ! x.hotDimms.contains dimm then
        logEv (setB (setCampCh s ch { x with hotDimms := x.hotDimms ++ [dimm] }) (Reg.campChStatusHot ch) true) (srcCamp ch) .campHot dimm [ch, tempC] true
      else if decide (tempC + 5 ≤ lim) then
        let l := x.hotDimms.filter (· != dimm)
        setB (setCampCh s ch { x with hotDimms := l }) (Reg.campChStatusHot ch) (! l.isEmpty)
      else s
    else s)

/-- RFG_WINDOW_CLEAR: every sampled count is 0 again (R180). -/
def execRfgWindowClear (s : State) : Out :=
  needs true s (
    let zero (b : BankSt) : BankSt := { b with rows := b.rows.map fun r => { r with count := 0, found := false } }
    { s with camp.bank := s.camp.bank.map fun b => (b.1, zero b.2) })

/-- RFG_TOKEN: a bucket gains a token, up to its depth (R181). -/
def execRfgToken (b i : Nat) (s : State) : Out :=
  needs (wfRfgToken b i) s (
    let x := bankSt s b
    if thas x.thr i then setBank s b { x with thr := tmod x.thr i fun t => { t with tokens := min t.bucket (t.tokens + 1) } } else s)

/-- RFG_HOLD_EXPIRY: the throttle ends (R181). -/
def execRfgHoldExpiry (b i : Nat) (s : State) : Out :=
  needs (wfRfgHoldExpiry b i) s (
    let x := bankSt s b
    match tget x.thr i with
    | some t => setBank (reach s t.until_) b { x with thr := tdel x.thr i }
    | none => s)

/-- CAMP_TRAIN_STAGE_DONE (R184). -/
def execCampTrainStageDone (ch : Nat) (res : TrainResult) (s : State) : Out := needs (wfCampTrainStageDone ch) s (trainStage s ch res)

/-- ZQ_TIMER: ZQ calibration of every rank in service (R186). -/
def execZqTimer (s : State) : Out :=
  needs true s (
    (List.range 32).foldl (fun s k =>
      if chState s (k / 2) == 2 then (ranksOf s k).foldl (fun s rk => issue s k (.zq (rk % 16))) s else s) s)

/-- DQSOSC_READ: drift beyond RETRAIN_PS since the last centring starts write centring; within it, centring is done (R186). -/
def execDqsoscRead (ch rank driftPs : Nat) (s : State) : Out :=
  needs (wfDqsoscRead ch rank) s (
    if chState s ch == 2 && decide (rank < (campCh s ch).ranks) then
      let keys := [ch * 32 + rank, ch * 32 + 16 + rank]
      if getF s Reg.campRefCfgRetrainPs < driftPs then
        logEv (keys.foldl centreRank s) (srcCamp ch) .rankCentring rank [driftPs]
      else { s with camp.centring := keys.foldl tdel s.camp.centring, camp.urgent := s.camp.urgent.filter fun k => ! keys.contains k }
    else s)

/-- CENTRING_ESCALATION: 10 ms have passed, so the remaining slices take rank 1 (R186). -/
def execCentringEscalation (ch rank : Nat) (s : State) : Out :=
  needs (wfCentringEscalation ch rank) s (
    [ch * 32 + rank, ch * 32 + 16 + rank].foldl (fun s k => match tget s.camp.centring k with
      | some t =>
        let s := reach s (t + ms 10)
        { s with camp.urgent := if s.camp.urgent.contains k then s.camp.urgent else s.camp.urgent ++ [k] }
      | none => s) s)

/-- FRAME_MOVE_DONE (R191). -/
def execFrameMoveDone (slab : Nat) (s : State) : Out := needs (wfFrameMoveDone slab) s (frameMoved s slab)

end Sys2Proof.Machine
end

