-- ==== Sys2Proof/Machine/Fabric.lean ====
section
/-! DEFINITION. Meanings of the fabric commands (2): core voltage, clock loss, stalls, power domains. -/

namespace Sys2Proof.Machine

/-! ## Core voltage (R25 to R28) -/

/-- FAB_VCORE_REQ_WRITE: REQ changes, or RANGE_ERR is set (R25). -/
def execFabVcoreReqWrite (off : Nat) (data : Bytes) (s : State) : Out :=
  needs (wfFabVcoreReqWrite off data) s (onWindow s fun s => windowReg s off data)

/-- AVS_STEP_ACK: acknowledged, and the read-back within 10 mV of the step, so the next one may go (R27). -/
def execAvsStepAck (mv : Nat) (s : State) : Out :=
  needs (wfAvsStepAck mv) s (match s.fab.avsSent with
    | some n =>
      let s := setF s Reg.fabVcoreReadbackMv mv
      if 620 + 5 * n ≤ mv + 10 ∧ mv ≤ 620 + 5 * n + 10 then avsNext { s with fab.avsSent := none, fab.avsAcked := n, fab.avsTries := 0 }
      else s
    | none => s)

/-- AVS_ACK_TIMEOUT: sent again up to 3 times, then the last acknowledged target is held (R28). -/
def execAvsAckTimeout (s : State) : Out :=
  needs true s (match s.fab.avsSent with
    | some n =>
      if s.fab.avsTries < 3 then { s with fab.avsTries := s.fab.avsTries + 1, fab.avsLog := s.fab.avsLog ++ [n] }
      else
        let s := { s with fab.avsSent := none, fab.avsTries := 0 }
        logEv (setF (setB s Reg.fabVcoreAvsFault true) Reg.fabVcoreTarget s.fab.avsAcked) srcFab .avsFault noUnit [s.fab.avsAcked]
    | none => s)

/-- AVS_READBACK: outside 0.60–0.88 V it is a rail fault of the VDD_CORE rail (R28). -/
def execAvsReadback (mv : Nat) (s : State) : Out :=
  needs (wfAvsReadback mv) s (
    let s := setF s Reg.fabVcoreReadbackMv mv
    if mv < 600 then railFault s (Config.coreRail % 24) 4
    else if 880 < mv then railFault s (Config.coreRail % 24) 5
    else s)

/-! ## Clocks (R30) -/

/-- SYS_REFCLK_LOSS: the internal oscillator counts, CLK_LOSS is set, a Lead with a Second fences and departs. -/
def execSysRefclkLoss (s : State) : Out :=
  needs true s (
    if ! s.fab.refOk then s
    else
      let s := setB (setB { s with fab.refOk := false } Reg.fabTbStatusClkLoss true) Reg.fabTbStatusOsc true
      let s := logEv s srcFab .clkLoss noUnit []
      if hasSecond s then departFenced s else s)

/-- SYS_REFCLK_RESTORED: present for 1 ms, so CLK_LOSS may be cleared. -/
def execSysRefclkRestored (s : State) : Out :=
  needs true s (setB { s with fab.refOk := true } Reg.fabTbStatusOsc false)

/-! ## Stall watchdogs (R34, R35) -/

/-- A channel of a domain: domain + 128 × channel. -/
def stuckKey (x : Nat × Nat) : Nat := x.1 + 128 * x.2

/-- A handshake past the threshold: FAB_STALL, record, notification, and rung 2 of the domain's functions. -/
def stalled (s : State) (k : Nat) : State :=
  let d := k % 128
  let s := putF { s with fab.stuck := s.fab.stuck.filter fun x => x.1 % 128 != d } (Reg.fabStallMap (d / 64)) (d % 64) true
  (domainFns s d).foldl (fun s f => rung2 s f true) (logEv s srcFab .stall noUnit [d, k / 128] true)

/-- STALL_WDOG_SAMPLE: channels marked at this sample, in powered domains other than PD0, count up; the others start again. -/
def execStallWdogSample (stuck : List (Nat × Nat)) (s : State) : Out :=
  needs (wfStallWdogSample stuck) s (
    let l := ((stuck.filter fun x => x.1 != 0 && domOn s x.1).map stuckKey).eraseDups
    let counts := l.foldl (fun t k => tset t k (tcnt s.fab.stuck k + 1)) []
    let s := { s with fab.stuck := counts }
    let late := (counts.filter fun x => getF s (Reg.fabWdogThresh) ≤ x.2).map (·.1)
    late.foldl (fun s k => if thas s.fab.stuck k then stalled s k else s) s)

/-! ## Automatic gating and inrush (R39, R40) -/

/-- Domains gated automatically. -/
def autoGated (d : Nat) : Bool := decide (90 ≤ d ∧ d ≤ 109)

/-- Whether a gated domain has work: cipher requests, check-value contexts in use, jobs on its movers. -/
def domBusy (s : State) (d : Nat) : Bool :=
  if d ≤ 97 then ! s.key.queue.isEmpty
  else if d ≤ 101 then s.key.ctx.any (·.2.busy)
  else s.range.movers.any fun x => x.1 / 8 == d - 102

/-- PD_IDLE_GATE. -/
def execPdIdleGate (d : Nat) (s : State) : Out :=
  needs (wfPdIdleGate d) s (
    if autoGated d && getF s Reg.fabPdIdleTime != 0 && domOn s d && ! domBusy s d then setDom s d false else s)

/-- What a domain's content does when it is powered up: what waited for a pipeline or unit goes on: a port's sub-ports train, a guide starts anew, a way
is in use. -/
def domStarts (s : State) (d : Nat) : State :=
  if 1 ≤ d ∧ d ≤ 8 then
    (modeSubs (getF s (Reg.hpPortCfgMode (d - 1)))).foldl (fun s k => setSub s (4 * (d - 1) + k) subTraining) s
  else if 10 ≤ d ∧ d ≤ 41 then setLadFn s (fnKey 3 (d - 10)) { ladFn s (fnKey 3 (d - 10)) with held := false }
  else if 42 ≤ d ∧ d ≤ 57 then putF s Reg.sumStatusWaysOn (d - 42) true
  else if 90 ≤ d ∧ d ≤ 101 then workWakes s
  else s

/-- A domain powers up, if fewer than 4 did within 10 µs and no lower-numbered one waits; else it waits in domain order. -/
def powerUp (s : State) (d : Nat) : State :=
  if (recentUps s).length < 4 ∧ s.fab.wakeQ.all (fun e => decide (d ≤ e)) then
    domStarts (setDom { s with fab.ups := recentUps s ++ [s.timebase], fab.wakeQ := s.fab.wakeQ.filter (· != d) } d true) d
  else if s.fab.wakeQ.contains d then s
  else { s with fab.wakeQ := insertBy (fun a b => decide (a ≤ b)) d s.fab.wakeQ }

/-- PD_WAKE: a gated domain that is not held off wakes. -/
def execPdWake (d : Nat) (s : State) : Out :=
  needs (wfPdWake d) s (if autoGated d && ! domOn s d && ! (ladFn s (fnKey 8 d)).held then powerUp s d else s)

/-- PD_POWER_UP_GRANT: the lowest-numbered domain that waits takes its turn. -/
def execPdPowerUpGrant (d : Nat) (s : State) : Out :=
  needs (wfPdPowerUpGrant d) s (match s.fab.wakeQ with
    | e :: _ => if e = d then powerUp s d else s
    | [] => s)

/-- PMB_ALERT: the fabric pitch log (R490). -/
def execPmbAlert (s : State) : Out := needs true s (pitchEv s srcFab .pmbAlert)

end Sys2Proof.Machine
end

