-- ==== Sys2Proof/Machine/Valley.lean ====
section
/-! DEFINITION. Events of the valley (7): reads and their decode levels, programs, erases, the read-verify pass; and the
cairn ROM service. -/

namespace Sys2Proof.Machine

/-! ## Reads (R202, R209 to R212) -/

/-- A level at or above L2, and the correction bits that count at L0. -/
def levelNum : DecodeLevel → Nat
  | .l0 => 0
  | .l1 => 1
  | .l2 => 2
  | .l3 => 3
  | .l4 => 4
  | .failed => 5

/-- Adds a codeword read to a die's hours. -/
def histAdd (s : State) (d : Die) (soft : Bool) : Die :=
  let h := s.timebase / sec 3600
  let x := (tget d.hist h).getD (0, 0)
  { d with hist := tset (d.hist.filter fun y => decide (h < y.1 + 24)) h (x.1 + 1, x.2 + (if soft then 1 else 0)) }

/-- The level at which a page is delivered: on a failed die or a channel that re-initialises the read begins at L4 (R212), and L4
needs every other page of the stripe (R202). -/
def levelReached (s : State) (v : Nat) (level : DecodeLevel) : DecodeLevel :=
  if dieDown s (vDie v) then (if stripeSound s v && level != .failed then .l4 else .failed)
  else if level == .l4 && ! stripeSound s v then .failed
  else level

/-- A codeword of a die's block has been read: die and block counts; a second L4 rebuild within a verify pass retires the block
(R211); the indicators are checked. -/
def blockRead (s : State) (b : Nat) (level : DecodeLevel) (bits : Nat) : State :=
  let soft := decide (2 ≤ levelNum level)
  let d := histAdd s (dieOf s (blockDie b)) soft
  let s := setDie s (blockDie b) { d with bits0 := if levelNum level = 0 then d.bits0 + bits else d.bits0 }
  let x := blockOf s b
  let s := setBlock s b { x with
    soft := if soft then x.soft + 1 else x.soft, l4 := if levelNum level = 4 then x.l4 + 1 else x.l4 }
  let s := if levelNum level = 4 ∧ 1 ≤ x.l4 && ! isSys s b then retireBlock s b else s
  wearCheck s (blockDie b)

def readCounted (s : State) (v : Nat) (level : DecodeLevel) (bits : Nat) : State := blockRead s (vBlock s v) level bits

/-- Lines of a page that cannot be read any more: lost where the valley holds the slab, else only those whose repair
asked the page (R202, Table 8-8). -/
def pageLost (s : State) (v lo n : Nat) : State :=
  match slabAt s v with
  | some m =>
    let inCamp := (slabOf s m).st.resident
    (span (m * 256 + lo) (m * 256 + lo + n)).foldl (fun s l =>
      if ! inCamp then lostInValley s l
      else if tget s.code.repairing l == some 2 then repairDone s l none
      else s) s
  | none => s

/-- A channel that re-initialises has answered (R212). -/
def channelAnswers (s : State) (c : Nat) : State :=
  if getF s (Reg.valNvStatusState c) = 3 then rungOk (setF s (Reg.valNvStatusState c) 2) (fnKey 6 c) else s

/-- VALLEY_READ_DONE for codeword `cw` of a page. -/
def valleyRead (s : State) (v cw : Nat) (lv : DecodeLevel) (bits : Nat) : State :=
  let level := levelReached s v lv
  let s := readCounted s v level bits
  let s := if levelNum level < 4 then channelAnswers s (vCh v) else s
  if levelNum level = 5 then runAll (pageLost s v (cw * 64) 64) else s

/-- Programmed pages of a system area: journal, logbook and table-log rings, and the root on its channels. -/
def slcUsed (s : State) : Nat :=
  s.val.jrnl.length + s.log.area.length + s.val.tlog.length + (s.val.rootMedia.map fun x => x.2.length).sum

/-- Pages that the read-verify pass must visit: the valid ones, parity pages and SLC areas included (R209). -/
def passPages (s : State) : Nat := s.val.pages.countP (pageLive s) + slcUsed s

/-- The pass has read a page; it begins again after the last, with the VERIFY_DAYS that then stand (R209, R229). -/
def verifyNext (s : State) (p : VerifyPage) : State :=
  let l := if s.val.verified.contains p then s.val.verified else s.val.verified ++ [p]
  if passPages s ≤ l.length then
    setF { s with val.verified := [], val.verifyAt := max s.timebase (s.val.verifyAt + s.val.verifyDays * sec 86400),
                  val.verifyDays := getF s Reg.valCfgVerifyDays, val.blocks := s.val.blocks.map fun b => (b.1, { b.2 with l4 := 0 }) }
      Reg.valWearStatusVerifyPassPct 0
  else setF { s with val.verified := l } Reg.valWearStatusVerifyPassPct (l.length * 100 / passPages s)

/-- The time by which the pass reads its next page, so that it takes its whole period (R209; log entry 135). -/
def verifyDue (s : State) : Nat := s.val.verifyAt + s.val.verifyDays * sec 86400 * s.val.verified.length / max 1 (passPages s)

/-- What a read of the pass showed: a page that needed more than L0, or too many bits, is relocated; one that needed L4 is rebuilt
into a new page (R209). -/
def verifyFound (s : State) (v : Nat) (level : DecodeLevel) (bits : Nat) : State :=
  if levelNum level = 5 then runAll (pageLost s v 0 256)
  else if 1 ≤ levelNum level ∨ getF s Reg.valCfgRefreshBits < bits then relocate s v
  else s

/-- The codewords of a page are read: each of the four counts. -/
def pageRead (s : State) (b : Nat) (level : DecodeLevel) (bits : Nat) : State :=
  blockRead ((List.range 3).foldl (fun s _ => blockRead s b (if levelNum level = 4 then .l3 else level) 0) s) b level bits

/-- One read of the read-verify pass, at rank 3 of its die. A page of an SLC-mode block is read likewise; the system's rings and the
root are programmed anew as they go, so that it is not moved by itself (log entry 135). -/
def verifyRead (s : State) (p : VerifyPage) (lv : DecodeLevel) (bits : Nat) : State :=
  match p with
  | .tlc v =>
    match tget s.val.pages v with
    | none => s
    | some x =>
      if ! pageLive s (v, x) then s
      else
        let level := levelReached s v lv
        let s := pageRead (reach s (verifyDue s)) (vBlock s v) level bits
        let s := if levelNum level < 4 then channelAnswers s (vCh v) else s
        verifyNext (verifyFound s v level bits) p
  | .slc b n =>
    if ! isSys s b || decide (slcPages s ≤ n) then s
    else
      let s := pageRead (reach s (verifyDue s)) b lv bits
      verifyNext (if levelNum lv < 4 then channelAnswers s (b % 32) else s) p

/-! ## Programs and erases (R206 to R213, R219) -/

/-- A page leaves the list of those to be rebuilt. -/
def rebuilt (s : State) (v : Nat) : State :=
  let l := s.val.rebuild.filter (· != v)
  setB { s with val.rebuild := l } Reg.valWearStatusRebuildActive (! l.isEmpty)

/-- A relocated page is programmed: the slab's VLOC moves, unless a write or trim released the old page first; a promotion that
reads the old page holds its block (Table 7-12). -/
def relocated (s : State) (n frm v : Nat) (pg : Page) : State :=
  let s := joinStripe (putPage s v pg) v
  let x := slabOf s n
  let s := if x.vloc = some frm then
      let s := if x.st == .promoting then { s with val.moved := s.val.moved ++ [(n, vBlock s frm)] } else s
      journal (setSlab s n { x with vloc := some v, pois := s.range.poison.any (· / 256 == n) }) n
    else s
  reclaim (retireDone (rebuilt s frm) (vBlock s frm))

/-- A program's time is kept for its die (Table 7-5). -/
def programTimed (s : State) (v pct : Nat) : State :=
  let d := dieOf s (vDie v)
  setDie s (vDie v) { d with progPct := lastK 1024 d.progPct pct, progs := d.progs + 1 }

/-- A stripe is left without a parity page: its data pages are relocated (log entry 132). -/
def stripeGone (s : State) (st : Nat) : State :=
  let s := { s with val.stripes := tdel s.val.stripes st }
  ((stripeVlocs st).filter (pageValid s)).foldl relocate s

/-- What a program wrote. A failed relocation starts again; a failed parity page leaves its stripe without one. A destage's
page is installed by its own commands; one whose slab has left DESTAGING meanwhile is programmed for nothing. -/
def programEnds (s : State) (v : Nat) (ok : Bool) (k : ProgKind) : State :=
  match k with
  | .destage n pg =>
    if (slabOf s n).target = some v then s else if ok then joinStripe (putPage s v pg) v else progGone s v
  | .relocate n frm pg =>
    if ok then relocated s n frm v pg
    else
      let s := relocate (retireBlock (progGone s v) (vBlock s v)) frm
      if (slabAt s frm).isSome then s else rebuilt s frm
  | .parity st => if ok then endStripe (progGone s v) st else stripeGone (progGone s v) st

/-- A block whose program or erase failed, or took more than 200 % of its baseline, is retired (R211). -/
def slowOrFailed (s : State) (b : Nat) (ok : Bool) (pct : Nat) : State :=
  if ! ok || decide (200 < pct) then retireBlock s b else s

/-- VALLEY_PROGRAM_DONE, of the program that the die has in progress; a READ that waited for its end goes on (R204). -/
def programDone (s : State) (v : Nat) (ok : Bool) (pct : Nat) : State :=
  match (if progRuns s v then tget s.val.progs v else none) with
  | none => s
  | some k =>
    let s := programTimed s v pct
    let s := if ok then channelAnswers s (vCh v) else s
    let s := wearCheck (slowOrFailed (programEnds s v ok k) (vBlock s v) ok pct) (vDie v)
    runAll (opCheck (reclaim s))

/-- An erase's time is kept for its die. -/
def eraseTimed (s : State) (b pct : Nat) : State :=
  let d := dieOf s (blockDie b)
  setDie s (blockDie b)
    { d with erasePct := lastK 256 d.erasePct pct, erases := d.erases + 1 }

/-- The erase-done record of a block: its pages are gone if the erase held (R219). -/
def eraseEnds (s : State) (b : Nat) (ok : Bool) : State :=
  let x := blockOf s b
  let s := match x.intent with | some n => intentDone s n | none => s
  let s := dieEnd { s with
    val.pages := if ok then s.val.pages.filter fun p => vBlock s p.1 != b else s.val.pages,
    val.torn := if ok then s.val.torn.filter fun v => vBlock s v != b else s.val.torn } (blockDie b) (.erase b)
  setBlock s b { x with erases := x.erases + 1, intent := none, erased := ok }

/-- VALLEY_ERASE_DONE, of the erase that the die has in progress. -/
def eraseDone (s : State) (b : Nat) (ok : Bool) (pct : Nat) : State :=
  if (blockOf s b).intent.isNone || (dieOf s (blockDie b)).run != some (.erase b) then s
  else
    let s := slowOrFailed (eraseEnds (eraseTimed s b pct) b ok) b ok pct
    runAll (opCheck (levelWear (wearCheck s (blockDie b)) (blockDie b)))

/-! ## The cairn ROM service (R223 to R226, R295) -/

/-- The bank that runs, once the boot ROM has accepted one. -/
def bankRunning (s : State) : Option Nat :=
  if isSet s Reg.fabStartStatusRecovery || decide (getF s Reg.fabStartStatusStage ≤ 4) then none
  else some (getF s Reg.fabStartStatusBank)

/-- The bank that a cairn offset lies in. -/
def bankAt (off : Nat) : Option Nat := if off < 0x600000 then some 0 else if off < 0xC00000 then some 1 else none

/-- Calibration row, or a bank that is running (Table 7-11). -/
def csProtected (s : State) (off : Nat) : Bool :=
  decide (0xFF0000 ≤ off) || (match bankAt off with | some b => bankRunning s == some b | none => false)

def bankOf (s : State) (b : Nat) : Bank := if b = 0 then s.cairn.bankA else s.cairn.bankB
def setBank2 (s : State) (b : Nat) (x : Bank) : State :=
  if b = 0 then { s with cairn.bankA := x } else { s with cairn.bankB := x }

def csStatus (s : State) (v : Nat) : State := { s with cairn.status := v }

/-- The end of an erase or program of a sector after `tries` failed tries of at most `max`: it held, was remapped to a
spare sector, or no spare is left (R225). -/
def csEnd (s : State) (sector tries max : Nat) : State :=
  if tries ≤ max then csStatus { s with cairn.weak := s.cairn.weak.filter (· != sector) } 0
  else
    let n := getF s Reg.valCairnStatusSparesLeft
    if n = 0 then csStatus { s with cairn.weak := if s.cairn.weak.contains sector then s.cairn.weak else s.cairn.weak ++ [sector] } 2
    else
      let s := csStatus (setF { s with
        cairn.remapped := s.cairn.remapped ++ [sector], cairn.weak := s.cairn.weak.filter (· != sector) } Reg.valCairnStatusSparesLeft (n - 1)) 1
      if n - 1 < 8 ∧ ¬ s.cairn.lowWarned then
        logEv { s with cairn.lowWarned := true } srcCairn .cairnSpares noUnit [n - 1] true
      else s

/-- The configuration copy or flush image whose header and commit row stand in a sector; without a commit row it is not valid
(R226, R507). -/
def areaLost (s : State) (sector : Nat) : State :=
  if sector = cfgSector 0 then { s with cairn.cfg0 := s.cairn.cfg0.map fun c => { c with committed := false } }
  else if sector = cfgSector 1 then { s with cairn.cfg1 := s.cairn.cfg1.map fun c => { c with committed := false } }
  else { s with cairn.images := s.cairn.images.map fun i => if flushSector (i.seq % 6) = sector then { i with committed := false } else i }

/-- CS_ERASE: the sector's rows read all ones; a bank that loses a sector is no longer committed, nor a configuration copy or flush
image that loses its commit row. -/
def csErase (s : State) (sector tries : Nat) : State :=
  if 4096 ≤ sector then csStatus s 4
  else if csProtected s (sector * 4096) then csStatus s 3
  else
    let s := sectorsErased { s with cairn.rows := s.cairn.rows.filter fun r => r.1 / 16 != sector } sector 1
    let s := match bankAt (sector * 4096) with
      | some b => setBank2 s b { bankOf s b with committed := false }
      | none => areaLost s sector
    csEnd s sector tries 3

/-- CS_PROGRAM of a 256-byte row; one that does not verify, with no spare left, stores nothing that can be relied on. -/
def csProgram (s : State) (off : Nat) (data : Bytes) (tries : Nat) : State :=
  if off % 256 ≠ 0 ∨ 0x1000000 ≤ off then csStatus s 4
  else if csProtected s off then csStatus s 3
  else
    let s := csEnd s (off / 4096) tries 4
    if s.cairn.status = 2 then { s with cairn.rows := tdel s.cairn.rows (off / 256) }
    else { s with cairn.rows := tset s.cairn.rows (off / 256) data }

/-- CS_VERIFY: the margin read's digest against the one given. -/
def csVerify (s : State) (off len : Nat) (digest readback : Bytes) : State :=
  if 0x1000000 < off + len then csStatus s 4
  else csStatus s (if readback.length = len ∧ sha384 readback = digest then 0 else 5)

/-- CS_COMMIT: an area whose check fails is not committed (log entry 53). -/
def csCommit (s : State) (area : CairnArea) (crcOk : Bool) : State :=
  match area with
  | .bank n =>
    if 2 ≤ n then csStatus s 4
    else if bankRunning s = some n then csStatus s 3
    else if crcOk then csStatus (setBank2 s n { bankOf s n with committed := true }) 0
    else csStatus s 5
  | .config c =>
    if 2 ≤ c then csStatus s 4
    else if ! crcOk then csStatus s 5
    else if c = 0 then csStatus { s with cairn.cfg0 := s.cairn.cfg0.map fun x => { x with committed := true } } 0
    else csStatus { s with cairn.cfg1 := s.cairn.cfg1.map fun x => { x with committed := true } } 0
  | .flush i =>
    if 6 ≤ i then csStatus s 4
    else if ! crcOk then csStatus s 5
    else csStatus { s with cairn.images := s.cairn.images.map fun x => if x.seq % 6 = i then { x with committed := true } else x } 0

/-- The conditions of R295. eFuse keys: 72 to 75 the key hashes, 76 the revoked bits, 68 the security counter. -/
def bankOk (s : State) (i : BankImage) : Bool :=
  i.marginOk && decide (i.keyIndex < 4) && leNat (sha384 i.pubKey) == tcnt s.fuse (72 + i.keyIndex) &&
  ! bit (tcnt s.fuse 76) i.keyIndex && sha384 i.image == i.headerDigest &&
  ecdsaVerify i.pubKey (sha384 i.header) i.signature && decide (fuseSecCounter s ≤ i.secVersion)

/-- CS_BANK_VERIFY (R295). -/
def csBankVerify (s : State) (b : Nat) (i : BankImage) : State :=
  if bankOk s i then
    csStatus (setBank2 s b { bankOf s b with secVersion := i.secVersion, build := i.build }) 0
  else csStatus s 5

/-- CS_WEAR: erase counts by sector, then the spares left. -/
def csWear (s : State) : State :=
  csStatus { s with cairn.wearOut := ((List.range 4096).map (tcnt s.cairn.erases)) ++ [getF s Reg.valCairnStatusSparesLeft] } 0

end Sys2Proof.Machine
end

