-- ==== Sys2Proof/Machine/Sealing.lean ====
section
/-! DEFINITION. The cipher engine's requests, roots and self-tests (10); summit fills, evictions and way walks (9). -/

namespace Sys2Proof.Machine

/-! ## Sealed READs (R101, R289 to R291) -/

/-- A sealed READ ends with CONTENT_INTEGRITY: its chunks not yet started on the wire are discarded, no further one is sent, its cipher
requests are dropped, and the invocations that its chunks have not used go back (R290). -/
def integrityStop (s : State) (ci msn : Nat) : State :=
  match tget s.conns ci, msgOf s ci msn with
  | some c, some m =>
    let num := connNum ci c
    let mine (r : CipherReq) : Bool := match r.use with | .title k n _ => k == num && n == msn | _ => false
    let s := { s with key.queue := s.key.queue.filter fun r => ! mine r }
    let mine (o : OutMsg) : Bool := o.ty == tyReadResp && o.msn == msn
    let used := cdiv (((c.respQ.find? mine).map (·.sent)).getD 0) c.unit
    let s := modConn s ci fun c => { c with respQ := c.respQ.filter fun o => ! mine o }
    let s := (c.paths.map (·.1)).foldl (fun s k => discardChunks s ci k msn) s
    let s := modMsg s ci msn fun m => { m with units := [], payload := none, inv := m.inv - used }
    endMsg s ci msn (.comp csContentIntegrity (compFlags false m.fault m.throttled))
  | _, _ => s

/-- The unit and its tag of a published slab are fetched from the twin (R291). -/
def refetchUnit (s : State) (o : Obj) (si : SealInfo) (u : Nat) : State :=
  let line := (o.base + u * 4096) / 64
  if repairFetchOk s (line / 256) then
    let tag := tagAddr o si u / 64
    let s := (linesOf (o.base + u * 4096) (unitLen si.dataLen u)).foldl
      (fun s l => { s with code.repairing := tset s.code.repairing l 4 }) s
    askTwin (askTwin s true line) true tag
  else s

/-- A title decrypt has ended, with the tag of its unit and without a fault (`ok`) or not: with the last unit verified the
READ's data may all leave; a failed tag stops the READ, is counted and logged, and the unit goes to repair fetch (R290, R291). -/
def titleDone (s : State) (slot num msn u : Nat) (ok : Bool) : State :=
  let ci := connIdx num
  match connOf s num, msgOf s ci msn with
  | some _, some m =>
    let x := (rangeOf m.first).getD ⟨0, 0, 0⟩
    let ok := ok && (match sealAt s x.addr with
      | some (_, o, si) => unitPoisoned s o si u || (unitPlain s o si u).isSome
      | none => true)
    let s := { s with key.slots := tmod s.key.slots slot fun k =>
      { k with decrypts := k.decrypts + 1, tagFails := if ok then k.tagFails else k.tagFails + 1 } }
    if ok then
      let us := m.units.filter (· != u)
      let s := modMsg s ci msn fun m => { m with units := us }
      if us.isEmpty then
        match m.payload with
        | some (d, p) => endMsg s ci msn (.resp d p (compFlags false m.fault m.throttled))
        | none => s
      else settle s ci
    else
      let s := integrityStop s ci msn
      match sealAt s x.addr with
      | some (n, o, si) =>
        refetchUnit (logEv s srcKey .titleTag noUnit [n, u, (o.base + u * 4096) / 16384] true) o si u
      | none => s
  | _, _ => s

/-! ## Unseal into a region (R292) -/

/-- Writes a unit of an unseal, if camp can take it. A CONTENT_UNSEAL keeps the object, its first unit, the number of units,
the units done, hold mode, the range address of its destination. -/
def unsealPut (s : State) (o : Obj) (si : SealInfo) (dst first u : Nat) : State × Bool :=
  let d := unitBytes s o si u
  let a := dst + (u - first) * 4096
  if ! mayOrder s then (s, false)
  else
    let r := applyBytes s 0 a d
    if r.2 then ((orderBytes r.1 a d []).1, true) else r

/-- A unit of an unseal has been decrypted: it is written, as plaintext under the destination's own rights (R293), once camp can
take it; the last one answers OK. A failed tag
answers with the unit and the progress offset: in native mode the bytes written so far become zeros; the unit goes to repair
fetch (R291). -/
def unsealDone (s : State) (slot t u : Nat) (ok : Bool) : State :=
  let mine (r : CipherReq) : Bool := match r.use with | .unseal k _ => k == t | _ => false
  match tget s.cmd.tickets t with
  | none => s
  | some tk =>
    match tk.aux with
    | [obj, first, count, done, hold, dst] =>
      match tget s.tables.objects obj with
      | some o =>
        match o.sealed_ with
        | some si =>
          if ok && ! unitPoisoned s o si u && (unitPlain s o si u).isSome then
            let r := unsealPut s o si dst first u
            if ! r.2 then
              let q := r.1.key.queue
              { r.1 with key.queue := q.filter (fun x => ! mine x) ++ [{ slot := slot, use := .unseal t u }] ++ q.filter mine }
            else
              let s := working r.1 t [obj, first, count, done + 1, hold, dst]
              if done + 1 = count then answer s t scOk else s
          else
            let bad := unitPoisoned s o si u
            let s := if bad then s else { s with key.slots := tmod s.key.slots slot fun k => { k with tagFails := k.tagFails + 1 } }
            let s := dropJobs { s with key.queue := s.key.queue.filter fun r => ! mine r } (· == .unseal t)
            let s := if hold = 1 ∨ u = first then s else writeRange s 0 dst (zeros ((u - first) * 4096))
            let s := logEv s srcKey .titleTag noUnit [obj, u, (o.base + u * 4096) / 16384] true
            answer (if bad then s else refetchUnit s o si u) t scContentIntegrity u (leBytes 8 ((u - first) * 4096))
        | none => answer s t scDeviceFault (lastSeq s)
      | none => answer s t scDeviceFault (lastSeq s)
    | _ => s

/-- A cipher request that names a FREE slot, or one whose root is not there, fails and is logged (R282). -/
def cipherFails (s : State) (r : CipherReq) : State :=
  let s := logEv s srcKey .internalFault noUnit [r.slot]
  match r.use with
  | .title c m _ => integrityStop s (connIdx c) m
  | .unseal t _ =>
    let mine (x : CipherReq) : Bool := match x.use with | .unseal k _ => k == t | _ => false
    answer (dropJobs { s with key.queue := s.key.queue.filter fun x => ! mine x } (· == .unseal t)) t scDeviceFault (lastSeq s)

/-- CIPHER_REQUEST_DONE: the oldest request ends, unless its slot's key must first be derived again, or no pipeline is awake
(R39, R276, R281, R282). -/
def cipherDone (s : State) (ok : Bool) : State :=
  match (if cipherAwake s then s.key.queue else []) with
  | [] => s
  | r :: rest =>
    match tget s.key.slots r.slot with
    | some k =>
      if k.keyLost then (if thas s.key.roots k.root then s else cipherFails { s with key.queue := rest } r)
      else
        let s := { s with key.queue := rest }
        match r.use with
        | .title c m u => titleDone s r.slot c m u ok
        | .unseal t u => unsealDone (countUnits s r.slot 1) r.slot t u ok
    | none => cipherFails { s with key.queue := rest } r

/-! ## Roots (R272 to R274) -/

/-- Puts a root at its index; KEY_ROOT_STATUS follows. -/
def setRoot (s : State) (n : Nat) (r : Option RootKey) : State :=
  let s := { s with key.roots := tput s.key.roots n r }
  let up := match r with | some x => x.key.isSome | none => false
  let ses := match r with | some x => x.kind == 2 | none => false
  putF (putF s Reg.keyRootStatusLoaded n up) Reg.keyRootStatusSession n (up && ses)

/-- A stored blob is unwrapped; a failure leaves its index absent, sets ABSENT_ERR and is logged (R274). -/
def loadBlob (s : State) (n : Nat) (b : Bytes) : State :=
  match unwrapRoot s b with
  | some (_, r) => setRoot s n (some r)
  | none => logEv (putF (setRoot s n none) Reg.keyRootStatusAbsentErr n true) srcKey .rootAbsent noUnit [n]

/-- A root is lost to an uncorrectable word: absent until it is unwrapped again. -/
def rootLost (s : State) (n : Nat) : State :=
  match tget s.key.roots n with
  | some r => setRoot s n (some { r with key := none })
  | none => s

/-- ROOT_REUNWRAP: within 1 ms of the loss. -/
def reunwrap (s : State) (n : Nat) : State :=
  match tget s.key.roots n, tget s.key.blobs n with
  | some r, some b => if r.key.isNone then runAll (loadBlob s n b) else s
  | _, _ => s

/-- KEY_DERIVATION_DONE: the slot's key is held again, once its root is. -/
def derived (s : State) (slot : Nat) : State :=
  match tget s.key.slots slot with
  | some k =>
    (match (tget s.key.roots k.root).bind (·.key) with
     | some r => { s with key.slots := tset s.key.slots slot { k with rootKey := r, keyLost := false } }
     | none => s)
  | none => s

/-- KNOWN_ANSWER_TEST of a cipher pipeline, or of a check-value unit (R298, R439): a failing one leaves use. -/
def selfTest (s : State) (isCvu : Bool) (u : Nat) (pass : Bool) : State :=
  if isCvu && decide (16 ≤ u) then s
  else if pass then
    (if isCvu then { s with key.unitPass := tset s.key.unitPass u s.timebase }
     else { s with key.pipePass := tset s.key.pipePass u s.timebase })
  else
    let last := if isCvu then tcnt s.key.unitPass u else tcnt s.key.pipePass u
    let out (l : List Nat) : List Nat := if l.contains u then l else l ++ [u]
    let s := if isCvu then { s with key.unitsOut := out s.key.unitsOut } else { s with key.pipesOut := out s.key.pipesOut }
    logEv s (if isCvu then srcCvu else srcKey) .selfTest u [u, last] true

/-! ## Summit (R256 to R258, R261, R266) -/

/-- The request that waits on a line: its port and connection (R168). -/
def waiterOf (s : State) (line : Nat) : CampPort × Nat :=
  match s.conns.findSome? fun c => (c.2.msgs.find? fun m => m.2.started && ! m.2.over &&
      (msgParts s m.2).any fun e => decide (e.1 / 64 ≤ line ∧ line * 64 < e.1 + e.2)).map
      fun m => (msgPort s m.2, connNum c.1 c.2) with
  | some w => w
  | none => (.demand, 0)

/-- SUMMIT_FILL_DONE: the line is in its slot and every miss on it is served; a slot that has left use holds nothing. -/
def fillDone (s : State) (line : Nat) : State :=
  match tget s.sum.fills line with
  | none => s
  | some key =>
    if s.sum.evicting.any (·.2 == key) then s
    else
      let s := { s with sum.fills := tdel s.sum.fills line }
      let s := if bitF s Reg.sumStatusWaysOn (key % 16) && ! zeroLine s line && ! s.code.disabled.contains key && ! s.sum.stopped then
          sumTouch { s with sum.lines := tset s.sum.lines key { line := line, poison := lineBad s line } } key
        else s
      runAll s

/-- DIRTY_EVICT_ADMITTED: the victim's write is in the write queue; the fill's read follows, and what waited proceeds. -/
def evictAdmitted (s : State) (line : Nat) : State :=
  match tget s.sum.evicting line with
  | none => s
  | some key =>
    let s := bumpF { s with sum.evicting := tdel s.sum.evicting line } Reg.sumEvictDirtyEvict
    let s := campAsk s true .demand 0 0 line
    let s := match s.sum.fills.find? (·.2 == key) with
      | some f => let w := waiterOf s f.1; campAsk s false w.1 w.2 0 f.1
      | none => s
    runAll s

/-- Every line of a way leaves it, dirty ones to camp. -/
def clearWay (s : State) (w : Nat) : State :=
  ((tkeys s.sum.lines).filter (· % 16 == w)).foldl sumDrop s

/-- WAY_CLEAN_DONE: the walk at the head ends. A way being locked is locked, and LOCK_WAYS is set with the last one; a way
being switched off goes off, and its command is answered. -/
def wayCleanDone (s : State) : State :=
  match s.sum.walks with
  | [] => s
  | .lock w :: rest =>
    let s := { clearWay s w with sum.walks := rest }
    let more := rest.any fun k => match k with | .lock _ => true | .off _ _ => false
    let s := match s.sum.raising with
      | some v => if more then s else setF { s with sum.raising := none } Reg.sumCfgLockWays v
      | none => s
    showWalk s
  | .off w t :: rest =>
    let s := { clearWay s w with sum.walks := rest }
    let s := setDom (putF s Reg.sumStatusWaysOn w false) (42 + w) false
    let s := showWalk s
    match t with
    | some t => answer s t scOk
    | none => s

end Sys2Proof.Machine
end

