-- ==== Sys2Proof/Machine/PowerRows.lean ====
section
/-! DEFINITION. The rows of power sequencing (12): power-up of PD0, starting and supervising the rails, the orderly
shutdown's limit, power-down, input collapse, the bivouac's steps, hold-up, button and manual reset. -/

namespace Sys2Proof.Machine

/-! ## PD0 (R343, R344) -/

/-- Writes a whole register, every field from its bits of `v`. -/
def loadWord (s : State) (off v : Nat) : State := (Reg.fieldsAt off).foldl (fun s f => setF s f (bits v f.lo f.w)) s

/-- PD0 has lost its supply: everything but fuses, pins, straps, the cairn and the valley is gone. Operating hours are those
stored with the last pitch-log flush (R412). -/
def pd0Lost (s : State) : State :=
  let holdup := isSet s Reg.seqStatusHoldupOk
  let pg := getF s Reg.seqStatusPgState
  let c := coreOff s
  let c := { c with
    timebase := 0, regs := [], seq := {}, thm := {}, start := {}, ladder := {}, plog := [], pins.tripN := true,
    log := { area := s.log.area, pageSeq := s.log.pageSeq, hours := s.log.hoursCfg, hoursCfg := s.log.hoursCfg },
    val.dies := c.val.dies.map fun x => (x.1, { x.2 with retired := [], hist := [] }),
    val.chFails := [], cairn.lastFlush := none }
  setF (setB c Reg.seqStatusHoldupOk holdup) Reg.seqStatusPgState pg

/-- The fuses load (R344) and the thresholds of the grade (R1, R376). -/
def loadFuses (s : State) : State :=
  let s := (List.range 24).foldl (fun s n => loadWord s (0x50100 + 8 * n) (tcnt s.fuse n)) s
  let s := (List.range 32).foldl (fun s n => loadWord s (0x50200 + 8 * n) (tcnt s.fuse (32 + n))) s
  let s := setB (setB s Reg.seqCfgAutoOn (bit (tcnt s.fuse 64) 0)) Reg.seqCfgAutoRestart (bit (tcnt s.fuse 64) 1)
  setF (setF s Reg.thmCfgWarnC (95 - gradeC s)) Reg.thmCfgSlowC (100 - gradeC s)

/-- PD0_POWER_UP. -/
def execPd0PowerUp (s : State) : Out :=
  needs true s (
    let s := loadFuses (pd0Lost s)
    if isSet s Reg.seqCfgAutoOn then { s with seq.startPending := true } else s)

/-- ALWAYS_ON_SUPPLY_FAIL: PD0 stops, every rail is commanded off at once (R343). -/
def execAlwaysOnSupplyFail (s : State) : Out := needs true s (pd0Lost s)

/-- VDD_AON_LOW: departure (R435, R491). -/
def execVddAonLow (s : State) : Out := needs true s (departFenced s)

/-! ## Starting the rails (R348 to R350) -/

/-- VIN_GOOD: a start that waits begins. -/
def execVinGood (s : State) : Out := needs true s (startIfDue (setB s Reg.seqStatusVinGood true))

/-- Whether a rail's power-good counts as high. -/
def pgHigh (s : State) (r : Nat) : Bool := ! isSet s (Reg.seqRailPgUsed r) || railPg s r

/-- The group's rails are enabled; the dwell of a rail whose power-good is high begins. -/
def enableGroup (s : State) (g : Nat) : State :=
  let s := { s with seq.delayEnd := none, seq.enabledAt := some s.timebase, seq.locked := true }
  (groupRails s g).foldl (fun s r =>
    let s := putF s Reg.seqStatusRailsOn r true
    if pgHigh s r then { s with seq.dwell := tset s.seq.dwell r s.timebase } else s) s

/-- Every rail of the groups before `g` is in dwell or good. -/
def earlierInDwell (s : State) (g : Nat) : Bool :=
  ((rails s).filter fun r => decide (railOrder s r < g)).all fun r => s.seq.good.contains r || thas s.seq.dwell r

/-- GROUP_DELAY_EXPIRY. -/
def execGroupDelayExpiry (s : State) : Out :=
  needs true s (match s.seq.group, s.seq.delayEnd with
    | some g, some t => if earlierInDwell s g then enableGroup (reach s t) g else s
    | _, _ => s)

/-- The start sequence of the rails runs. -/
def railsRising (s : State) : Bool := s.seq.group.isSome

/-- PS_PG_RISE: in the start sequence the dwell begins; in service a fall that was not a loss was a chatter (R351). -/
def execPsPgRise (rail : Nat) (s : State) : Out :=
  needs (wfPsPgRise rail) s (
    let s := putF s Reg.seqStatusPgState rail true
    if ! railOn s rail || ! isSet s (Reg.seqRailPgUsed rail) then s
    else if railsRising s then
      if s.seq.good.contains rail || thas s.seq.dwell rail then s
      else { s with seq.dwell := tset s.seq.dwell rail s.timebase }
    else match tget s.seq.fell rail with
      | none => s
      | some t =>
        let s := { s with seq.fell := tdel s.seq.fell rail }
        if t + us (getF s Reg.seqCfgPgLossUs) < s.timebase then railFault s rail 3
        else chatter (pitchEv (bumpF s Reg.seqFaultChatterCnt) srcSeq .chatter [rail]) rail)

/-- PS_PG_FALL: in the start sequence a chatter, and the dwell starts again (R350); later the loss timer starts (R351). A
rail that is disabled is discharging (Table 12-5). -/
def execPsPgFall (rail : Nat) (s : State) : Out :=
  needs (wfPsPgFall rail) s (
    let was := railPg s rail
    let s := putF s Reg.seqStatusPgState rail false
    if ! was || ! railOn s rail || ! isSet s (Reg.seqRailPgUsed rail) then s
    else if railsRising s then
      chatter { s with seq.dwell := tdel s.seq.dwell rail, seq.good := s.seq.good.filter (· != rail) } rail
    else { s with seq.fell := tset s.seq.fell rail s.timebase })

/-- DWELL_END. -/
def execDwellEnd (rail : Nat) (s : State) : Out :=
  needs (wfDwellEnd rail) s (match tget s.seq.dwell rail with
    | some t => railGood (reach s (t + dwellTime s rail)) rail
    | none => s)

/-- PG_TIMEOUT: a rail that is enabled and not yet good faults the start. -/
def execPgTimeout (rail : Nat) (s : State) : Out :=
  needs (wfPgTimeout rail) s (match s.seq.enabledAt with
    | some t =>
      if railsRising s && railOn s rail && ! s.seq.good.contains rail then railFault (reach s (t + pgTimeout s rail)) rail 1
      else s
    | none => s)

/-- PG_LOSS: the fall has lasted more than PG_LOSS_US. -/
def execPgLoss (rail : Nat) (s : State) : Out :=
  needs (wfPgLoss rail) s (match tget s.seq.fell rail with
    | some t => railFault (reach { s with seq.fell := tdel s.seq.fell rail } (t + us (getF s Reg.seqCfgPgLossUs))) rail 3
    | none => s)

/-! ## Monitors (R346, R347) -/

/-- A monitor fault: of the rails that the channel watches and whose dwell is complete; a channel of no rail is recorded
and posted. `cause`: 4 low, 5 high. -/
def monFault (s : State) (c cause : Nat) : State :=
  let l := monRails s c
  if l.isEmpty then logEv s srcSeq .monitorFault noUnit [c, cause] true
  else (l.filter fun r => railOn s r && s.seq.good.contains r).foldl (fun s r => railFault s r cause) s

/-- MONITOR_READING. -/
def execMonitorReading (ch pinMv : Nat) (s : State) : Out :=
  needs (wfMonitorReading ch pinMv) s (
    if ! isSet s (Reg.seqMonEn ch) then s
    else
      let mv := pinMv * getF s (Reg.seqMonScaleQ4 ch) / 16
      let s := setF s (monReadF ch) mv
      let l := monRails s ch
      let armed := l.isEmpty || l.any fun r => railOn s r && s.seq.good.contains r
      let low := decide (mv < getF s (Reg.seqMonLowMv ch))
      if armed && (low || decide (getF s (Reg.seqMonHighMv ch) < mv)) then
        match tget s.seq.monOut ch with
        | none => { s with seq.monOut := tset s.seq.monOut ch false }
        | some false => monFault { s with seq.monOut := tset s.seq.monOut ch true } ch (if low then 4 else 5)
        | some true => s
      else l.foldl railGood { s with seq.monOut := tdel s.seq.monOut ch })

/-! ## Stopping (R353, R354) -/

/-- GRACE_EXPIRY: the orderly shutdown becomes a bivouac with cause 4. -/
def execGraceExpiry (s : State) : Out :=
  needs true s (match s.seq.graceEnd with
    | some t => if seqState s == stStopping then startBivouac (reach s t) 4 3 .grace else s
    | none => s)

/-- DISCHARGE_END: a rail is discharged, or its DISCH_MS has passed without that, which is recorded; with the last rail of the group the
next group goes down. -/
def execDischargeEnd (rail : Nat) (timedOut : Bool) (s : State) : Out :=
  needs (wfDischargeEnd rail) s (
    if s.seq.down.isSome && ! s.seq.pace && s.seq.discharging.contains rail && discharged s rail != timedOut then
      let s := if timedOut then logEv (putF (reach s (s.seq.downAt + dischTime s rail)) Reg.seqFaultDischToMap rail true) srcSeq .dischargeTimeout rail [rail] else s
      let l := s.seq.discharging.filter (· != rail)
      let s := { s with seq.discharging := l }
      if l.isEmpty then downGroup s else s
    else s)

/-- BIV_STEP_TIMER. -/
def execBivStepTimer (s : State) : Out :=
  needs true s (match s.seq.down, s.seq.delayEnd with
    | some _, some t => if s.seq.pace then downGroup (reach s t) else s
    | _, _ => s)

/-! ## Collapse and bivouac (R356 to R359) -/

/-- INPUT_COLLAPSE (Table 12-2). -/
def execInputCollapse (s : State) : Out :=
  needs true s (
    let s := setB s Reg.seqStatusVinGood false
    let st := seqState s
    if st == stService || st == stStopping then startBivouac s 1 1 .collapse
    else if st == stStarting || st == stTest || st == stRecovery || st == stReplay then shutDown s .collapse true
    else s)

/-- BIVOUAC_STEP_DONE: the step's work is done (Table 12-3) and the next begins; after B5 the rails go down. -/
def execBivouacStepDone (s : State) : Out :=
  needs true s (
    if seqState s == stBivouac then
      let t := bivWork s
      let t := { t with seq.bivStep := s.seq.bivStep + 1 }
      if s.seq.bivStep = 5 then shutDown t (t.seq.why.getD .collapse) true else t
    else s)

/-- BIVOUAC_ENERGY_LOST: every PS_EN is released at once (R357). -/
def execBivouacEnergyLost (s : State) : Out :=
  needs true s (
    if seqState s == stBivouac || s.seq.down.isSome && s.seq.bivStep == 6 then releaseAll s (s.seq.why.getD .collapse) else s)

/-! ## Hold-up (R362, R363) -/

/-- HOLDUP_FALL: in service with a budget, reservations become write-through and every dirty slab is destaged. -/
def execHoldupFall (s : State) : Out :=
  needs true s (
    let was := isSet s Reg.seqStatusHoldupOk
    let s := setB s Reg.seqStatusHoldupOk false
    if was && serviceOpen s && (seqState s == stService || seqState s == stStopping) && budgetGib s != 0 then
      destageAll (logEv (setB (setB s Reg.seqStatusHoldupLow true) Reg.seqStatusWriteThrough true) srcSeq .holdupLow noUnit [] true)
    else s)

/-- HOLDUP_RESTORED. -/
def execHoldupRestored (s : State) : Out :=
  needs true s (setB (setB s Reg.seqStatusHoldupOk true) Reg.seqStatusWriteThrough false)

/-- HOLDUP_WAIT_EXPIRY: a record; service does not open without hold-up energy (R362, R14; log entry 57). -/
def execHoldupWaitExpiry (s : State) : Out :=
  needs true s (
    if getF s Reg.fabStartStatusStage = 9 ∧ getF s Reg.fabStartStatusWait = 3 then logEv s srcSeq .holdupWait noUnit [] true
    else s)

/-! ## Button and manual reset (R368, R369) -/

/-- BUTTON_RECOGNISED. -/
def execButtonRecognised (s : State) : Out :=
  needs true s (if s.seq.btnDown.isSome then s else { s with seq.btnDown := some s.timebase })

/-- SHORT_PRESS: acts on release. -/
def execShortPress (s : State) : Out :=
  needs true s (
    if s.seq.btnDown.isNone then s
    else
      let s := { s with seq.btnDown := none }
      if seqState s == stService then orderlyStop s 4
      else if seqState s == stOff && isSet s Reg.seqCfgBtnOn then askStart s
      else s)

/-- LONG_PRESS: acts without firmware; the part then stays off until the next short press, so no start is left waiting.
Replay counts as starting (DEDUCED, log entry 74). -/
def execLongPress (s : State) : Out :=
  needs true s (match s.seq.btnDown with
    | none => s
    | some t =>
      let s := reach { s with seq.btnDown := none } (t + sec (getF s Reg.seqCfgBtnLongS))
      let s := pitchEv { s with seq.stayOff := true, seq.restartAt := none, seq.startPending := false } srcSeq .longPress
      let st := seqState s
      if st == stService || st == stStopping then startBivouac s 3 4 .longPress
      else if st == stStarting || st == stTest || st == stRecovery || st == stReplay then shutDown s .longPress false
      else s)

/-- MANUAL_RESET: the device reset with cause 3. Before stage 4 the low level waits (Table 19-10); a bivouac or shutdown is
not disturbed. -/
def execManualReset (s : State) : Out :=
  needs true s (
    let st := seqState s
    if st == stBivouac || st == stDown || st == stStopping then s
    else if st == stOff || getF s Reg.fabStartStatusStage < 4 then { s with start.inReset := true }
    else
      let r := deviceReset s 3
      { r with start.inReset := true })

/-- MANUAL_RESET_RELEASE. -/
def execManualResetRelease (s : State) : Out := needs true s { s with start.inReset := false }

/-- RESTART_DUE: 1 s after the discharge that ends a power cycle. -/
def execRestartDue (s : State) : Out :=
  needs true s (match s.seq.restartAt with
    | some t => askStart (reach s t)
    | none => s)

end Sys2Proof.Machine
end

