-- ==== Sys2Proof/Machine/Thermal.lean ====
section
/-! DEFINITION. The rows of thermal management (13): the scan of the sensors, votes, thresholds, slowdown, trip, critical
shutdown, cooling. -/

namespace Sys2Proof.Machine

/-! ## Sensors and zones (R374, R375) -/

/-- What a broken sensor reads. -/
abbrev brokenRd : Int := 0x7FFF

/-- A conversion that completed in range. -/
def convOk (r : Option Int) : Bool :=
  match r with
  | some v => decide (-400 ≤ v ∧ v ≤ 1500)
  | none => false

def broken (s : State) (i : Nat) : Bool := bitF s Reg.thmBrokenMap i

/-- A sensor's reading; a sensor that has not completed a conversion since power-up has no stated one (log entry 60). -/
def sensorRd (s : State) (i : Nat) : Int :=
  if broken s i then brokenRd else (tget s.thm.rd i).getD (toSigned16 (Config.freeValue (s.free + i) % 65536))

/-- The second highest of three. -/
def second (a b c : Int) : Int := max (min a b) (min (max a b) c)

/-- A zone's temperature. -/
def zoneTemp (s : State) (z : Nat) : Int := second (sensorRd s (3 * z)) (sensorRd s (3 * z + 1)) (sensorRd s (3 * z + 2))

/-- Zones at or above a level; the first is the lowest-numbered. -/
def zonesAt (s : State) (t : Int) : List Nat := (List.range 16).filter fun z => decide (t ≤ zoneTemp s z)
def anyZone (s : State) (t : Int) : Bool := ! (zonesAt s t).isEmpty

/-- The hottest zone; the lowest-numbered of equals. -/
def hotZone (s : State) : Nat :=
  (List.range 16).foldl (fun h z => if zoneTemp s h < zoneTemp s z then z else h) 0

/-- A zone with at least two sensors that are not broken at or above a level (R381). -/
def criticalAt (s : State) (t : Int) : Option Nat :=
  (List.range 16).find? fun z =>
    decide (2 ≤ ((List.range 3).filter fun k => ! broken s (3 * z + k) && decide (t ≤ sensorRd s (3 * z + k))).length)

def zoneReadF (z : Nat) : Reg.Fld :=
  if z % 4 = 0 then Reg.thmZoneReadZ0 (z / 4) else if z % 4 = 1 then Reg.thmZoneReadZ1 (z / 4)
  else if z % 4 = 2 then Reg.thmZoneReadZ2 (z / 4) else Reg.thmZoneReadZ3 (z / 4)

/-- Takes a scan: readings, sensors broken by two scans in succession, each recorded (R374). -/
def takeScan (s : State) (rd : List (Option Int)) : State :=
  let l := rd.zipIdx
  let fails := (l.filter fun x => ! convOk x.1).map (·.2)
  let old := s.thm.bad
  let s := l.foldl (fun s x => match x.1 with
    | some v => if convOk x.1 then { s with thm.rd := tset s.thm.rd x.2 v } else s
    | none => s) { s with thm.bad := fails }
  (fails.filter fun i => old.contains i && ! broken s i).foldl (fun s i =>
    logEv (putF s Reg.thmBrokenMap i true) srcThm .sensorBroken i [i / 3, i % 3]) s

/-- The registers show the zones. -/
def showZones (s : State) : State :=
  let s := (List.range 16).foldl (fun s z => setF s (zoneReadF z) (ofSigned16 (zoneTemp s z))) s
  let h := hotZone s
  setF (setF s Reg.thmStatusHotZone h) Reg.thmStatusHotTemp (ofSigned16 (zoneTemp s h))

/-- A sensor more than 20 °C from its zone for 10 s is suspect (R375; log entry 61). -/
def suspects (s : State) : State :=
  let odd := (List.range 48).filter fun i =>
    let d := sensorRd s i - zoneTemp s (i / 3)
    ! broken s i && decide (200 < d ∨ d < -200)
  let since := odd.foldl (fun t i => tset t i ((tget s.thm.odd i).getD s.timebase)) []
  let s := { s with thm.odd := since }
  let late := (since.filter fun x => decide (x.2 + sec 10 ≤ s.timebase)).map fun x => x.1
  (List.range 16).foldl (fun s z =>
    let now := late.any fun i => i / 3 == z
    let s := if now && ! bitF s Reg.thmStatusSuspect z then
        logEv s srcThm .sensorSuspect z ((late.filter fun i => i / 3 == z).map (· % 3)) else s
    putF s Reg.thmStatusSuspect z now) s

/-! ## Thresholds (Table 13-1, R376) -/

def warnAt (s : State) : Int := (getF s Reg.thmCfgWarnC : Int) * 10
def slowAt (s : State) : Int := (getF s Reg.thmCfgSlowC : Int) * 10
def warnClear (s : State) : Int := warnAt s - 50
def slowClear (s : State) : Int := slowAt s - 50
def gradeOff (s : State) : Int := (gradeC s : Int) * 10
def tripAt (s : State) : Int := 1150 - gradeOff s
def critAt (s : State) : Int := 1250 - gradeOff s
def restartLevel (s : State) : Int := 850 - gradeOff s

/-- Warn (R377). -/
def warnCheck (s : State) : State :=
  match zonesAt s (warnAt s) with
  | z :: _ => if isSet s Reg.thmStatusWarn then s else logEv (setB s Reg.thmStatusWarn true) srcThm .thermalWarn z [z, ofSigned16 (zoneTemp s z)] true
  | [] => if anyZone s (warnClear s) then s else setB s Reg.thmStatusWarn false

/-! ## Slowdown (R378, R379) -/

/-- Which way the ceiling goes: down while enforced and hot, up while cool and below code 46, else it holds. -/
def ceilingWay (s : State) : Option Bool :=
  if isSet s Reg.thmStatusEnforced && anyZone s (slowAt s) then
    (if getF s Reg.fabVcoreCeil = 0 then none else some false)
  else if ! anyZone s (slowClear s) && decide (getF s Reg.fabVcoreCeil < 46) then some true
  else none

/-- The time to the next step: 10 ms down, 100 ms up. -/
def stepTime (up : Bool) : Nat := if up then ms 100 else ms 10

/-- Starts, keeps or stops the steps of the ceiling. -/
def ceilingTimer (s : State) : State :=
  match ceilingWay s with
  | none => { s with thm.stepAt := none }
  | some up =>
    if s.thm.stepAt.isSome && s.thm.stepUp == up then s
    else { s with thm.stepAt := some (s.timebase + stepTime up), thm.stepUp := up }

/-- Slowdown is enforced: SLOWDOWN_ENFORCED with the target in mV; the ceiling starts at the target in force. -/
def enforce (s : State) : State :=
  let t := getF s Reg.fabVcoreTarget
  let s := setB (setB { s with thm.graceEnd := none } Reg.thmStatusRequested false) Reg.thmStatusEnforced true
  let s := setF s Reg.fabVcoreCeil t
  let s := { s with conns := s.conns.map fun x => (x.1, { x.2 with reduced := true }) }
  ceilingTimer (deviceEvent (pitchEv s srcThm .slowdownEnforced [t]) 0x0402 (hotZone s) (620 + 5 * t))

/-- SLOWDOWN_REQUESTED when a zone first reaches the threshold; SLOWDOWN_CLEARED when every zone has fallen below the clear
level in the grace time. A grace time of 0 enforces at once (Table 13-3). -/
def slowCheck (s : State) : State :=
  if isSet s Reg.thmStatusRequested then
    if anyZone s (slowClear s) then s
    else deviceEvent (setB { s with thm.graceEnd := none } Reg.thmStatusRequested false) 0x0403 0 0
  else if isSet s Reg.thmStatusEnforced then s
  else if ! anyZone s (slowAt s) then s
  else
      let z := hotZone s
      let g := getF s Reg.thmCfgGraceMs
      let s := setB { s with thm.graceEnd := some (s.timebase + ms g) } Reg.thmStatusRequested true
      let s := deviceEvent (pitchEv s srcThm .slowdown [z]) 0x0401 z (ofSigned16 (zoneTemp s z)) (beBytes 4 g)
      if g = 0 then enforce s else s

/-! ## Trip and critical shutdown (R380, R381) -/

/-- Starts are refused until the part is cool; the record is written at the next start (R382). -/
def hotStop (s : State) (z : Nat) : State :=
  let s := { s with pins.tripN := false, thm.shut := true, thm.recordDue := true, seq.startPending := false, seq.restartAt := none }
  setF (setB s Reg.thmStatusCool false) Reg.thmStatusTripZone z

/-- The trip (R380). -/
def tripCheck (s : State) : State :=
  match zonesAt s (tripAt s) with
  | [] => s
  | z :: _ =>
    if s.thm.shut then s
    else
      let s := hotStop (setB s Reg.thmStatusTrip true) z
      let st := seqState s
      if st == stService || st == stStopping then startBivouac s 2 2 .trip
      else if st == stStarting || st == stTest || st == stRecovery || st == stReplay then shutDown s .trip true
      else s

/-- The critical shutdown (R381): in every state, once. -/
def critCheck (s : State) : State :=
  match criticalAt s (critAt s) with
  | none => s
  | some z =>
    if s.thm.shut && isSet s Reg.thmStatusCrit && seqState s == stOff then s
    else
      let s := hotStop (setB s Reg.thmStatusCrit true) z
      if seqState s == stOff then s else releaseAll (departFenced s) .critical

/-- Zones below the restart level, without a break (R382). -/
def coolWatch (s : State) : State :=
  if anyZone s (restartLevel s) then setB { s with thm.coolSince := none } Reg.thmStatusCool false
  else if s.thm.coolSince.isSome then s else { s with thm.coolSince := some s.timebase }

/-- THERMAL_SCAN. -/
def execThermalScan (rd : List (Option Int)) (s : State) : Out :=
  needs (wfThermalScan rd) s (critCheck (tripCheck (coolWatch (ceilingTimer (slowCheck (warnCheck (suspects (showZones (takeScan s rd)))))))))

/-- GRACE_END. -/
def execGraceEnd (s : State) : Out :=
  needs true s (match s.thm.graceEnd with
    | some t =>
      let s := reach s t
      if anyZone s (slowClear s) then enforce s else slowCheck s
    | none => s)

/-- CEILING_STEP: two codes down or up; enforcement ends when the ceiling has risen to REQ (R379). -/
def execCeilingStep (s : State) : Out :=
  needs true s (match s.thm.stepAt, ceilingWay s with
    | some t, some up =>
      let s := reach { s with thm.stepAt := none } t
      let c := getF s Reg.fabVcoreCeil
      let s := vcoreTarget (setF s Reg.fabVcoreCeil (if up then min 46 (c + 2) else c - 2))
      let s := if up && isSet s Reg.thmStatusEnforced && decide (getF s Reg.fabVcoreReq ≤ getF s Reg.fabVcoreCeil) then
          deviceEvent (pitchEv (setB s Reg.thmStatusEnforced false) srcThm .slowdownCleared) 0x0403 0 0 else s
      ceilingTimer s
    | _, _ => s)

/-- COOL: every zone has been below the restart level for 30 s (R382). -/
def execCool (s : State) : Out :=
  needs true s (match s.thm.coolSince with
    | some t =>
      let s := setB (reach s (t + sec 30)) Reg.thmStatusCool true
      if s.thm.shut then
        let s := { s with pins.tripN := true, thm.shut := false }
        if isSet s Reg.thmCfgAutoRestart && seqState s == stOff && ! s.seq.stayOff then askStart s else s
      else s
    | none => s)

end Sys2Proof.Machine
end

