-- ==== Sys2Proof/Machine/StartUp.lean ====
section
/-! DEFINITION. Start-up (17): the work of each stage, the configuration gate and formatting, replay, service open. -/

namespace Sys2Proof.Machine

def stage (s : State) : Nat := getF s Reg.fabStartStatusStage
def setStage (s : State) (n : Nat) : State := startWait (setF s Reg.fabStartStatusStage n) 0

/-- The start under way is a device reset (Table 17-1). -/
def warmStart (s : State) : Bool := decide (3 ≤ s.start.cause)

/-! ## Stages 1 to 3 -/

/-- Stage 3 (R452): SYS_REFCLK missing leaves CLK_LOSS; SD_REFCLK missing holds the start. A manual reset whose level was
low before acts once the stage is past (Table 19-10). -/
def stage3 (s : State) (sysOk sdOk : Bool) : State :=
  let s := if sysOk then { s with fab.refOk := true } else
    setB (setB (if s.fab.refOk then logEv { s with fab.refOk := false } srcFab .clkLoss noUnit [] else s) Reg.fabTbStatusClkLoss true)
      Reg.fabTbStatusOsc true
  if sdOk then
    let s := setStage { s with fab.sdOk := true, fab.sdSince := none } 4
    if s.start.inReset then { deviceReset s 3 with start.inReset := true } else s
  else startWait { s with fab.sdOk := false, fab.sdSince := if getF s Reg.fabStartStatusWait = 1 then s.fab.sdSince else some s.timebase } 1

/-! ## Stage 4: boot ROM (R226, R243, R390, R454 to R456, R465) -/

/-- The committed configuration copy with the higher sequence. -/
def bestCopy (s : State) : Option (Nat × CfgCopy) :=
  let ok (c : Option CfgCopy) : Option CfgCopy := c.bind fun x => if x.committed then some x else none
  match ok s.cairn.cfg0, ok s.cairn.cfg1 with
  | some a, some b => if a.seq < b.seq then some (1, b) else some (0, a)
  | some a, none => some (0, a)
  | none, some b => some (1, b)
  | none, none => none

/-- The tables and keys of the configuration copy in force. -/
def takeCopy (s : State) : State :=
  match bestCopy s with
  | some (k, c) => setF { s with
      cairn.inForce := k, cairn.bootPref := c.bootPref, ids := c.ids, cmd.opKey := c.opKey, cmd.custKey := c.custKey,
      route := c.route, key.blobs := c.roots } Reg.valCairnStatusCfgCopy k
  | none => { s with cairn.bootPref := 0 }

/-- The bank in a list that verifies first (R295); a bank that fails is recorded with the ROM service status. -/
def tryBanks (s : State) (img : Nat → Option BankImage) : List Nat → State × Option Nat
  | [] => (s, none)
  | n :: t =>
    match img n with
    | some i =>
      if (bankOf s n).committed && bankOk s i then
        let s := setBank2 s n { bankOf s n with secVersion := i.secVersion, build := i.build }
        (setB s (if n = 0 then Reg.valCairnStatusBankAValid else Reg.valCairnStatusBankBValid) true, some n)
      else tryBanks (logEv s srcCairn .bankFailed n [n, 5]) img t
    | none => tryBanks (logEv s srcCairn .bankFailed n [n, 5]) img t

/-- The start-up sequence powers one domain, when fewer than 4 did within 10 µs (R40). -/
def powerNext (s : State) (d : Nat) : State :=
  if domOn s d then s
  else
    let s := if (recentUps s).length < 4 then s else reach s ((recentUps s).headD 0 + us 10)
    setDom { s with fab.ups := recentUps s ++ [s.timebase] } d true

/-- Domains that the start-up sequence powers, in domain order (log entry 64): all but PD127, or in recovery boot PD120 to
PD125. -/
def powerDomains (s : State) (recovery : Bool) : State :=
  (if recovery then span 120 126 else span 1 127).foldl powerNext s

/-- Recovery boot (R456). -/
def recoveryBoot (s : State) : State :=
  setSeqState (setB (powerDomains { s with start.halted := true, mgmt.linkUp := s.pins.perstN } true)
    Reg.fabStartStatusRecovery true) stRecovery

/-- A bank has been chosen. -/
def bootBank (s : State) (n : Nat) (fell : Bool) : State :=
  let b := bankOf s n
  let s := setB (setF (setF s Reg.fabStartStatusBank n) Reg.valCairnStatusBankRunning n) Reg.fabStartStatusFallback fell
  let s := setF s Reg.fabStartStatusFailedStarts (min 3 (getF s Reg.fabStartStatusFailedStarts + 1))
  setStage (powerDomains (setF (setF s Reg.idFwSecVersion b.secVersion) Reg.idFwBuildBuild b.build) false) 5

/-- Stage 4. -/
def stage4 (s : State) (img : Nat → Option BankImage) : State :=
  let s := bumpBoot s (warmStart s)
  let s := setF (setF s Reg.fabStartStatusCause s.start.cause) Reg.fabStartStatusBootSrc s.pins.bootSrc
  let s := setB (setB s Reg.fabStartStatusRecovery false) Reg.fabStartStatusCampTrusted false
  let s := setF s Reg.fabSramStatusSlotsDisabled (min 4095 s.code.disabled.length)
  let s := takeCopy (setF s Reg.fabSramStatusSoftMapUsed s.code.soft.length)
  let s := showErase (setF s Reg.valCairnStatusSparesLeft (64 - s.cairn.remapped.length))
  let s := if s.thm.recordDue then logEv { s with thm.recordDue := false } srcThm .thermalRecord noUnit [getF s Reg.thmStatusTripZone] else s
  let src := s.pins.bootSrc % 4
  if src = 2 then recoveryBoot s
  else if src = 3 then setSeqState { s with start.halted := true } stTest
  else
    let p := s.cairn.bootPref % 2
    let fall := decide (3 ≤ getF s Reg.fabStartStatusFailedStarts)
    let r := tryBanks s img (if fall then [1 - p, p] else [p, 1 - p])
    match r.2 with
    | some n =>
      let fell := fall && n != p
      bootBank (if fell then pitchEv r.1 srcCairn .fallback [n] else r.1) n fell
    | none =>
      let t := logEv r.1 srcCairn .noBoot noUnit []
      if src = 0 then recoveryBoot t else startWait { t with start.halted := true } 6

/-! ## Stage 5: guides (R472), stage 6: camp training (R184, R188) -/

/-- Writes a stored field. -/
def putStored (s : State) (x : Nat × Nat) : State :=
  ((Reg.fieldsAt (x.1 / 64)).filter fun f => f.lo == x.1 % 64).foldl (fun s f => setF s f x.2) s

/-- A camp channel starts to train; one in self-refresh runs T5 only (R188). A retired channel stays out. -/
def startChannel (s : State) (c : Nat) : State :=
  if s.camp.gone.contains c then setF s (Reg.campChStatusState c) 5
  else
    let x := campCh s c
    let s := if x.selfRef then showCh s c x else s
    setF (setCampCh s c { x with stage := if x.selfRef then 5 else 1, group := 0, retried := false }) (Reg.campChStatusState c) 1

/-- The frames retired on each channel. -/
def showRetired (s : State) : State :=
  (List.range 16).foldl (fun s c => setF s (Reg.campChStatusRetiredFrames c) (min 65535 (retiredOn s c))) s

/-- Stage 5. -/
def stage5 (s : State) : State :=
  let s := vcoreTarget (((bestCopy s).map (·.2.regs)).getD [] |>.foldl putStored s)
  let s := s.key.blobs.foldl (fun s x => loadBlob s x.1 x.2) s
  let s := (List.range 8).foldl (fun s n =>
    (modeSubs (getF s (Reg.hpPortCfgMode n))).foldl (fun s k => setSub s (4 * n + k) subTraining) s) s
  let s := (List.range 16).foldl startChannel { s with mgmt.linkUp := s.pins.perstN }
  setStage ((List.range 32).foldl (fun s c => setF s (Reg.valNvStatusState c) 1) (showRetired s)) 6

/-- Stage 6 ends when every live channel is in service. -/
def stage6 (s : State) : State := if s.camp.liveMap.all fun c => chState s c == 2 then setStage s 7 else s

/-! ## Stage 7: valley scan (R222), logbook (R422), trust (R462) -/

/-- Whether a die lies within Table 7-1 and its page count and planes within Table 7-1a (R195). -/
def devOk (d : NandDev) : Bool :=
  d.tlc && decide (d.page = 16384 ∧ 2048 ≤ d.spare ∧ 384 ≤ d.pages ∧ d.pages ≤ 6144) && (d.planes == 2 || d.planes == 4) &&
  (d.gib == 64 || d.gib == 128 || d.gib == 256)

/-- Whether a profile lies within Table 7-1a. -/
def profOk (p : NandProfile) : Bool :=
  decide (1000 ≤ p.rated ∧ p.rated ≤ 65535 ∧ p.readUs ≤ 50 ∧ 250 ≤ p.progMbs ∧ 400 ≤ p.slcMbs ∧ p.eraseUs ≤ 20000 ∧
    1 ≤ p.retry.length ∧ p.retry.length ≤ 7)

/-- Whether a channel has a rate, chip enables and dies of Table 7-1. -/
def chanOk (c : NandChan) : Bool :=
  decide (2400 ≤ c.mts ∧ c.mts ≤ 3600 ∧ 1 ≤ c.ces ∧ c.ces ≤ 8) && (c.perCe == 1 || c.perCe == 2 || c.perCe == 4)

/-- The population of R196, on all 32 channels: the same chip enables and dies, one device at every die position that is not
failed, and a profile for it. -/
def population (s : State) (chs : List NandChan) (profs : List NandProfile) : Option (NandChan × NandDev × NandProfile) :=
  match chs.head?, (chs.flatMap (·.dies)).filterMap id with
  | some c, d :: _ =>
    let same (x : NandChan × Nat) : Bool := chanOk x.1 && x.1.ces == c.ces && x.1.perCe == c.perCe &&
      (List.range 32).all fun p => ! decide (p / 4 < c.ces ∧ p % 4 < c.perCe) || (x.1.dies.getD p none) == some d ||
        (dieOf s (x.2 * 32 + p)).failed
    if chs.length = 32 && devOk d && chs.zipIdx.all same then
      (profs.find? fun p => p.maker == d.maker && p.model == d.model && profOk p).map fun p => (c, d, p)
    else none
  | _, _ => none

/-- V4: every block with an intent and no done record is erased again, with its done record, and the set that is not current is
erased (R219). -/
def eraseAgain (s : State) : State :=
  let cur := (s.val.root.map (·.intentSet)).getD 0
  let open_ := ((tget s.val.intents cur).getD []).filter fun i => ! i.done
  let again (b : Nat) : Bool := open_.any (·.block == b) || ((blockOf s b).intent).isSome
  let s := (((tkeys s.val.blocks).filter again ++ open_.map (·.block)).eraseDups).foldl (fun s b =>
    setBlock { s with val.pages := s.val.pages.filter (fun p => vBlock s p.1 != b), val.torn := s.val.torn.filter fun v => vBlock s v != b }
      b { blockOf s b with erases := (blockOf s b).erases + 1, intent := none, erased := true }) s
  let s := open_.foldl (fun s i => intentDone s i.seq) s
  { s with val.intents := tdel s.val.intents (1 - cur) }

/-- V6: open stripes are closed, with the parity of their programmed data pages (R222). -/
def scanStripes (s : State) : State :=
  closeStripes { s with val.stripes := s.val.stripes.map fun x => (x.1, { x.2 with
    sum := (((stripeVlocs x.1).filterMap (tget s.val.pages ·)).foldl Page.xor { kind := 0 }) }) }

/-- VAL_NVnn_STATUS after the scan. -/
def showValley (s : State) (chs : List NandChan) : State :=
  let s := (List.range 32).foldl (fun s c =>
    let s := setF (setF (setF s (Reg.valNvStatusState c) 2) (Reg.valNvStatusRate c) (((chs[c]?).map (·.mts)).getD 0 / 200))
      (Reg.valNvStatusDies c) (diesPerCh s)
    setF s (Reg.valNvStatusRetiredBlocks c) (s.val.blocks.countP fun x => x.2.retired && x.1 % 32 == c)) s
  let s := (s.val.dies.filter (·.2.failed)).foldl (fun s x => putF s (Reg.valNvStatusFailedDies (x.1 / 32)) (x.1 % 32) true) s
  showWear (setB s Reg.valWearStatusRebuildActive (! s.val.rebuild.isEmpty))

/-- The copy of each logical page with the highest page sequence (R221). -/
def standing (area : List LogPage) : Tab LogPage := area.foldl (fun t p => tset t p.page p) []

/-- The records of the pages that join up with page 0. -/
def areaRecs (area : List LogPage) : List LogRec :=
  let t := standing area
  let base := ((tget t 0).map (·.first)).getD 0
  ((t.filter fun p => p.2.first == base + 255 * p.1).map (·.2.recs)).flatten

/-- A record put when the logbook is loaded. -/
def putRec (s : State) (src : Nat) (e : Ev) (unit : Nat) (detail : List Nat) (posted : Bool := false) : State :=
  (logPut s src e unit detail posted).1

/-- The operating hours of the newest time mark. -/
def markHours (l : List LogRec) : Nat := (((l.filter fun r => r.ev == .timeMark).getLast?).map fun r => r.detail.getD 0 0).getD 0

/-- The logbook is reloaded (R412, R422). -/
def reloadLog (s : State) : State :=
  let recs := areaRecs s.log.area
  let high := (s.log.area.flatMap (·.recs)).foldl (fun m r => max m r.seq) 0
  let img := (((flushImages s).getLast?).map (·.nextSeq)).getD 0
  let next := if high = 0 ∧ img = 0 then 1 else max (if high = 0 then 0 else high + 1024) (if img = 0 then 0 else img + 1024)
  let buf := s.log.start
  let lost := s.log.startLost
  let s := { s with log := { s.log with
    recs := recs, next := next, loaded := true, start := [], startLost := 0, hours := max s.log.hours (markHours recs) } }
  let s := match recs.getLast? with
    | some r => if r.ev == .logFull then setF (setB s Reg.logStatusFull true) Reg.logStatusDropped (r.detail.getD 1 0) else s
    | none => s
  let s := putRec s srcLog .restart noUnit [high, next]
  let s := if isSet s Reg.logStatusFull then s else
    let s := putRec s srcLog .timeMark noUnit (markDetail s)
    { s with log.sinceMark := false }
  let s := buf.foldl (fun s r => putRec s r.src r.ev r.unit r.detail r.posted) s
  if lost = 0 then s else putRec s srcLog .startOverflow noUnit [lost]

/-- Whether camp is trusted (R462). T5 has passed on every rank group once stage 6 has ended. -/
def campTrust (s : State) : Bool :=
  match s.start.integrity, s.val.root with
  | some r, some t =>
    let b := getF s Reg.idBootCount
    r.crcOk && r.count / 256 == b / 256 && r.count % 256 + 1 == b % 256 && r.flags == 15 &&
    r.live == liveMask s && r.confirmed == r.live && r.rangeGib == t.rangeGib && r.budgetGib == budgetGib s &&
    r.format == campFormat s
  | _, _ => false

/-- Stage 7 (R222): what the scan found. V5 is the list of torn pages; V8 is skipped when camp is trusted (R462). An unsound
population is handled as R14 states: recorded, and the start does not go on. DESIGN CHOICE (log entry 129): every
VAL_NVnn_STATUS.STATE then shows 4, and a notification is posted with the record. -/
def stage7 (s : State) (chs : List NandChan) (profs : List NandProfile) (bad : List (Nat × Nat)) : State :=
  match population s chs profs with
  | none => logEv ((List.range 32).foldl (fun s c => setF s (Reg.valNvStatusState c) 4) s) (srcValley 0) .valleyPopulation noUnit [] true
  | some (c, d, p) =>
    let root := bestRoot s bad
    let s := setF { s with
      val.ces := c.ces, val.perCe := c.perCe, val.dev := some d, val.prof := some p, val.root := root,
      val.rootBad := root.isNone && s.val.rootMedia.any fun x => ! x.2.isEmpty } Reg.valCfgPeRated p.rated
    let s := showValley (scanStripes (eraseAgain s)) chs
    let trusted := campTrust s
    let s := if trusted then s else { s with val.entries := mediaEntries s, val.dir := mediaDir s.val }
    setStage (setB (reloadLog s) Reg.fabStartStatusCampTrusted trusted) 8

/-! ## Stage 8: configuration gate (R458, R459), tables (R124), translation (R156, R159) -/

/-- A blank valley is formatted (R459). -/
def format (s : State) : State :=
  let v := s.val
  let id := freeVal s
  let s := useFree { s with
    log.area := [],
    val := { v with pages := [], torn := [], stripes := [], entries := [], jopen := [], jrnlSince := none, jrnl := [], images := [],
                    dir := [], dirMedia := [], tables := {}, tseen := {}, topen := [], tlogSince := none, tlog := [], timages := [],
                    intents := [], biv := none, rebuild := [], rootMedia := [], rootPages := 0 } }
  let s := programRoot s (rootNow s { seq := 0, identity := id })
  pitchEv s (srcValley 0) .formatted [rangeGib s]

/-- The gate is tested; gives whether it is open. -/
def gate (s : State) : State × Bool :=
  if s.val.rootBad then
    (if getF s Reg.fabStartStatusWait = 5 then s else startWait (logEv s (srcValley 0) .rootUnreadable noUnit [] true) 5, false)
  else
    let s := match s.val.root with
      | some r => setF s Reg.campRangeCfgRangeGib r.rangeGib
      | none => s
    if rangeGib s = 0 ∨ ! rangePairOk s (rangeGib s) (budgetGib s) then
      (if getF s Reg.fabStartStatusWait = 2 then s else startWait (logEv s srcCairn .configMissing noUnit [rangeGib s, budgetGib s] true) 2, false)
    else (startWait (if s.val.root.isNone then format s else s) 0, true)

/-- The tables after a stop (R124): no operation is in flight, DRAINING regions are REVOKED, DELETING objects are gone, a
publish that was not answered is undone (log entry 63), queues are IDLE unless in ERROR. -/
def tablesAfterStop (t : Tables) (loaded : Bool) : Tables :=
  { t with
    regions := (t.regions.filter fun x => ! x.2.draining).map fun x => (x.1, { x.2 with
      inflight := 0, refusals := 0, unreported := 0, evtUntil := none, poisonEvt := none, pendingSent := false, revokers := [] }),
    objects := (t.objects.filter fun x => x.2.st != .deleting).map fun x => (x.1, { x.2 with
      st := if x.2.st == .publishing then .opened else x.2.st, pub := if x.2.st == .publishing then [] else x.2.pub, waiters := [],
      sealed_ := x.2.sealed_.map fun i => { i with slot := none } }),
    queues := t.queues.map fun x => (x.1, { x.2 with st := if x.2.st == .error then .error else .idle, pend := [], run := none }),
    topos := t.topos.map fun x => (x.1, { x.2 with marker := if loaded then x.2.logged else x.2.marker, loggedAt := none }),
    tags := t.tags.map fun x => (x.1, { x.2 with evtUntil := none, unreported := 0 }) }

/-- The durable entries of deleted objects' slabs are gone (R124). -/
def dropDeleted (s : State) (t : Tables) : State :=
  let gone := (t.objects.filter fun x => x.2.st == .deleting).flatMap fun x => x.2.slabs
  (gone.filter fun n => thas s.val.entries n).foldl (fun s n =>
    journalRec { s with val.entries := tdel s.val.entries n } (.entry n none)) s

/-- Title slots are bound again from the object records (R124, R274). -/
def rebindTitles (s : State) : State :=
  s.tables.objects.foldl (fun s x => match x.2.sealed_ with
    | some _ =>
      let b := pubBytes x.1 x.2
      (match titleSlot s b with
       | some k => modObj (useTitle s k b) x.1 fun o => { o with sealed_ := o.sealed_.map fun i => { i with slot := some k } }
       | none => s)
    | none => s) s

/-- The rope bitmap that was saved; one that cannot be read counts every roped group as changed (R329). -/
def loadMap (s : State) : State :=
  { s with rope.oldMap := [], rope.bitmap := match s.cairn.ropeMap with
    | some m => m
    | none => ((s.tables.objects.filter fun x => x.2.mirror == mirRoped).flatMap fun x => x.2.slabs.map (· / 64)).eraseDups }

/-- Stage 8, once the gate is open. -/
def stage8 (s : State) : State :=
  let g := gate s
  if ! g.2 then g.1
  else
    let s := g.1
    let s := if isSet s Reg.fabStartStatusCampTrusted then
        showRebuild { dropDeleted s s.tables with tables := tablesAfterStop s.tables false }
      else
        let t := mediaTables s
        showRebuild (loadEntries (loadMap { dropDeleted s t with
          tables := tablesAfterStop t true, val.tables := t, val.tseen := t, range := {}, code.lostFrames := [], camp.moves := [] }))
    let waits := match s.val.biv, s.val.root with
      | some b, some r => decide (r.lastReplayed < b.seq)
      | _, _ => false
    let s := showBudget (rebindTitles s)
    setStage (if waits then setSeqState s stReplay else s) 9

/-! ## Stage 9: replay (R364 to R367), region size, hold-up (R362) -/

/-- One slab of the bivouac's index; a missing page leaves every line poisoned. -/
def replaySlab (s : State) (b : BivSlab) : State :=
  let n := b.slab
  let s := if segBuilt s (segOf n) then s else segLoad s (segOf n)
  let x := slabOf s n
  let f := if x.st.resident then x.frame else pickFrame s n
  let s := setSlab (if x.st.resident then s else useFree s) n { st := .dirty, frame := f, pois := b.pois || b.page.isNone }
  let s := match b.page with
    | some p => loadPage s n p
    | none =>
      let s := loadPage s n { kind := 6, slab := n, poison := List.range 256 }
      { s with rope.bitmap := if s.rope.bitmap.contains (n / 64) then s.rope.bitmap else s.rope.bitmap ++ [n / 64] }
  journal (charge s n) n

/-- A bivouac is complete when its trailer verifies and its count matches the index (R220). Replay handles an incomplete one alike:
its index names every slab, and each data page its own (R364). -/
def Bivouac.complete (b : Bivouac) : Bool := b.trailer == some b.slabs.length

/-- Pages that a bivouac has written: header, index pages of 2,040 entries, data pages, trailer. -/
def Bivouac.pages (b : Bivouac) : Nat := 1 + cdiv b.slabs.length 2040 + b.slabs.countP (·.page.isSome) + b.trailer.isSome.toNat

/-- Rows of the bivouac region are erased, with intent reason 2 (R219, R366); a block that still holds a page of data follows when
it is released. -/
def eraseRegion (s : State) (rows : Nat) : State :=
  ((span (areaRow s 8) (areaRow s 8 + rows)).flatMap fun r => (List.range 32).map (rowBlock s r)).foldl (fun s b =>
    if (blockOf s b).erased then eraseSys 2 (intentRoom s) b else s) s

/-- The bivouac is replayed in index order; the root then holds its sequence and the region is erased (R366). -/
def replay (s : State) : State :=
  match s.val.biv, s.val.root with
  | some b, some r =>
    if r.lastReplayed < b.seq then
      let s := b.slabs.foldl replaySlab s
      let s := setF (setF s Reg.seqReplaySlabs b.slabs.length) Reg.seqReplayPoisoned (b.slabs.countP fun x => x.page.isNone)
      let s := programRoot s (rootNow s { (s.val.root.getD r) with lastReplayed := b.seq })
      eraseRegion { s with val.biv := none } (cdiv b.pages (rowPages s))
    else s
  | _, _ => s

/-- The bivouac region takes the size of BUDGET_GIB: data leaves the rows that it grows into, the root names it, and it is erased;
where spare blocks cannot hold it the old budget stays (R459). -/
def resizeRegion (s : State) : State :=
  match s.val.root with
  | none => s
  | some r =>
    if r.budgetGib = budgetGib s then s
    else if valleyRawGib s * 65536 < fixedPages s + rangeGib s * 65536 then
      logEv (setF s Reg.campRangeCfgBudgetGib r.budgetGib) (srcValley 0) .bivResizeFailed noUnit [r.budgetGib]
    else
      let old := (areaRows s).sum
      let s := writeRoot s r.stop
      let grown := (span old ((areaRows s).sum)).flatMap fun k => (List.range 32).map (rowBlock s k)
      let s := grown.foldl (fun s b => (validPages s b).foldl relocate s) s
      eraseRegion s ((areaRows s).getD 8 0)

/-- Stage 9. -/
def stage9 (s : State) : State :=
  let s := if getF s Reg.fabStartStatusWait = 3 then s
    else
      let s := resizeRegion (replay (setF (setF s Reg.seqReplaySlabs 0) Reg.seqReplayPoisoned 0))
      if seqState s == stReplay then setSeqState s (if warmStart s then stRecovery else stStarting) else s
  if budgetGib s ≠ 0 ∧ ! isSet s Reg.seqStatusHoldupOk then startWait s 3
  else negotiate (setStage s 10)

/-! ## Stages 10 and 11 (R460) -/

/-- Stage 10 ends once a row of Table 11-1 has decided, and at a Second once the state transfer is taken. -/
def stage10 (s : State) : State :=
  if team s == teamNegotiating || isSecond s && ! s.rope.joined then s else setStage s 11

/-- Service opens. -/
def stage11 (s : State) : State :=
  let s := setF (setF s Reg.fabStartStatusOpenMs (min (2 ^ 32 - 1) ((s.timebase - s.start.entry) / ms 1))) Reg.fabStartStatusFailedStarts 0
  let s := { writeRoot s 2 with start.integrity := none, ladder.run := 0, val.verifyAt := s.timebase, val.verifyDays := getF s Reg.valCfgVerifyDays, code.passAt := s.timebase, code.passH := getF s Reg.campCodeCfgScrubH }
  let s := setSeqState (setStage s 12) stService
  let s := (tkeys s.tables.objects).foldl enterClass s
  let s := ((s.tables.topos.filter (·.2.committed)).map (·.1)).foldl prefetch s
  opCheck (destagePlan (scrubAsk s))

/-! ## START_STAGE_DONE -/

/-- The stage whose work an operand describes. -/
def infoStage : StageInfo → Nat
  | .s1 => 1 | .s2 => 2 | .s3 .. => 3 | .s4 .. => 4 | .s5 => 5 | .s6 => 6 | .s7 .. => 7 | .s8 => 8 | .s9 => 9 | .s10 => 10 | .s11 => 11

/-- Whether the stage in progress may end: PD0's own stage at any time, the rails when all are good; from stage 4 on the
part is out of reset, no stop is under way and stage 4 has not ended without a bank. -/
def stageRuns (s : State) (n : Nat) : Bool :=
  stage s == n && (n == 1 || (n == 2 && seqState s == stStarting && railsUp s) || (n == 3 && seqState s == stStarting) ||
    (4 ≤ n && ! s.start.inReset && ! s.start.halted &&
      (seqState s == stStarting || seqState s == stRecovery || seqState s == stReplay)))

/-- The end of a stage. -/
def stageDone (s : State) (i : StageInfo) : State :=
  match i with
  | .s1 => startIfDue (setStage s 2)
  | .s2 => setStage s 3
  | .s3 a b => stage3 s a b
  | .s4 a b => stage4 s fun n => if n = 0 then a else b
  | .s5 => stage5 s
  | .s6 => stage6 s
  | .s7 a b c => stage7 s a b c
  | .s8 => stage8 s
  | .s9 => stage9 s
  | .s10 => stage10 s
  | .s11 => stage11 s

/-- START_STAGE_DONE (R451): a result for another stage than the one in progress changes nothing. -/
def execStartStageDone (info : StageInfo) (s : State) : Out :=
  needs true s (if stageRuns s (infoStage info) then stageDone s info else s)

/-- SD_REFCLK_WAIT_TIMEOUT: 100 ms at stage 3 without SD_REFCLK (R452). -/
def execSdRefclkWaitTimeout (s : State) : Out :=
  needs true s (match s.fab.sdSince with
    | some t =>
      if stage s = 3 ∧ getF s Reg.fabStartStatusWait = 1 then
        logEv (reach { s with fab.sdSince := none } (t + ms 100)) srcFab .sdWait noUnit []
      else s
    | none => s)

end Sys2Proof.Machine
end

