-- ==== Sys2Proof/Machine/LadderRows.lean ====
section
/-! DEFINITION. The rows of the recovery ladder (16) and of the serial clock: rung bounds, guide hangs, sub-port training,
SD_REFCLK. -/

namespace Sys2Proof.Machine

/-- SUBPORT_LINK_UP: training completes; the sub-port is up, at full rate or degraded (R44, R460), and a rung 2 that waited
for it ends. -/
def execSubportLinkUp (sub : Nat) (s : State) : Out :=
  needs (wfSubportLinkUp sub) s (
    let mode := getF s (Reg.hpPortCfgMode (sub / 4))
    let st := subState s sub
    if s.fab.sdOk && (modeSubs mode).contains (sub % 4) && (st == subTraining || st == subDown) then
      let cut := (modeLanes mode (sub % 4)).any fun l => bitF s (Reg.hpPortStatusLaneFail (sub / 4)) l
      let s := pitchEv (setSub s sub (if cut then subDegraded else subUp)) (srcPort (sub / 4)) .portRestored [sub, mode]
      rungOk (portEvent s sub 0x0303 mode) (fnKey 1 sub)
    else s)

/-- GUIDE_HANG: rung 2 of the guide (R438). -/
def execGuideHang (g : Nat) (s : State) : Out :=
  needs (wfGuideHang g) s (if decide (5 ≤ stage s) && domOn s (10 + g) then rung2 (logEv s srcFab .guideHang g [g]) (fnKey 3 g) false else s)

/-- Sub-ports of the port modes. -/
def allSubs (s : State) : List Nat :=
  (List.range 8).flatMap fun n => (modeSubs (getF s (Reg.hpPortCfgMode n))).map (4 * n + ·)

/-- SD_REFCLK_LOSS: a Lead with a Second fences and departs, any other part keeps its role; every sub-port and rope instance
goes down (R437). -/
def execSdRefclkLoss (s : State) : Out :=
  needs true s (
    if ! s.fab.sdOk then s
    else
      let s := setB { s with fab.sdOk := false } Reg.fabTbStatusSdclkLoss true
      let s := logEv s srcFab .sdClkLoss noUnit []
      let s := if hasSecond s then departFenced s else s
      let s := ((allSubs s).filter fun k => subRuns s k || subState s k == subQuiesced).foldl subGoesDown s
      instDown (instDown s 0) 1)

/-- SD_REFCLK_RESTORED: present for 1 ms; each sub-port and rope instance is re-initialised under the ladder (R437). -/
def execSdRefclkRestored (s : State) : Out :=
  needs true s (
    if s.fab.sdOk then s
    else
      let s := { s with fab.sdOk := true }
      if stage s < 5 then s
      else
        let s := ((allSubs s).filter fun k => subState s k == subDown).foldl (fun s k => rung2 s (fnKey 1 k) false) s
        ([0, 1].filter fun i => ! (ropeInst s i).up).foldl (fun s i => rung2 s (fnKey 7 i) false) s)

/-- Rung 4 has not opened service in its bound: the part stays off (Table 16-2). -/
def stayDown (s : State) : State :=
  let s := setB { s with ladder.run := 0, seq.stayOff := true } Reg.fabLadderStatusHeldOff true
  let s := logEv s srcSeq .ladderHeld noUnit [4] true
  if seqState s == stOff || seqState s == stBivouac then { s with seq.restartAt := none, seq.startPending := false }
  else shutDown s .cycle false

/-- LADDER_BOUND_EXPIRY: of the device (class 0), the handover that a rung waits for, rung 3 or rung 4; of a function,
rung 2. -/
def execLadderBoundExpiry (f : LadderFn) (s : State) : Out :=
  needs true s (
    if f.cls = 0 then
      if s.ladder.wait ≠ 0 then handoverOver s
      else if serviceOpen s then s
      else if s.ladder.run = 3 then needCycle { s with ladder.run := 0 } 0
      else if s.ladder.run = 4 then stayDown s
      else s
    else rung2Again s (fnKey f.cls f.idx))

end Sys2Proof.Machine
end

