-- ==== Sys2Proof/Machine/Front.lean ====
section
/-! DEFINITION. The command front end (14): formats, authority, freshness, channels, acceptance (Table 14-5), the brake
store's frames, and the timers of commands. -/

namespace Sys2Proof.Machine

/-! ## The opcodes (Table 14-6) -/

/-- Opcode, level (0 observer to 3 factory), channels (1 mailbox, 2 TMT, 4 I3C). -/
def opcodes1 : List (Nat × Nat × Nat) :=
  [(0x0101, 0, 7), (0x0102, 0, 7), (0x0103, 2, 1), (0x0104, 2, 3), (0x0105, 0, 3), (0x0106, 2, 1),
   (0x0201, 1, 3), (0x0202, 0, 3), (0x0203, 1, 3), (0x0204, 1, 3), (0x0205, 0, 3), (0x0206, 1, 2), (0x0207, 1, 2),
   (0x0208, 0, 7), (0x0209, 1, 3), (0x020A, 1, 3), (0x020B, 1, 3), (0x020C, 1, 3), (0x020D, 1, 3), (0x020E, 0, 3),
   (0x020F, 1, 3), (0x0210, 1, 3), (0x0211, 2, 1)]

def opcodes2 : List (Nat × Nat × Nat) :=
  [(0x0301, 1, 3), (0x0302, 0, 3), (0x0303, 1, 3), (0x0304, 1, 3), (0x0305, 1, 3), (0x0306, 1, 3), (0x0307, 1, 3),
   (0x0308, 1, 3), (0x0309, 1, 3), (0x030A, 1, 3), (0x030B, 1, 3), (0x030C, 1, 3), (0x030D, 0, 3), (0x030E, 1, 3),
   (0x030F, 1, 3), (0x0310, 2, 1),
   (0x0401, 2, 3), (0x0402, 2, 3), (0x0403, 0, 3), (0x0404, 0, 3), (0x0405, 1, 3), (0x0406, 0, 3), (0x0407, 2, 1),
   (0x0408, 2, 3), (0x0409, 1, 3), (0x040A, 0, 3)]

def opcodes3 : List (Nat × Nat × Nat) :=
  [(0x0501, 0, 7), (0x0502, 1, 3), (0x0503, 1, 3), (0x0504, 2, 1), (0x0505, 2, 1),
   (0x0601, 0, 7), (0x0602, 1, 3), (0x0603, 1, 1), (0x0604, 0, 7), (0x0605, 2, 1), (0x0606, 1, 1), (0x0607, 2, 1),
   (0x0701, 0, 3), (0x0702, 2, 1), (0x0703, 1, 3), (0x0704, 0, 3), (0x0705, 1, 3), (0x0706, 0, 7), (0x0707, 1, 1)]

def opcodes4 : List (Nat × Nat × Nat) :=
  [(0x0801, 1, 1), (0x0802, 0, 3), (0x0803, 1, 1), (0x0804, 2, 1), (0x0805, 1, 1), (0x0806, 0, 7),
   (0x0901, 2, 1), (0x0902, 2, 1), (0x0903, 2, 1), (0x0904, 2, 1), (0x0905, 2, 1), (0x0906, 0, 7),
   (0x0A01, 1, 7), (0x0A02, 1, 7), (0x0A03, 2, 5), (0x0A04, 2, 5), (0x0A05, 0, 7),
   (0x0B01, 1, 7), (0x0B02, 1, 7), (0x0B03, 1, 7), (0x0B04, 1, 7), (0x0B05, 0, 7)]

/-- An opcode's level and channels. -/
def opInfo (op : Nat) : Option (Nat × Nat) := tget (opcodes1 ++ opcodes2 ++ opcodes3 ++ opcodes4) op

/-- Recovery boot (R454, R456). -/
def inRecovery (s : State) : Bool := isSet s Reg.fabStartStatusRecovery && s.start.halted

/-- Commands accepted before service opens (R394), in recovery boot (Table 17-4); ROPE_SOLO also while the part waits at
stage 10, where Table 11-1 has it act. -/
def opReady (s : State) (op : Nat) : Bool :=
  if inRecovery s then [0x0101, 0x0906, 0x0901, 0x0902, 0x0903, 0x0A03].contains op
  else serviceOpen s || [0x01, 0x06, 0x07, 0x09, 0x0A, 0x0B].contains (op / 256) ||
    [0x0310, 0x0211, 0x0401, 0x0407, 0x0505].contains op || (op == 0x0504 && getF s Reg.fabStartStatusStage == 10)

/-! ## Formats (R385, R386) -/

/-- The header of Table 14-1. -/
structure CmdHdr where
  op : Nat
  auth : Bool
  level : Nat
  tag : Nat
  plen : Nat
  mgmt : Bool
  ident : Nat
  fresh : Nat
  deriving DecidableEq, Repr

def cmdHdr (b : Bytes) : CmdHdr :=
  { op := le b 0 2, auth := bit (le b 2 1) 0, level := le b 3 1 % 4, tag := le b 4 4, plen := le b 8 2,
    mgmt := bit (le b 10 2) 12, ident := le b 10 2 % 4096, fresh := le b 16 8 }

/-- Length that a packet's header gives it. -/
def CmdHdr.total (h : CmdHdr) : Nat := 32 + h.plen + (if h.auth then 32 else 0)

/-- Bytes of a range that are not zero. -/
def notZero (b : Bytes) (lo hi : Nat) : List Nat := (span lo hi).filter fun i => le b i 1 != 0

/-- Offsets of the faults of a packet's header and length (R386). -/
def hdrFaults (b : Bytes) : List Nat :=
  let h := cmdHdr b
  (if le b 2 1 / 2 ≠ 0 ∨ h.auth ≠ decide (1 ≤ h.level) then [2] else []) ++
  (if le b 3 1 / 4 ≠ 0 then [3] else []) ++ (if h.plen > 4096 then [8] else []) ++
  (if h.mgmt && h.ident != 0 then [10] else []) ++ (if le b 11 1 / 32 ≠ 0 then [11] else []) ++
  notZero b 12 16 ++ notZero b 24 32 ++ (if b.length = h.total then [] else [min b.length h.total])

/-- Parameters of a fixed layout: its length, and the bits that are reserved as (byte, mask). -/
def layoutFaults (b : Bytes) (len : Nat) (rsv : List (Nat × Nat)) : List Nat :=
  ((rsv.filter fun x => Nat.land (le b x.1 1) x.2 != 0).map (·.1)) ++
  (if b.length = len then [] else [min b.length len])

/-- Reserved bytes. -/
def rsvBytes (lo hi : Nat) : List (Nat × Nat) := (span lo hi).map fun i => (i, 255)

/-- Commands that take no parameters. -/
def noParams : List Nat :=
  [0x0101, 0x0102, 0x0403, 0x0501, 0x0502, 0x0504, 0x0601, 0x0602, 0x0604, 0x0702, 0x0802, 0x0806, 0x0904, 0x0905,
   0x0906, 0x0A03, 0x0A04, 0x0A05, 0x0B05]

/-- Offsets of the faults of an opcode's parameters, for the layouts that the spec gives (R386, R401, R402, R413, R419,
Tables 4-1, 5-9, 5-10, 10-1, 14-7 to 14-10). -/
def parFaults (op : Nat) (b : Bytes) : List Nat :=
  if noParams.contains op then layoutFaults b 0 []
  else if op = 0x0103 then layoutFaults b 72 ([(1, 0xF0), (2, 0xFC), (3, 0xF0)] ++ rsvBytes 6 8)
  else if op = 0x0106 then layoutFaults b 64 (rsvBytes 1 32)
  else if op = 0x0201 then layoutFaults b 24 [(14, 0xC0), (17, 0xF0), (19, 0xF0)]
  else if op = 0x0301 then layoutFaults b 16 ((11, 0xF0) :: rsvBytes 12 16)
  else if op = 0x0307 then layoutFaults b 64 ([(2, 0xC0), (3, 255), (4, 0xFE)] ++ rsvBytes 20 24)
  else if op = 0x0308 then layoutFaults b 16 ([(4, 0xFC), (5, 255), (7, 0xF0)] ++ rsvBytes 10 16)
  else if op = 0x0309 then layoutFaults b (16 + 16 * le b 2 2) (rsvBytes 4 16 ++
    (List.range (min (le b 2 2) 255)).flatMap fun i => [(18 + 16 * i, 0xC0), (19 + 16 * i, 255)])
  else if op = 0x0401 then layoutFaults b 96 (rsvBytes 84 96)
  else if op = 0x0503 then layoutFaults b 8 (rsvBytes 1 8)
  else if op = 0x0701 then layoutFaults b 9 []
  else if op = 0x0704 then layoutFaults b 4 [(2, 255)]
  else if op = 0x0901 then
    layoutFaults b (if b.length < 264 then 264 else if b.length > 3848 then 3848 else 8 + b.length / 256 * 256) (rsvBytes 1 4)
  else if op = 0x0A01 ∨ op = 0x0A02 then layoutFaults b 8 ((1, 255) :: rsvBytes 4 8)
  else if op = 0x0B01 then layoutFaults b 8 (rsvBytes 2 8)
  else if op = 0x0B02 then layoutFaults b 4 [(3, 255)]
  else if op = 0x0B03 then layoutFaults b 4 [(1, 0xF0), (3, 0xFE)]
  else if op = 0x0B04 then layoutFaults b 8 (rsvBytes 5 8)
  else []

/-- The byte offset of the first format fault of a packet (R386). -/
def formatFault (b : Bytes) : Option Nat :=
  let h := cmdHdr b
  let l := hdrFaults b
  let l := if l.isEmpty then (parFaults h.op (bsub b 32 h.plen)).map (32 + ·) else l
  match l with
  | [] => none
  | x :: t => some (t.foldl min x)

/-! ## Authority (R387, R388, Table 14-3) -/

/-- The level that a command needs. -/
def needsLevel (s : State) (h : CmdHdr) (par : Bytes) (base : Nat) : Nat :=
  if h.op = 0x0106 ∧ le par 0 1 = 2 ∧ s.cmd.custKey.isNone then 3
  else if h.op = 0x0201 ∧ h.mgmt then 2
  else if h.op = 0x0307 ∧ bit (le par 4 1) 0 then 2
  else if inRecovery s && base == 2 && s.cmd.custKey.isNone then 3
  else base

/-- The key of a principal at a level (Table 14-3). -/
def keyFor (s : State) (mgmt : Bool) (ident level : Nat) : Option Bytes :=
  if mgmt then
    (if level = 1 then s.cmd.opKey else if level = 2 then s.cmd.custKey
     else if level = 3 then some (factoryKey (fuseSerial s)) else none)
  else if level = 1 then (tget s.ids ident).bind (·.cmdKey) else none

/-- The number of a key's freshness record. -/
def freshKey (mgmt : Bool) (ident level : Nat) : Nat := if mgmt then 4096 + level else ident

/-- The freshness check, with the value recorded when it passes (R390). -/
def freshTake (s : State) (k fresh : Nat) : Option State :=
  let v := fresh % 2 ^ 32
  if fresh / 2 ^ 32 ≠ getF s Reg.idBootCount then none
  else match tget s.cmd.fresh k with
    | none => some { s with cmd.fresh := tset s.cmd.fresh k ⟨v, []⟩ }
    | some r =>
      if r.high < v then
        some { s with cmd.fresh := tset s.cmd.fresh k ⟨v, (r.high :: r.seen).filter fun x => decide (v ≤ x + 64)⟩ }
      else if decide (v < r.high ∧ r.high ≤ v + 64) && ! r.seen.contains v then
        some { s with cmd.fresh := tset s.cmd.fresh k { r with seen := v :: r.seen } }
      else none

/-! ## Acceptance (R391, R394) -/

/-- Whether the channel and principal may send the opcode (Table 14-4). -/
def channelOk (s : State) (chan : Chan) (chans : Nat) (h : CmdHdr) : Bool :=
  match chan with
  | .mbx _ => bit chans 0 && h.mgmt
  | .i3c => bit chans 2 && h.mgmt
  | .net num => bit chans 1 && (match connOf s num with
    | some c => if h.mgmt then ((tget s.ids c.ident).map (·.mgmtNet)).getD false else h.ident == c.ident
    | none => false)

/-- What acceptance decides: a status and its detail, the key that authenticated the command. -/
structure Verdict where
  status : Nat
  detail : Nat := 0
  key : Option Bytes := none
  /-- discarded without a reply (step 8) -/
  drop : Bool := false
  /-- answered from the record of a mirrored command (R399) -/
  reply : Option Reply := none

/-- Steps 8 to 10, the record of R399 and the limits on commands held (R395, R405), for a command that has passed
authentication with `key`. -/
def acceptLate (s : State) (h : CmdHdr) (key : Option Bytes) : Verdict :=
  let guide := s.cmd.tickets.countP fun x => ! brakeOp x.2.op && ! ladderOp x.2.op
  let brakes := s.cmd.tickets.countP fun x => brakeOp x.2.op
  if ! h.mgmt && s.cmd.fencedIds.contains h.ident then { status := scOk, drop := true }
  else if ! opReady s h.op then { status := scNotReady, detail := seqState s, key := key }
  else if mirroredOp h.op && (isSecond s || role s == roleFenced) then
    { status := scNotLead, key := key,
      detail := if isSecond s then ((s.rope.peer.map (·.twinId)).getD 0xFF) else 0xFF }
  else match (if mirroredOp h.op then
      s.cmd.mirrored.find? (fun x => x.1 == (if h.mgmt then mgmtPrincipal else h.ident) && x.2.1 == h.op && x.2.2.1 == h.tag)
      else none) with
    | some x => { status := scOk, key := key, reply := some x.2.2.2 }
    | none =>
      if brakeOp h.op then { status := if brakes ≥ 64 then scBusy else scOk, detail := 1, key := key }
      else if ladderOp h.op then { status := scOk, key := key }
      else { status := if guide ≥ 256 then scBusy else scOk, detail := 1, key := key }

/-- The steps of Table 14-5 up to the command's own checks; the freshness value is recorded where step 7 passes. -/
def acceptCmd (s : State) (chan : Chan) (b : Bytes) : State × Verdict :=
  let h := cmdHdr b
  let par := bsub b 32 h.plen
  match formatFault b with
  | some off => (s, { status := scMalformed, detail := off })
  | none =>
    match opInfo h.op with
    | none => (s, { status := scUnknownOpcode, detail := h.op })
    | some (base, chans) =>
      if ! channelOk s chan chans h then (s, { status := scChannel })
      else if h.level < needsLevel s h par base then (s, { status := scAuthority, detail := needsLevel s h par base })
      else if h.level = 0 then (s, acceptLate s h none)
      else match keyFor s h.mgmt h.ident h.level with
        | none => (s, { status := scAuthFailed, detail := 3 })
        | some k =>
          if hmac k (b.take (32 + h.plen)) ≠ bsub b (32 + h.plen) 32 then (s, { status := scAuthFailed, detail := 1 })
          else match freshTake s (freshKey h.mgmt h.ident h.level) h.fresh with
            | none => (s, { status := scAuthFailed, detail := 2 })
            | some s' => (s', acceptLate s' h (some k))

/-- A command packet reaches the front end by a channel: it is refused with a reply, discarded, or held as a ticket for a
guide, the ladder or the brake engine. `sub`: the sub-port whose brake store holds it. -/
def frontEnd (s : State) (chan : Chan) (b : Bytes) (sub : Option Nat) : State :=
  let h := cmdHdr b
  let r := acceptCmd s chan b
  let s := r.1
  let v := r.2
  let auth := v.key.map fun k => (k, h.fresh)
  let who := s.pins.twinId % 2 + role s * 2
  if v.drop then { s with cmd.discarded := s.cmd.discarded + 1 }
  else match v.reply with
    | some x => deliver s chan { x with auth := auth, responder := who, tag := h.tag }
    | none =>
      if v.status ≠ scOk then
        deliver s chan { status := v.status, op := h.op, tag := h.tag, detail := v.detail, responder := who, auth := auth }
      else
        let t := s.cmd.nextTicket
        let tk : Ticket := { op := h.op, level := h.level, mgmt := h.mgmt, ident := h.ident, tag := h.tag, fresh := h.fresh,
                             par := bsub b 32 h.plen, chan := chan, key := v.key, since := s.timebase, aux := sub.toList }
        let s := { s with cmd.tickets := tset s.cmd.tickets t tk, cmd.nextTicket := t + 1 }
        match sub with
        | some k => if brakeOp h.op then showBrake { s with port.brake := tcntSet s.port.brake k (tcnt s.port.brake k + 1) } else s
        | none => s

/-- A command over a place that is taken: BUSY, detail 1, without entering the front end (R391, R393). -/
def busyReply (s : State) (b : Bytes) : Reply :=
  let h := cmdHdr b
  { status := scBusy, op := h.op, tag := h.tag, detail := 1, responder := s.pins.twinId % 2 + role s * 2 }

/-! ## TMT (R392) -/

/-- Commands outstanding on a connection. -/
def outstanding (s : State) (num : Nat) : Nat := s.cmd.tickets.countP fun x => x.2.chan == .net num

/-- A whole MGMT message: its command enters the front end, and the message completes OK (R392); one whose check fails
completes MESSAGE_CHECK and carries no command (R75). -/
def mgmtTake (s : State) (num msn : Nat) (sub : Option Nat) : State :=
  match msgOf s (connIdx num) msn with
  | some m =>
    if m.first.ty == tyMgmt && (match m.st with | .running => true | _ => false) then
      let b := msgPayload m
      if (match m.chk with | some k => beNat k != crc64 b | none => false) then
        doneMsg (checkFailed s (connIdx num) msn) (connIdx num) msn (.comp csMessageCheck 0)
      else
        let s := if outstanding s num ≥ 16 then deliver s (.net num) (busyReply s b) else frontEnd s (.net num) b sub
        doneMsg s (connIdx num) msn (.comp csOk 0)
    else s
  | none => s

/-- MGMT (R392, R404, R405). -/
def execMgmt (p : Pkt) (s : State) : Out :=
  needs (wfMgmt p) s (mgmtTake (receive pathDown s p) p.conn p.msn (if brakeEntry s p then some p.sub else none))

/-! ## Timers (R395, R397) -/

/-- PENDING answers a command, once. -/
def sendPending (s : State) (t : Nat) : State :=
  match tget s.cmd.tickets t with
  | none => s
  | some tk =>
    if tk.pendingSent then s
    else deliver { s with cmd.tickets := tset s.cmd.tickets t { tk with pendingSent := true } } tk.chan (mkReply s tk scPending 0 [] false)

/-- COMMAND_PENDING_TIMER: a command still executing after 100 ms is answered PENDING. Commands that joined it are answered with
it: a PENDING covers every REGION_REVOKE of the region (R92), whose owner will hear of the end by EVENT, and every OBJECT_DELETE
of the object (R135). -/
def pendingNow (s : State) (t : Nat) : State :=
  match tget s.cmd.tickets t with
  | none => s
  | some tk =>
    if tk.pendingSent || (match tk.st with | .waiting => true | _ => false) then s
    else
      let s := reach s (tk.since + ms 100)
      let joined := (s.tables.regions.flatMap fun x => if x.2.revokers.contains t then x.2.revokers else []) ++
        s.tables.objects.flatMap fun x => if x.2.st == .deleting && x.2.waiters.contains t then x.2.waiters else []
      let s := { s with
        tables.regions := s.tables.regions.map fun x => (x.1, if x.2.revokers.contains t then { x.2 with pendingSent := true } else x.2) }
      joined.foldl sendPending (sendPending s t)

def execCommandPendingTimer (t : Nat) (s : State) : Out := needs true s (pendingNow s t)

/-- GUIDE_WAIT_TIMEOUT: no guide has taken the command within 10 ms (R395). -/
def noGuide (s : State) (t : Nat) : State :=
  match tget s.cmd.tickets t with
  | none => s
  | some tk =>
    match tk.st, brakeOp tk.op || ladderOp tk.op with
    | .waiting, false => answer (reach s (tk.since + ms 10)) t scNoGuide
    | _, _ => s

def execGuideWaitTimeout (t : Nat) (s : State) : Out := needs true s (noGuide s t)

/-! ## What the commands' meanings share -/

/-- The effect of an opcode's command on the ticket that waits for it; nothing where there is none. -/
def onTicket (s : State) (t op : Nat) (f : Ticket → State) : State :=
  match takeTicket s t op with
  | some tk => f tk
  | none => s

/-- The scope of R387: the management principal, or the owner. -/
def Ticket.owns (tk : Ticket) (owner : Nat) : Bool := tk.mgmt || tk.ident == owner

/-- Whether a command may look at what an owner and an access group share. -/
def sees (s : State) (tk : Ticket) (owner grp : Nat) : Bool := tk.owns owner || mayUse s tk.ident owner grp

/-- OUT_OF_RANGE with the byte offset of the parameter, in a layout that the spec gives. -/
def rangeAt (s : State) (t off : Nat) : State := answer s t scOutOfRange off

/-- BUSY, precondition unmet. -/
def busy2 (s : State) (t : Nat) : State := answer s t scBusy 2

end Sys2Proof.Machine
end

