-- ==== Sys2Proof/Machine/CmdRegion.lean ====
section
/-! DEFINITION. Meanings of the command groups 0x01 and 0x02 (14): identities and keys, regions, connections, chain queues,
triggers, ports. -/

namespace Sys2Proof.Machine

/-! ## Replies (log entry 71: the order of the fields is the model's) -/

/-- Whole registers, 8 bytes each. -/
def regBytes (s : State) (offs : List Nat) : Bytes := (offs.map fun o => leBytes 8 (readReg s o)).flatten

def flagByte (b : Bool) : Bytes := [byte b.toNat]

/-- What ID_QUERY says of a bank: committed, security version, build. -/
def bankBytes (b : Bank) : Bytes := flagByte b.committed ++ leBytes 4 b.secVersion ++ leBytes 8 b.build

/-- Part, grade, serial number, banks, running bank, ID_BOOT.COUNT, service state, role. -/
def idBytes (s : State) : Bytes :=
  leBytes 2 0x8400 ++ [byte (fuseGrade s)] ++ leBytes 8 (fuseSerial s) ++ bankBytes s.cairn.bankA ++ bankBytes s.cairn.bankB ++
  [byte (getF s Reg.fabStartStatusBank)] ++ leBytes 4 (getF s Reg.idBootCount) ++ [byte (seqState s), byte (role s)]

/-- The limits of Table 1-6, each with its current use. -/
def limits (s : State) : List (Nat × Nat) :=
  [(8192, campGib s), (262144, valleyRawGib s), (196608, rangeGib s), (96, 6 * popcount (getF s Reg.sumStatusWaysOn) 16),
   (16384, s.conns.countP (·.2.st.live)), (4096, s.ids.length),
   (4, ((s.conns.map fun x => x.2.upPaths.length).foldl max 0)), (1048576, s.tables.regions.length),
   (4194304, s.tables.objects.length), (1024, s.tables.topos.length), (4096, s.tables.queues.length),
   (65536, s.tables.tags.length), (4096, s.key.slots.length), (16, s.key.roots.length)]

/-- ID_QUERY. -/
def execIdQuery (t : Nat) (s : State) : Out :=
  needs true s (onTicket s t 0x0101 fun _ => answer s t scOk 0 (idBytes s))

/-- LIMITS_QUERY. -/
def execLimitsQuery (t : Nat) (s : State) : Out :=
  needs true s (onTicket s t 0x0102 fun _ =>
    answer s t scOk 0 ((limits s).map fun x => leBytes 8 x.1 ++ leBytes 8 x.2).flatten)

/-! ## Identities and management keys -/

/-- IDENTITY_SET (Table 14-8): a quota above 16,384 is out of range. -/
def execIdentitySet (t : Nat) (s : State) : Out :=
  needs true s (onTicket s t 0x0103 fun tk =>
    if le tk.par 4 2 > 16384 then rangeAt s t 4
    else conclude (setIdent s tk.par) t false true scOk)

/-- IDENTITY_REMOVE (Table 14-6). -/
def execIdentityRemove (t ident : Nat) (s : State) : Out :=
  needs true s (onTicket s t 0x0104 fun _ =>
    if ! thas s.ids ident then answer s t scNotFound
    else
      let owned := s.tables.regions.any fun x => x.2.owner == ident
      conclude (removeIdent s ident) t owned true scOk 0 [] [ident])

/-- IDENTITY_QUERY: the record without keys, and the open connections. -/
def execIdentityQuery (t ident : Nat) (s : State) : Out :=
  needs true s (onTicket s t 0x0105 fun tk =>
    if ! tk.owns ident then answer s t scNotOwner
    else match tget s.ids ident with
      | none => answer s t scNotFound
      | some i =>
        let l := connsOf s ident
        answer s t scOk 0 ((identBytes ident i).take 8 ++ leBytes 2 l.length ++
          (l.map fun x => leBytes 3 (connNum x.1 x.2)).flatten))

/-- AUTH_KEY_SET (R388): 1 the operator key, 2 the custodian key, kept in the cairn configuration. -/
def execAuthKeySet (t : Nat) (s : State) : Out :=
  needs true s (onTicket s t 0x0106 fun tk =>
    let k := bsub tk.par 32 32
    let sel := le tk.par 0 1
    if sel = 1 then answer (cfgWrite { s with cmd.opKey := some k } fun c => { c with opKey := some k }) t scOk
    else if sel = 2 then answer (cfgWrite { s with cmd.custKey := some k } fun c => { c with custKey := some k }) t scOk
    else rangeAt s t 0)

/-! ## Regions and access groups (4) -/

/-- The part's choice of a region index, with the key that its next generation gives (R83); none when all are taken. -/
def newRegionKey (s : State) : Option Nat :=
  (tpick s.tables.regions 0 1048576 (freeVal s)).map fun i =>
    let g := tcnt s.tables.regionGen i
    i + (if g = 4095 then 1 else g + 1) * 1048576

/-- What R85 finds wrong with a registration: the status and its parameter's offset. -/
def regionRefusal (s : State) (tk : Ticket) (r : Region) : Option (Nat × Nat) :=
  match objOf s r.obj with
  | none => some (scNotFound, 0)
  | some o =>
    let writes := bit r.rights 1 || bit r.rights 2 || bit r.rights 3
    if ! tk.owns o.owner then some (scNotOwner, 0)
    else if r.base % 64 ≠ 0 then some (scOutOfRange, 0)
    else if r.len % 64 ≠ 0 ∨ r.len = 0 then some (scOutOfRange, 6)
    else if ! decide (o.base ≤ r.base ∧ r.base + r.len ≤ o.base + o.len) then some (scOutOfRange, 0)
    else if o.st = .deleting then some (scNotPermitted, 0)
    else if writes && (o.mirror == mirPublished || o.st == .publishing) then some (scNotPermitted, 0)
    else if o.sealed_.isSome && ! r.sealOut then some (scNotPermitted, 0)
    else if r.report = 0 then some (scOutOfRange, 15)
    else none

/-- REGION_REGISTER (R83 to R85). -/
def execRegionRegister (t : Nat) (s : State) : Out :=
  needs true s (onTicket s t 0x0201 fun tk =>
    match regionRefusal s tk (regionOfBytes 0 tk.par) with
    | some x => answer s t x.1 x.2
    | none =>
      match newRegionKey s with
      | none => rangeFree s t
      | some key => conclude (addRegion (useFree s) key tk.par) t true true scOk 0 (leBytes 4 key) [key])

/-- The 32 bytes of a region descriptor (Table 4-1). -/
def descriptorBytes (r : Region) : Bytes :=
  leBytes 4 r.key ++ regionBytes r ++ flagByte r.draining ++ leBytes 3 (min r.inflight 16777215)

/-- REGION_QUERY: the descriptor and the refusal counter (R84, R105). -/
def execRegionQuery (t key : Nat) (s : State) : Out :=
  needs true s (onTicket s t 0x0202 fun tk =>
    match regionOf s key with
    | none => answer s t scNotFound
    | some r =>
      if ! sees s tk r.owner r.group then answer s t scNotOwner
      else answer s t scOk 0 (descriptorBytes r ++ leBytes 4 r.refusals))

/-- REGION_REVOKE: DRAINING at once; answered when the region is REVOKED; one that joins a revocation already answered PENDING is
answered so too (R92). -/
def execRegionRevoke (t key : Nat) (s : State) : Out :=
  needs true s (onTicket s t 0x0203 fun tk =>
    match regionOf s key with
    | none => answer s t scNotFound
    | some r =>
      if ! tk.owns r.owner then answer s t scNotOwner
      else
        let s := { s with tables.regions := tmod s.tables.regions (keyIdx key) fun r => { r with revokers := r.revokers ++ [t] } }
        let s := working s t
        drainRegion (if r.pendingSent then sendPending s t else s) (keyIdx key))

/-- ACCESS_GROUP_SET: groups 1 to 4,095 (R86). -/
def execAccessGroupSet (t grp : Nat) (members : List Nat) (s : State) : Out :=
  needs true s (onTicket s t 0x0204 fun tk =>
    let ok := match tget s.tables.groups grp with | some g => tk.owns g.owner | none => true
    if grp = 0 ∨ 4096 ≤ grp then rangeFree s t
    else if ! ok then answer s t scNotOwner
    else
      let l := (members.filter fun m => decide (m < 4096)).eraseDups
      conclude (setGroup s grp tk.principal l) t true true scOk 0 [] (grp :: l))

/-- A set of identities as a 4,096-bit map. -/
def identMap (l : List Nat) : Bytes := leBytes 512 (l.foldl (fun m i => putBit m (i % 4096) true) 0)

/-- ACCESS_GROUP_QUERY. -/
def execAccessGroupQuery (t grp : Nat) (s : State) : Out :=
  needs true s (onTicket s t 0x0205 fun tk =>
    match tget s.tables.groups grp with
    | none => answer s t scNotFound
    | some g => if ! tk.owns g.owner then answer s t scNotOwner else answer s t scOk 0 (leBytes 2 g.owner ++ identMap g.members))

/-! ## Landing buffers and connections -/

/-- The connection that carries a command. -/
def Ticket.carrier (tk : Ticket) : Nat := match tk.chan with | .net c => c | _ => 0

/-- LANDING_REGISTER (R106). -/
def execLandingRegister (t key len : Nat) (s : State) : Out :=
  needs true s (onTicket s t 0x0206 fun tk =>
    let num := tk.carrier
    let ci := connIdx num
    if (connOf s num).isNone then answer s t scNotFound
    else if key = 0 ∨ 2 ^ 32 ≤ key ∨ len < 64 ∨ 16777216 < len then rangeFree s t
    else if ! thas s.ops.landings (landingKey ci key) && decide (s.ops.landings.length ≥ 262144) then rangeFree s t
    else conclude (addLanding s ci key len) t false true scOk 0 [] [num, key, len])

/-- LANDING_REMOVE (R106). -/
def execLandingRemove (t key : Nat) (s : State) : Out :=
  needs true s (onTicket s t 0x0207 fun tk =>
    let num := tk.carrier
    if ! thas s.ops.landings (landingKey (connIdx num) key) then answer s t scNotFound
    else conclude (removeLanding s (connIdx num) key) t false true scOk 0 [] [num, key])

/-- Paths with their sub-ports and retry counts, windows both ways, open messages. -/
def connBytes (s : State) (c : Conn) (num : Nat) : Bytes :=
  let w := windowOf s c
  leBytes 3 num ++ leBytes 3 c.hostNum ++ leBytes 2 c.ident ++ flagByte c.st.isOpen ++ leBytes 2 w.1 ++ leBytes 4 w.2 ++
  leBytes 2 c.winPk ++ leBytes 4 c.winBy ++ leBytes 2 (c.msgs.countP fun x => ! x.2.over) ++
  (c.paths.map fun x => [byte x.1] ++ flagByte x.2.up ++ [byte x.2.sub, byte x.2.retry]).flatten

/-- CONN_QUERY. -/
def execConnQuery (t conn : Nat) (s : State) : Out :=
  needs true s (onTicket s t 0x0208 fun tk =>
    match connOf s conn with
    | none => answer s t scNotFound
    | some c => if ! tk.owns c.ident then answer s t scNotOwner else answer s t scOk 0 (connBytes s c conn))

/-- CONN_CLOSE: CLOSE with reason 0x01 (R80). -/
def execConnClose (t conn : Nat) (s : State) : Out :=
  needs true s (onTicket s t 0x0209 fun tk =>
    match connOf s conn with
    | none => answer s t scNotFound
    | some c =>
      if ! tk.owns c.ident then answer s t scNotOwner
      else conclude (if c.st.isOpen then closeConn s (connIdx conn) 1 else s) t false true scOk 0 [] [conn])

/-! ## Chain queues and triggers (R108 to R114) -/

/-- A power of two from 16 to 4,096. -/
def depthOk (d : Nat) : Bool := [16, 32, 64, 128, 256, 512, 1024, 2048, 4096].contains d

/-- CHAIN_QUEUE_CREATE (R108, Table 4-7). -/
def execChainQueueCreate (t q owner oconn : Nat) (rep : Bool) (depth report : Nat) (s : State) : Out :=
  needs true s (onTicket s t 0x020A fun tk =>
    if ! tk.owns owner then answer s t scNotOwner
    else if 4096 ≤ q ∨ 4096 ≤ owner ∨ 2 ^ 24 ≤ oconn ∨ report = 0 ∨ 4 ≤ report then rangeFree s t
    else if ! depthOk depth then rangeFree s t
    else if (queueOf s q).isSome then busy2 s t
    else conclude (addQueue s q owner oconn rep depth report) t true true scOk 0 [] [q, owner, oconn, rep.toNat, depth, report])

/-- Runs `f` on a chain queue that the sender owns. -/
def onQueue (s : State) (tk : Ticket) (t q : Nat) (f : Queue → State) : State :=
  match queueOf s q with
  | none => answer s t scNotFound
  | some x => if ! tk.owns x.owner then answer s t scNotOwner else f x

/-- CHAIN_POST: up to 63 work requests, refused whole when they do not fit, or when a REPEAT queue holds a complete chain
(R109); a trigger that waits starts its run. -/
def execChainPost (t q : Nat) (wrs : List Bytes) (s : State) : Out :=
  needs true s (onTicket s t 0x020B fun tk => onQueue s tk t q fun x =>
    if wrs.length = 0 ∨ 63 < wrs.length ∨ wrs.any (·.length ≠ 64) then rangeFree s t
    else if x.depth < x.used + wrs.length then rangeFree s t
    else if x.repeatMode && x.endSlot.isSome then busy2 s t
    else
      let s := postWrs s q wrs
      let s := { s with cmd.tickets := tmod s.cmd.tickets t fun k => { k with par := wrs.flatten } }
      chainNext (conclude s t true true scOk 0 [] [q]) q)

/-- CHAIN_RESET: IDLE again, once nothing runs (R114). -/
def execChainReset (t q : Nat) (s : State) : Out :=
  needs true s (onTicket s t 0x020C fun tk => onQueue s tk t q fun x =>
    if x.st == .running || (match x.run with | some r => ! r.live.isEmpty | none => false) then busy2 s t
    else conclude (resetQueue s q) t true true scOk 0 [] [q])

/-- CHAIN_QUEUE_DELETE: the queue must be IDLE. -/
def execChainQueueDelete (t q : Nat) (s : State) : Out :=
  needs true s (onTicket s t 0x020D fun tk => onQueue s tk t q fun x =>
    if x.st != .idle then busy2 s t else conclude (deleteQueue s q) t true true scOk 0 [] [q])

/-- The fields of Table 4-7. -/
def queueBytes (x : Queue) : Bytes :=
  leBytes 2 x.owner ++ leBytes 3 x.oconn ++ flagByte x.repeatMode ++ leBytes 2 x.depth ++ leBytes 2 x.head ++
  leBytes 2 ((x.head + x.used) % x.depth) ++ [byte (match x.st with | .idle => 0 | .running => 1 | .error => 2),
  byte x.pend.length, byte x.report] ++ leBytes 4 x.runs ++ leBytes 4 x.failures

/-- CHAIN_QUERY. -/
def execChainQuery (t q : Nat) (s : State) : Out :=
  needs true s (onTicket s t 0x020E fun tk => onQueue s tk t q fun x => answer s t scOk 0 (queueBytes x))

/-- TRIGGER_BIND: tags 1 to 65,535 (R112). -/
def execTriggerBind (t tag q grp : Nat) (s : State) : Out :=
  needs true s (onTicket s t 0x020F fun tk => onQueue s tk t q fun _ =>
    if tag = 0 ∨ 65536 ≤ tag ∨ 4096 ≤ grp then rangeFree s t
    else if thas s.tables.tags tag then busy2 s t
    else conclude (bindTag s tag q grp) t true true scOk 0 [] [tag, q, grp])

/-- TRIGGER_UNBIND (R112). -/
def execTriggerUnbind (t tag : Nat) (s : State) : Out :=
  needs true s (onTicket s t 0x0210 fun tk =>
    match tget s.tables.tags tag with
    | none => answer s t scNotFound
    | some b => onQueue s tk t b.queue fun _ => conclude (unbindTag s tag) t true true scOk 0 [] [tag])

/-! ## Ports (R42, R44, R68, R81, R118) -/

/-- The registers that PORT_CONFIG writes. -/
def portReg (off : Nat) : Bool :=
  [0xC0000, 0xC0008, 0xC0018].contains off || (decide (0xC0040 ≤ off ∧ off < 0xC0080) && off % 8 == 0) ||
  (decide (0xC1018 ≤ off ∧ off < 0xC1800) && off % 256 == 0x18)

/-- Writes registers one by one; none when one of them is refused. -/
def regCommands (s : State) : List (Nat × BitVec 64) → Option State
  | [] => some s
  | (off, w) :: l => (regCommand s off w.toNat).bind fun s => regCommands s l

/-- A degraded or failed sub-port has its lanes back: at full rate at once when it runs, by training when it is down. -/
def restoreSub (s : State) (sub : Nat) : State :=
  let p := sub / 4
  let mode := getF s (Reg.hpPortCfgMode p)
  if ! (modeSubs mode).contains (sub % 4) then s
  else
    let lanes := modeLanes mode (sub % 4)
    let bad := lanes.any fun l => bitF s (Reg.hpPortStatusLaneFail p) l
    let s := lanes.foldl (fun s l => putF s (Reg.hpPortStatusLaneFail p) l false) s
    if subState s sub = subDegraded then
      portEvent (pitchEv (setSub s sub subUp) (srcPort p) .portRestored [sub, mode]) sub 0x0303 mode
    else if subState s sub = subDown && bad then setSub s sub subTraining
    else s

/-- PORT_CONFIG: refused whole when a value is out of range. -/
def execPortConfig (t : Nat) (writes : List (Nat × BitVec 64)) (restore : List Nat) (s : State) : Out :=
  needs true s (onTicket s t 0x0211 fun _ =>
    if (writes.any fun x => ! portReg x.1) || (restore.any fun k => 32 ≤ k) then rangeFree s t
    else match regCommands s writes with
      | none => rangeFree s t
      | some s' => answer (restore.foldl restoreSub s') t scOk)

end Sys2Proof.Machine
end

