-- ==== Sys2Proof/Machine/CmdRange.lean ====
section
/-! DEFINITION. Meanings of the command group 0x03 (14): objects, topos, summit extents, the range (5, 9). -/

namespace Sys2Proof.Machine

/-! ## Places for objects (R129, R132, R262) -/

/-- The free extents of the range in slabs, lowest first: (first, end). -/
def freeExtents (s : State) : List (Nat × Nat) :=
  let used := sortBy (fun (a b : Nat × Nat) => decide (a.1 ≤ b.1))
    (s.tables.objects.map fun x => (x.2.base / 16384, x.2.base / 16384 + x.2.slabCount))
  let r := used.foldl (fun (acc : List (Nat × Nat) × Nat) u => (acc.1 ++ [(acc.2, u.1)], u.2)) ([], 0)
  (r.1 ++ [(r.2, rangeGib s * 65536)]).filter fun e => decide (e.1 < e.2)

/-- The first slab of an extent from `a` whose partition is `r`. -/
def enterAt (a r : Nat) : Nat := a + (r + 256 - a % 256) % 256

/-- The base of a new object of `k` slabs (R129). -/
def objBase (s : State) (k : Nat) : Option Nat :=
  let r := s.tables.objNext % 256
  let es := freeExtents s
  match es.find? fun e => decide (enterAt e.1 r + k ≤ e.2) with
  | some e => some (enterAt e.1 r * 16384)
  | none => (es.find? fun e => decide (e.1 + k ≤ e.2)).map fun e => e.1 * 16384

/-- Frames of a partition that pinned objects reserve, object `but` left out. -/
def reservedIn (s : State) (but p : Nat) : Nat :=
  ((s.tables.objects.filter fun x => decide (x.2.cls ≤ 1) && x.1 != but).map fun x => slabsIn (x.2.base / 16384) x.2.slabCount p).sum

/-- The limits of R132 for an object of class `cls`, first slab `f`, `len` bytes. -/
def placementFits (s : State) (n cls f len : Nat) : Bool :=
  decide (1 < cls) ||
  ((List.range 256).all fun p =>
    let r := reservedIn s n p + slabsIn f (cdiv len 16384) p
    decide (r * 8 ≤ partFrames s * 7 ∧ r + budgetGib s * 256 ≤ partFrames s)) &&
  (cls != 0 || thas s.sum.runs n || (freeRun s (waysNeeded len)).isSome)

/-! ## Objects -/

/-- OBJECT_CREATE (R129, R132, Table 14-7). -/
def execObjectCreate (t : Nat) (s : State) : Out :=
  needs true s (onTicket s t 0x0301 fun tk =>
    let b := tk.par
    let len := le b 0 8
    let cls := le b 8 1
    if ! tk.owns (le b 10 2 % 4096) then answer s t scNotOwner
    else if len = 0 ∨ len % 64 ≠ 0 then rangeAt s t 0
    else if 3 < cls then rangeAt s t 8
    else if 1 < le b 9 1 then rangeAt s t 9
    else match tpick s.tables.objects 0 4194304 (freeVal s), objBase s (cdiv len 16384) with
      | some n, some base =>
        if ! placementFits s n cls (base / 16384) len then rangeAt s t 8
        else conclude (addObject (useFree s) n base b) t true true scOk 0 (leBytes 4 n ++ leBytes 6 base) [n, base]
      | _, none => rangeAt s t 0
      | none, _ => rangeFree s t)

/-- Runs `f` on an object that the sender owns. -/
def onObject (s : State) (tk : Ticket) (t n : Nat) (f : Obj → State) : State :=
  match objOf s n with
  | none => answer s t scNotFound
  | some o => if ! tk.owns o.owner then answer s t scNotOwner else f o

def objStNum : ObjSt → Nat
  | .opened => 0 | .publishing => 1 | .published => 2 | .deleting => 3

/-- The fields of Table 5-4. -/
def objectBytes (n : Nat) (o : Obj) : Bytes :=
  leBytes 4 n ++ leBytes 6 o.base ++ leBytes 8 o.len ++ leBytes 2 o.owner ++
  [byte o.cls, byte o.mirror, byte (objStNum o.st), byte o.sealed_.isSome.toNat] ++ bfit o.digest 32 ++ leBytes 8 o.check

/-- OBJECT_QUERY (R130). -/
def execObjectQuery (t obj : Nat) (s : State) : Out :=
  needs true s (onTicket s t 0x0302 fun tk => onObject s tk t obj fun o => answer s t scOk 0 (objectBytes obj o))

/-- Looks at once whether a command that works in the background is done. -/
def lookNow (s : State) (t : Nat) (f : State → Nat → Ticket → State) : State :=
  match tget s.cmd.tickets t with
  | some tk => f s t tk
  | none => s

/-- OBJECT_SET_PLACEMENT (R132, R133): answered when every slab stands. -/
def execObjectSetPlacement (t obj cls : Nat) (s : State) : Out :=
  needs true s (onTicket s t 0x0303 fun tk => onObject s tk t obj fun o =>
    if 3 < cls then rangeFree s t
    else if o.st = .deleting then answer s t scNotPermitted
    else if ! placementFits s obj cls (o.base / 16384) o.len then rangeFree s t
    else lookNow (placeObject (working s t [obj, cls]) obj cls) t placeCheck)

/-- An extent inside an object. -/
def inObject (o : Obj) (start len : Nat) : Bool := decide (0 < len ∧ start + len ≤ o.len)

/-- OBJECT_EVICT (R149); on an unbuilt segment it parks (R158). -/
def execObjectEvict (t obj start len : Nat) (s : State) : Out :=
  needs true s (onTicket s t 0x0304 fun tk => onObject s tk t obj fun o =>
    if ! inObject o start len then rangeFree s t
    else
      match unbuiltOf s (slabsOf (o.base + start) len) with
      | [] =>
        let r := (slabsOf (o.base + start) len).foldl (evictOne t) (s, 0)
        lookNow (working r.1 t [r.2]) t evictCheck
      | l => l.foldl askSegment (working s t [obj, start, len]))

/-- OBJECT_TRIM: a slab-aligned extent of an OPEN object (R135); commands that wait for its slabs look again. On an unbuilt segment
it parks (R158). -/
def execObjectTrim (t obj start len : Nat) (s : State) : Out :=
  needs true s (onTicket s t 0x0305 fun tk => onObject s tk t obj fun o =>
    if o.st != .opened then answer s t scNotPermitted
    else if start % 16384 ≠ 0 ∨ len % 16384 ≠ 0 ∨ len = 0 ∨ o.slabCount * 16384 < start + len then rangeFree s t
    else match unbuiltOf s (slabsOf (o.base + start) len) with
      | [] => bgCheck (conclude (trimObject s obj start len) t false true scOk 0 [] [obj, start, len])
      | l => l.foldl askSegment (working s t [obj, start, len]))

/-- OBJECT_DELETE: answered when the number is freed; another one joins, with a PENDING that was sent (R135). Unbuilt segments are
built first (R158). -/
def execObjectDelete (t obj : Nat) (s : State) : Out :=
  needs true s (onTicket s t 0x0306 fun tk => onObject s tk t obj fun o =>
    if o.st == .publishing then busy2 s t
    else
      let late := o.waiters.any fun k => ((tget s.cmd.tickets k).map (·.pendingSent)).getD false
      let s := modObj (working s t) obj fun o => { o with waiters := o.waiters ++ [t] }
      bgCheck (deleteObject (if late then sendPending s t else s) obj))

/-- The end of a sealed object's tag table (R286). -/
def tagEnd (d : Nat) : Nat := cdiv d 4096 * 4096 + cdiv d 4096 * 16

/-- What stands against a publish (R134, R277, R286): the status and its detail. -/
def publishRefusal (s : State) (n : Nat) (o : Obj) (b : Bytes) : Option (Nat × Nat) :=
  if o.st = .publishing then some (scBusy, 2)
  else if o.st ≠ .opened ∨ o.mirror ≠ mirUnroped then some (scNotPermitted, 0)
  else if s.tables.regions.any fun x => x.2.obj == n && (bit x.2.rights 1 || bit x.2.rights 2 || bit x.2.rights 3) then some (scBusy, 2)
  else if ! pubSeal b then none
  else if 16 ≤ pubRoot b then some (scOutOfRange, 5)
  else match tget s.key.roots (pubRoot b) with
    | none => some (scNotFound, 0)
    | some r =>
      if r.kind ≠ 1 then some (scNotPermitted, 0)
      else if pubLen b = 0 ∨ pubLen b % 64 ≠ 0 ∨ o.len ≠ cdiv (tagEnd (pubLen b)) 64 * 64 then some (scOutOfRange, 24)
      else none

/-- OBJECT_PUBLISH (R134, R277, R287, R337): answered when the object stands PUBLISHED. -/
def execObjectPublish (t : Nat) (s : State) : Out :=
  needs true s (onTicket s t 0x0307 fun tk =>
    let n := le tk.par 0 3 % 2 ^ 22
    onObject s tk t n fun o =>
      match publishRefusal s n o tk.par with
      | some x => answer s t x.1 x.2
      | none => publishGo (modObj (working s t [n]) n fun o => { o with st := .publishing, pub := tk.par, waiters := [t] }) n)

/-! ## Topos (R151 to R155) -/

/-- TOPO_CREATE (Table 5-9). -/
def execTopoCreate (t : Nat) (s : State) : Out :=
  needs true s (onTicket s t 0x0308 fun tk =>
    let b := tk.par
    let n := le b 0 2
    if ! tk.owns (le b 6 2 % 4096) then answer s t scNotOwner
    else if 1024 ≤ n then rangeAt s t 0
    else if 8 < le b 2 1 ∧ le b 2 1 ≠ 0xFF then rangeAt s t 2
    else if 15 < le b 3 1 ∧ le b 3 1 ≠ 0xFF then rangeAt s t 3
    else if le b 8 2 = 0 ∨ 4096 < le b 8 2 then rangeAt s t 8
    else if thas s.tables.topos n then busy2 s t
    else conclude (addTopo s b) t true true scOk)

/-- Runs `f` on a topo that the sender owns. -/
def onTopo (s : State) (tk : Ticket) (t n : Nat) (f : Topo → State) : State :=
  match tget s.tables.topos n with
  | none => answer s t scNotFound
  | some x => if ! tk.owns x.owner then answer s t scNotOwner else f x

/-- The offset of the first extent of a step that is not whole lines (Table 5-10). -/
def badExtent (b : Bytes) : Option Nat :=
  ((List.range (le b 2 2)).find? fun i =>
    let e := stepExtent b i
    e.2.1 % 64 != 0 || e.2.2 % 64 != 0 || e.2.2 == 0).map fun i =>
      if (stepExtent b i).2.1 % 64 ≠ 0 then 20 + 16 * i else 26 + 16 * i

/-- Extents held by all topos (R151: 1,048,576). -/
def extentsHeld (s : State) : Nat := (s.tables.topos.map fun x => (x.2.steps.map fun k => k.2.length).sum).sum

/-- TOPO_STEP_ADD (Table 5-10). -/
def execTopoStepAdd (t topo : Nat) (s : State) : Out :=
  needs true s (onTicket s t 0x0309 fun tk => onTopo s tk t topo fun x =>
    let b := tk.par
    if x.committed then answer s t scNotPermitted
    else if x.count ≤ le b 0 2 then rangeAt s t 0
    else if le b 2 2 = 0 ∨ 255 < le b 2 2 then rangeAt s t 2
    else match badExtent b with
      | some off => rangeAt s t off
      | none =>
        if 1048576 < extentsHeld s + le b 2 2 then rangeFree s t
        else conclude (addStep s topo b) t true true scOk 0 [] [topo])

/-- Whether an identity may have an object in its topos: its owner, or a member of the access group of a region on it. -/
def mayTopo (s : State) (ident n : Nat) (o : Obj) : Bool :=
  o.owner == ident || s.tables.regions.any fun x => x.2.obj == n && mayUse s ident 4096 x.2.group

/-- Whether every step is there and every extent names what it may (R151). DESIGN CHOICE (log entry 123): the identity that R151
tests is the topo's owner identity, not the sender of TOPO_COMMIT. -/
def topoSound (s : State) (x : Topo) : Bool :=
  ((List.range x.count).all fun k => thas x.steps k) &&
  (x.steps.all fun k => k.2.all fun e => match objOf s e.1 with
    | some o => decide (e.2.1 + e.2.2 ≤ o.len) && mayTopo s x.owner e.1 o
    | none => false)

/-- TOPO_COMMIT (R151). -/
def execTopoCommit (t topo : Nat) (s : State) : Out :=
  needs true s (onTicket s t 0x030A fun tk => onTopo s tk t topo fun x =>
    if x.committed then answer s t scNotPermitted
    else if ! topoSound s x then rangeFree s t
    else conclude (commitTopo s topo) t true true scOk 0 [] [topo])

/-- TOPO_DELETE (R151). -/
def execTopoDelete (t topo : Nat) (s : State) : Out :=
  needs true s (onTicket s t 0x030B fun tk => onTopo s tk t topo fun _ =>
    conclude (deleteTopo s topo) t true true scOk 0 [] [topo])

/-- TOPO_ADVANCE: the marker in either direction (R153), logged before the answer, since a marker is a system table (R124). -/
def execTopoAdvance (t topo step : Nat) (s : State) : Out :=
  needs true s (onTicket s t 0x030C fun tk => onTopo s tk t topo fun x =>
    if ! x.committed then answer s t scNotPermitted
    else if x.count ≤ step then rangeFree s t
    else
      let s := setMarker s topo step
      let now := s.timebase
      conclude { s with tables.topos := tmod s.tables.topos topo fun x => { x with logged := step, loggedAt := some now } }
        t true true scOk 0 [] [topo, step])

/-- Marker, window, slabs of the current and lookahead steps and how many of them camp holds. -/
def topoBytesOut (s : State) (x : Topo) : Bytes :=
  let l := (x.stepsFrom 0 (x.lookN s)).flatMap (x.stepSlabs s)
  leBytes 2 x.marker ++ [byte (x.trailN s), byte (x.lookN s)] ++ flagByte x.committed ++ leBytes 4 l.length ++
  leBytes 4 (l.countP fun n => (slabOf s n).st.resident)

/-- TOPO_QUERY: for the owner, and for members of an access group of a region on a named object. -/
def execTopoQuery (t topo : Nat) (s : State) : Out :=
  needs true s (onTicket s t 0x030D fun tk =>
    match tget s.tables.topos topo with
    | none => answer s t scNotFound
    | some x =>
      let member := x.steps.any fun k => k.2.any fun e =>
        s.tables.regions.any fun r => r.2.obj == e.1 && r.2.group != 0 && mayUse s tk.ident r.2.owner r.2.group
      if ! tk.owns x.owner && ! member then answer s t scNotOwner else answer s t scOk 0 (topoBytesOut s x))

/-! ## Summit extents (R263, R264) -/

/-- SUM_RELOAD: the locked slots of an extent of a pin-summit object. -/
def execSumReload (t obj start len : Nat) (s : State) : Out :=
  needs true s (onTicket s t 0x030E fun tk => onObject s tk t obj fun o =>
    if o.cls ≠ 0 then answer s t scNotPermitted
    else if ! inObject o start len then rangeFree s t
    else answer (loadLockedExtent s (o.base + start) len) t scOk)

/-- SUM_INVALIDATE: a host names only extents of its own objects. Locked lines in a topo's current and lookahead steps are loaded
again (R155). -/
def execSumInvalidate (t addr len : Nat) (s : State) : Out :=
  needs true s (onTicket s t 0x030F fun tk =>
    let own := (slabsOf addr len).all fun n => match objOfSlab s n with | some (_, o) => tk.owns o.owner | none => tk.mgmt
    if len = 0 ∨ rangeGib s * 2 ^ 30 < addr + len then rangeFree s t
    else if ! own then answer s t scNotOwner
    else answer (reloadWindows (sumInvalidate s addr len) addr len) t scOk)

/-! ## The range (R16, R160, R261, R458) -/

/-- RANGE_CONFIG: a formatted valley keeps its range size; at stage 8 it may format the valley and open the gate. -/
def execRangeConfig (t : Nat) (w : BitVec 64) (lockWays : Nat) (s : State) : Out :=
  needs true s (onTicket s t 0x0310 fun _ =>
    let g := inFld Reg.campRangeCfgRangeGib w.toNat
    match s.val.root.filter fun r => r.rangeGib != g with
    | some _ => answer s t scNotPermitted
    | none =>
      if lockWaysBad s lockWays && lockWays != getF s Reg.sumCfgLockWays then rangeFree s t
      else match regCommand s 0xA0000 w.toNat with
        | none => rangeFree s t
        | some s' =>
          let s := lockWaysSet s' lockWays
          let s := if stage s = 8 then (gate s).1 else s
          answer s t scOk)

end Sys2Proof.Machine
end

