-- ==== Sys2Proof/Machine/CmdKey.lean ====
section
/-! DEFINITION. Meanings of the command groups 0x04 and 0x05 (14): roots, key slots, unseal, check-value contexts (10), the
rope team (11). -/

namespace Sys2Proof.Machine

/-- Runs `f` for the management principal: the item is in no host identity's scope (R387). -/
def mgmtOnly (s : State) (tk : Ticket) (t : Nat) (f : State) : State := if tk.mgmt then f else answer s t scNotOwner

/-- A register-writing command: refused whole when a value is out of range. -/
def configReg (s : State) (t off : Nat) (w : BitVec 64) : State :=
  match regCommand s off w.toNat with
  | none => rangeFree s t
  | some s' => answer s' t scOk

/-! ## Roots (R272, R273) -/

/-- Whether a slot is derived from a root that is there. -/
def rootBound (s : State) (n : Nat) : Bool := thas s.key.roots n && s.key.slots.any (·.2.root == n)

/-- KEY_ROOT_LOAD: the checks of the blob first, then the slots bound from its index. -/
def execKeyRootLoad (t : Nat) (s : State) : Out :=
  needs true s (onTicket s t 0x0401 fun tk =>
    if 16 ≤ le tk.par 4 1 then rangeAt s t 4
    else match unwrapRoot s tk.par with
      | none => answer s t scAuthFailed 4
      | some (n, r) =>
        if rootBound s n then busy2 s t
        else
          let s := cfgWrite { s with key.blobs := tset s.key.blobs n tk.par } fun c => { c with roots := tset c.roots n tk.par }
          answer (setRoot s n (some r)) t scOk)

/-- KEY_ROOT_UNLOAD. -/
def execKeyRootUnload (t root : Nat) (s : State) : Out :=
  needs true s (onTicket s t 0x0402 fun _ =>
    if 16 ≤ root then rangeFree s t
    else if ! thas s.key.roots root && ! thas s.key.blobs root then answer s t scNotFound
    else if rootBound s root then busy2 s t
    else
      let s := cfgWrite { s with key.blobs := tdel s.key.blobs root } fun c => { c with roots := tdel c.roots root }
      answer (setRoot s root none) t scOk)

/-- KEY_ROOT_QUERY: KEY_ROOT_STATUS and the 16 root IDs. -/
def execKeyRootQuery (t : Nat) (s : State) : Out :=
  needs true s (onTicket s t 0x0403 fun _ =>
    answer s t scOk 0 (regBytes s [0xE0008] ++
      ((List.range 16).map fun n => leBytes 8 (((tget s.key.roots n).map (·.id)).getD 0)).flatten))

/-! ## Key slots (R276, R280, R285) -/

/-- KEY_SESSION_QUERY. -/
def execKeySessionQuery (t conn : Nat) (s : State) : Out :=
  needs true s (onTicket s t 0x0404 fun tk =>
    match connOf s conn with
    | none => answer s t scNotFound
    | some c =>
      if ! tk.owns c.ident then answer s t scNotOwner
      else match connSlot s c with
        | none => answer s t scNotFound
        | some (n, k) => answer s t scOk 0 (leBytes 2 n ++ [byte k.limit, byte k.auto.toNat] ++ leBytes 2 k.genMax))

/-- Whether a slot is in the sender's scope: a session slot of its connection, a title slot of its object. -/
def slotInScope (s : State) (tk : Ticket) (n : Nat) : Bool :=
  tk.mgmt || (s.conns.any fun c => c.2.slot == some n && c.2.ident == tk.ident) ||
  s.tables.objects.any fun o => o.2.sealed_.bind (·.slot) == some n && o.2.owner == tk.ident

/-- KEY_SLOT_STEP: of a session slot; GEN_MAX ends at 65,535. -/
def execKeySlotStep (t slot : Nat) (s : State) : Out :=
  needs true s (onTicket s t 0x0405 fun tk =>
    if 4096 ≤ slot then rangeFree s t
    else if ! slotInScope s tk slot then answer s t scNotOwner
    else match tget s.key.slots slot with
      | none => answer s t scNotFound
      | some k =>
        if k.title || decide (65535 ≤ k.genMax) then rangeFree s t
        else conclude (stepSlot s slot) t false true scOk 0 [] [slot])

/-- Table 10-3 without the key. -/
def slotBytes (k : KeySlot) : Bytes :=
  [byte (match k.st with | .bound => 1 | .exhausted => 2), byte (! k.title).toNat, byte k.root] ++ bfit k.label 16 ++
  [byte k.limit, byte k.auto.toNat] ++ leBytes 2 k.genMax ++ leBytes 8 k.out ++ leBytes 8 k.in_ ++ leBytes 8 k.resv ++
  leBytes 8 k.decrypts

/-- KEY_SLOT_QUERY: a FREE slot shows zeros. -/
def execKeySlotQuery (t slot : Nat) (s : State) : Out :=
  needs true s (onTicket s t 0x0406 fun tk =>
    if 4096 ≤ slot then rangeFree s t
    else if ! slotInScope s tk slot then answer s t scNotOwner
    else answer s t scOk 0 (match tget s.key.slots slot with | some k => slotBytes k | none => zeros 55))

/-- KEY_CONFIG (R303). -/
def execKeyConfig (t : Nat) (w : BitVec 64) (s : State) : Out :=
  needs true s (onTicket s t 0x0407 fun _ => configReg s t 0xE0000 w)

/-! ## Unseal (R292) -/

/-- What stands against an unseal: the status. Its destination is an unsealed OPEN object, whose regions seal nothing that a
registration did not ask for (R293). -/
def unsealRefusal (s : State) (obj unit count srcKey dstKey dst : Nat) : Option Nat :=
  match objOf s obj, regionOf s srcKey, regionOf s dstKey with
  | some o, some a, some b =>
    match o.sealed_, objOf s b.obj with
    | some si, some d =>
      if a.obj ≠ obj ∨ a.draining ∨ b.draining ∨ ! a.sealOut ∨ ! bit b.rights 1 then some scNotPermitted
      else if d.mirror ≠ mirUnroped ∨ d.sealed_.isSome ∨ d.st ≠ .opened then some scNotPermitted
      else if count = 0 ∨ cdiv si.dataLen 4096 < unit + count then some scOutOfRange
      else
        let first := o.base + unit * 4096
        let len := (unit + count - 1) * 4096 + unitLen si.dataLen (unit + count - 1) - unit * 4096
        if first < a.base ∨ a.base + a.len < first + len then some scOutOfRange
        else if dst % 64 ≠ 0 ∨ dst < b.base ∨ b.base + b.len < dst + len then some scOutOfRange
        else if si.slot.isNone then some scNotPermitted
        else none
    | _, _ => some scNotPermitted
  | _, _, _ => some scNotFound

/-- CONTENT_UNSEAL: a mover job of class 3, with a cipher request for each unit; the last one done answers. -/
def execContentUnseal (t srcKey obj unit count dstKey dstAddr : Nat) (s : State) : Out :=
  needs true s (onTicket s t 0x0408 fun _ =>
    match unsealRefusal s obj unit count srcKey dstKey dstAddr with
    | some st => if st = scOutOfRange then rangeFree s t else answer s t st
    | none =>
      let hold := ((regionOf s srcKey).map (·.holdMode)).getD false
      addJob (working s t [obj, unit, count, 0, hold.toNat, dstAddr]) 3 (.unseal t))

/-! ## Check-value contexts (R300, R301) -/

/-- CVU_CONTEXT_SET: contexts 16 to 1,023; it waits while a CHECK uses the context (Table 10-8). -/
def execCvuContextSet (t ctx : Nat) (par : CrcPar) (owner : Nat) (chained : Bool) (run : Option (BitVec 64)) (s : State) : Out :=
  needs true s (onTicket s t 0x0409 fun tk => mgmtOnly s tk t (
    if 1024 ≤ ctx ∨ 4096 ≤ owner then rangeFree s t
    else if ctx < 16 then answer s t scNotPermitted
    else match ctxParams par with
      | none => rangeFree s t
      | some (w, poly, init, ri, ro, xo, p) =>
        ctxLater (working s t) { ctx := ctx, ticket := some t, nums :=
          [w, poly, init, ri.toNat, ro.toNat, xo, p, owner, chained.toNat, run.isSome.toNat, (run.getD 0).toNat] }))

/-- CVU_CONTEXT_GET: parameters, owner, running value, last result. -/
def execCvuContextGet (t ctx : Nat) (s : State) : Out :=
  needs true s (onTicket s t 0x040A fun tk => mgmtOnly s tk t (
    if 1024 ≤ ctx then rangeFree s t
    else
      let c := ctxOf s ctx
      answer s t scOk 0 (leBytes 8 (ctxCfgBits c + c.busy.toNat * 2 ^ 28) ++ leBytes 8 c.poly ++ leBytes 8 c.init ++
        leBytes 8 c.xorout ++ leBytes 8 c.value ++ leBytes 8 c.result)))

/-! ## The rope team (R305, R319, R332, R333, R341) -/

/-- ROPE_QUERY: RL_STATUS, RL_INDEX, RL_EPOCH, and each connection with its fills (a host's own ones). -/
def execRopeQuery (t : Nat) (s : State) : Out :=
  needs true s (onTicket s t 0x0501 fun tk =>
    answer s t scOk 0 (regBytes s [0xD0008, 0xD0010, 0xD0018] ++
      ((s.conns.filter fun x => tk.owns x.2.ident).map fun x => leBytes 3 (connNum x.1 x.2) ++ leBytes 4 x.2.fills).flatten))

/-- ROPE_HANDOVER: in a ROPED team; at the Lead the sequence starts, at the Second by its request, not counted (R332);
answered when it is complete. -/
def execRopeHandover (t : Nat) (s : State) : Out :=
  needs true s (onTicket s t 0x0502 fun tk => mgmtOnly s tk t (
    if team s ≠ teamRoped ∨ s.rope.handoverTicket.isSome then busy2 s t
    else
      let s := working { s with rope.handoverTicket := some t } t
      if isSecond s then ropeSend s true .returnRequest else startReturn s))

/-- ROPE_RETURN_ENABLE. -/
def execRopeReturnEnable (t : Nat) (s : State) : Out :=
  needs true s (onTicket s t 0x0503 fun tk => mgmtOnly s tk t (
    let v := le tk.par 0 1
    if 1 < v then rangeAt s t 0 else answer (setB s Reg.rlCfgReturnEn (v = 1)) t scOk))

/-- ROPE_SOLO: a part that negotiates without an answer opens service single, at once when it already waits for this
order (Table 11-1). -/
def execRopeSolo (t : Nat) (s : State) : Out :=
  needs true s (onTicket s t 0x0504 fun _ =>
    if serviceOpen s || team s != teamNegotiating then busy2 s t
    else
      let s := { s with start.soloOrdered := true }
      let s := if getF s Reg.fabStartStatusWait = 4 then openSingle (setF s Reg.fabStartStatusWait 0) else s
      answer s t scOk)

/-- ROPE_CONFIG (R341). -/
def execRopeConfig (t : Nat) (w : BitVec 64) (s : State) : Out :=
  needs true s (onTicket s t 0x0505 fun _ => configReg s t 0xD0000 w)

end Sys2Proof.Machine
end

