-- ==== Sys2Proof/Machine/LogBytes.lean ====
section
/-! DEFINITION. The bytes of logbook and pitch-log records and of notification queue entries (15). -/

namespace Sys2Proof.Machine

/-- Bytes of an event's detail: the layouts of Table 15-4; open for the others (log entry 4). -/
def detailOf (e : Ev) (l : List Nat) (len : Nat) : Bytes :=
  bfit (match e with
    | .timeMark => leBytes 8 (numAt l 0) ++ leBytes 4 (numAt l 1) ++ zeros 4 ++ leBytes 8 (numAt l 2)
    | .logFull => leBytes 8 (numAt l 0) ++ leBytes 4 (numAt l 1)
    | .logCleared => leBytes 2 (numAt l 0) ++ [byte (numAt l 1)] ++ zeros 5 ++ leBytes 8 (numAt l 2) ++ leBytes 8 (numAt l 3) ++
        leBytes 4 (numAt l 4)
    | .recordLost => leBytes 8 (numAt l 0)
    | .startOverflow => leBytes 4 (numAt l 0)
    | .queueReset => [byte (numAt l 0)] ++ zeros 3 ++ leBytes 4 (numAt l 1)
    | .restart => leBytes 8 (numAt l 0) ++ leBytes 8 (numAt l 1)
    | .freezeGap => leBytes 2 (numAt l 0)
    | e => Config.detailBytes e.idx l) len

/-- A logbook record (Table 15-3). -/
def recBytes (r : LogRec) : Bytes :=
  leBytes 8 r.seq ++ leBytes 2 r.rep ++ leBytes 2 (evCode r.src r.ev) ++
  [byte r.unit, byte (evSeverity r.ev), byte (r.posted.toNat + 2 * r.sat.toNat), 0] ++ detailOf r.ev r.detail 48

/-- A pitch-log record (Table 15-2). -/
def pitchBytes (r : PitchRec) : Bytes :=
  leBytes 8 r.stamp ++ leBytes 2 (evCode r.src r.ev) ++ [byte (evSeverity r.ev), byte r.logged.toNat] ++ detailOf r.ev r.detail 20

/-- The 8-byte header of a pitch log (R413, Table 18-8). -/
def plogHeader (l : PitchLog) : Bytes := leBytes 8 (l.missed + l.oldest * 2 ^ 16 + l.frozen.toNat * 2 ^ 24)

/-- Word 0 of a queue entry (Table 15-5). -/
def nqWord (e : NqEntry) : Nat :=
  2 ^ 63 + (match e.body with | .cont _ => 2 ^ 62 | _ => 0) + e.left % 16 * 2 ^ 58 +
  (match e.body with | .notif _ => 1 | _ => 2) * 2 ^ 40 + e.num % 2 ^ 32

/-- A notification queue entry (Table 15-5). -/
def nqBytes (e : NqEntry) : Bytes :=
  leBytes 8 (nqWord e) ++ bfit (match e.body with
    | .notif r => leBytes 8 r.seq ++ leBytes 2 (evCode r.src r.ev) ++ [byte r.unit, byte (evSeverity r.ev)] ++
        detailOf r.ev r.detail 44
    | .send ident conn len msn data => leBytes 2 ident ++ leBytes 3 conn ++ [0] ++ leBytes 2 len ++ leBytes 4 msn ++ data
    | .cont data => data) 56

/-- A frozen log resumes: FREEZE_GAP with its missed count, which starts again (R413). -/
def thawLog (s : State) (n : Nat) : State :=
  let l := plogOf s n
  if ! l.frozen then s
  else plogAdd { s with plog := tset s.plog n { l with frozen := false, missed := 0, thawAt := 0 } } n .freezeGap [l.missed] false

/-- Recording stops in a log; it thaws by itself 10 s after the latest FREEZE. -/
def freezeLog (s : State) (n : Nat) : State :=
  { s with plog := tset s.plog n { plogOf s n with frozen := true, thawAt := s.timebase + sec 10 } }

end Sys2Proof.Machine
end

