-- ==== Sys2Proof/Machine/CmdPower.lean ====
section
/-! DEFINITION. Meanings of the command groups 0x06 and 0x07 (14): power, thermal, domains (2, 12, 13), logbook, pitch
logs, telemetry, notification routing (15). -/

namespace Sys2Proof.Machine

/-! ## Power and thermal -/

/-- Registers at `base`, `base + 8`, … -/
def regRun (base n : Nat) : List Nat := (List.range n).map fun i => base + 8 * i

/-- PWR_STATUS: SEQ_STATUS, SEQ_FAULT, SEQ_MON_READn, SEQ_REPLAY. -/
def execPwrStatus (t : Nat) (s : State) : Out :=
  needs true s (onTicket s t 0x0601 fun _ =>
    answer s t scOk 0 (regBytes s ([0x50008, 0x50010] ++ regRun 0x50040 8 ++ [0x50018])))

/-- PWR_SHUTDOWN: an orderly shutdown of a part in service (R353). -/
def execPwrShutdown (t : Nat) (s : State) : Out :=
  needs true s (onTicket s t 0x0602 fun tk => mgmtOnly s tk t (
    if seqState s = stService then orderlyStop (answer s t scOk) 3 else busy2 s t))

/-- VCORE_SET (R25, R26). -/
def execVcoreSet (t req : Nat) (s : State) : Out :=
  needs true s (onTicket s t 0x0603 fun _ =>
    if 46 < req then rangeFree s t else answer (vcoreTarget (setF s Reg.fabVcoreReq req)) t scOk)

/-- THERMAL_STATUS: THM_STATUS, THM_BROKEN, zone readings. -/
def execThermalStatus (t : Nat) (s : State) : Out :=
  needs true s (onTicket s t 0x0604 fun _ =>
    answer s t scOk 0 (regBytes s ([0x60008, 0x60010] ++ regRun 0x60020 4)))

/-- THERMAL_CONFIG (R384). -/
def execThermalConfig (t : Nat) (w : BitVec 64) (s : State) : Out :=
  needs true s (onTicket s t 0x0605 fun _ => configReg s t 0x60000 w)

/-- SEQ_CONFIG (R373). -/
def execSeqConfig (t : Nat) (w : BitVec 64) (s : State) : Out :=
  needs true s (onTicket s t 0x0607 fun _ => configReg s t 0x50000 w)

/-! ## Power domains (R37, R38, R40, R266, Table 2-4) -/

/-- What DOMAIN_SWITCH finds of a domain: it may be switched, a precondition is unmet, or no command switches it. -/
inductive Switch where
  | free | unmet | never
  deriving DecidableEq, Repr

/-- Every sub-port of a port is quiesced (or absent). -/
def portQuiet (s : State) (p : Nat) : Bool :=
  (List.range 4).all fun k => subState s (4 * p + k) == subAbsent || subState s (4 * p + k) == subQuiesced

/-- Whether a way is locked, is to be locked, or is already being cleaned. -/
def wayHeld (s : State) (w : Nat) : Bool :=
  decide (1 ≤ w ∧ w ≤ lockWays s) || s.sum.walks.any fun k => match k with | .lock v => v == w | .off v _ => v == w

/-- Table 2-4 and R38 for one domain. -/
def switchRule (s : State) (d : Nat) (on : Bool) : Switch :=
  if d = 0 then .never
  else if d ≤ 8 then (if on || portQuiet s (d - 1) then .free else .unmet)
  else if d = 9 then (if isSet s Reg.rlCfgTeamEn then .never else .free)
  else if d = 10 then .never
  else if d ≤ 41 then (if on || guideIdle s (d - 10) then .free else .unmet)
  else if d ≤ 57 then (if d = 42 || wayHeld s (d - 42) then .unmet else .free)
  else if d ≤ 73 then
    (if s.camp.gone.contains (d - 58) && s.ladder.retiring != some (d - 58) then .free else .unmet)
  else if d = 127 then .free
  else .never

/-- Switches a domain: a way is cleaned first, and its command answered at the end of the walk (R266). -/
def switchDomain (s : State) (t d : Nat) (on : Bool) : State :=
  if on then answer (if domOn s d then s else powerUp s d) t scOk
  else if ! domOn s d then answer { s with fab.wakeQ := s.fab.wakeQ.filter (· != d) } t scOk
  else if 42 ≤ d ∧ d ≤ 57 then
    showWalk { working s t with sum.walks := s.sum.walks ++ [.off (d - 42) (some t)] }
  else if d = 9 then answer (setDom (instDown (instDown s 0) 1) d false) t scOk
  else answer (setDom s d false) t scOk

/-- DOMAIN_SWITCH: PD127 needs factory authority. -/
def execDomainSwitch (t d : Nat) (on : Bool) (s : State) : Out :=
  needs true s (onTicket s t 0x0606 fun tk =>
    if 128 ≤ d then rangeFree s t
    else if d = 127 ∧ tk.level < 3 then answer s t scAuthority 3
    else match switchRule s d on with
      | .never => answer s t scNotPermitted
      | .unmet => busy2 s t
      | .free => switchDomain s t d on)

/-! ## Logbook (R419, R421) -/

/-- The summary of LOG_READ. -/
def logSummary (s : State) (start cnt : Nat) : Bytes :=
  let oldest := readReg s 0x70008
  let rest := (s.log.recs.filter fun r => decide (start ≤ r.seq)).length
  bfit (leBytes 8 oldest ++ leBytes 8 s.log.next ++ leBytes 4 (getF s Reg.logStatusDropped) ++
    [byte (getF s Reg.logStatusFull + (decide (start < oldest)).toNat * 2 + (decide (rest ≤ cnt)).toNat * 4)]) 64

/-- LOG_READ: a start number and a count of 1 to 63. -/
def execLogRead (t : Nat) (s : State) : Out :=
  needs true s (onTicket s t 0x0701 fun tk => mgmtOnly s tk t (
    let start := le tk.par 0 8
    let cnt := le tk.par 8 1
    if cnt = 0 ∨ 63 < cnt then rangeAt s t 8
    else answer s t scOk 0 (logSummary s start cnt ++
      (((s.log.recs.filter fun r => decide (start ≤ r.seq)).take cnt).map recBytes).flatten)))

/-- Every record is discarded; LOG_CLEARED is the first of what follows. -/
def logClear (s : State) (who chan : Nat) : State :=
  let first := ((s.log.recs.head?).map (·.seq)).getD 0
  let last := ((s.log.recs.getLast?).map (·.seq)).getD 0
  let dropped := getF s Reg.logStatusDropped
  let s := setB (setF { s with log.recs := [] } Reg.logStatusDropped 0) Reg.logStatusFull false
  logEv s srcLog .logCleared noUnit [who, chan, first, last, dropped]

/-- LOG_CLEAR. -/
def execLogClear (t : Nat) (s : State) : Out :=
  needs true s (onTicket s t 0x0702 fun tk =>
    answer (logClear s (tk.ident + tk.mgmt.toNat * 4096) (match tk.chan with | .net _ => 1 | _ => 0)) t scOk)

/-! ## Pitch logs (R413, R414) -/

/-- The logs that FREEZE and THAW name: one, or 0xFF for all 40. -/
def namedLogs (lg : Nat) : List Nat := if lg = 0xFF then List.range 40 else if lg < 40 then [lg] else []

/-- FREEZE. -/
def execFreeze (t lg : Nat) (s : State) : Out :=
  needs true s (onTicket s t 0x0703 fun tk => mgmtOnly s tk t (
    if (namedLogs lg).isEmpty then rangeFree s t else answer ((namedLogs lg).foldl freezeLog s) t scOk))

/-- THAW. -/
def execThaw (t lg : Nat) (s : State) : Out :=
  needs true s (onTicket s t 0x0705 fun tk => mgmtOnly s tk t (
    if (namedLogs lg).isEmpty then rangeFree s t else answer ((namedLogs lg).foldl thawLog s) t scOk))

/-- AUTO_THAW: 10 s after the latest FREEZE that named the log. -/
def execAutoThaw (lg : Nat) (s : State) : Out :=
  needs (wfAutoThaw lg) s (if (plogOf s lg).frozen then thawLog (reach s (plogOf s lg).thawAt) lg else s)

/-- Up to 127 records of a log in ring order from ring slot `first` (log entry 72). -/
def plogReply (l : PitchLog) (first : Nat) : Bytes :=
  plogHeader l ++ (((l.recs.drop ((first + 256 - l.oldest) % 256)).take 127).map pitchBytes).flatten

/-- PLOG_READ: a frozen log, or the log in a flush image, counted back from the newest. -/
def execPlogRead (t : Nat) (s : State) : Out :=
  needs true s (onTicket s t 0x0704 fun tk => mgmtOnly s tk t (
    let n := le tk.par 0 1 % 128
    let first := le tk.par 1 1
    if 40 ≤ n then rangeAt s t 0
    else if 128 ≤ le tk.par 0 1 then
      (if 5 < le tk.par 3 1 then rangeAt s t 3
       else match (flushImages s).reverse[le tk.par 3 1]? with
        | none => answer s t scNotFound
        | some i => answer s t scOk 0 (plogReply ((tget i.logs n).getD {}) first))
    else if ! (plogOf s n).frozen then busy2 s t
    else answer s t scOk 0 (plogReply (plogOf s n) first)))

/-! ## Telemetry and routing -/

/-- The blocks of registers, each with its end (Table 18-2). -/
def regBlocks : List (Nat × Nat) :=
  [(0, 0x1000), (0x1000, 0x10000), (0x30000, 0x40000), (0x40000, 0x50000), (0x50000, 0x60000), (0x60000, 0x70000),
   (0x70000, 0x80000), (0x80000, 0x90000), (0x90000, 0xA0000), (0xA0000, 0xB0000), (0xB0000, 0xC0000), (0xC0000, 0xD0000),
   (0xD0000, 0xE0000), (0xE0000, 0xF0000)]

/-- The status and counter registers of a block: those with a field that software does not set. -/
def statusRegs (lo hi : Nat) : List Nat :=
  sortBy (fun (a b : Nat) => decide (a ≤ b))
    (((Reg.allFields.filter fun d => d.acc == .ro || d.acc == .rc || d.acc == .w1c).flatMap fun d =>
      (List.range d.count).map fun i => d.base + d.stride * i).filter fun o => decide (lo ≤ o ∧ o < hi)).eraseDups

/-- TELEMETRY_READ: each register of the block with its offset. -/
def execTelemetryRead (t base : Nat) (s : State) : Out :=
  needs true s (onTicket s t 0x0706 fun _ =>
    match regBlocks.find? (·.1 == base) with
    | none => rangeFree s t
    | some b => answer s t scOk 0 ((statusRegs b.1 b.2).map fun o => leBytes 4 o ++ leBytes 8 (readReg s o)).flatten)

/-- NQ_CONFIG: the queue of a source's notifications, or none (R423). -/
def execNqConfig (t src : Nat) (q : Option Nat) (s : State) : Out :=
  needs true s (onTicket s t 0x0707 fun _ =>
    if ! (decide (src < 40) || src == srcLog) || 16 ≤ q.getD 0 then rangeFree s t
    else answer { s with route := tset s.route src q } t scOk)

end Sys2Proof.Machine
end

