-- ==== Sys2Proof/Machine/ValleyRows.lean ====
section
/-! DEFINITION. Meanings of the valley and cairn commands (7, 10). -/

namespace Sys2Proof.Machine

/-- VALLEY_READ_DONE (R202). -/
def execValleyReadDone (vloc cw : Nat) (level : DecodeLevel) (bits : Nat) (s : State) : Out :=
  needs (wfValleyReadDone vloc cw) s (valleyRead s vloc cw level bits)

/-- VALLEY_PROGRAM_DONE (R211). -/
def execValleyProgramDone (vloc : Nat) (ok : Bool) (pct : Nat) (s : State) : Out := needs (wfValleyProgramDone vloc) s (programDone s vloc ok pct)

/-- NAND_RESET_TIMEOUT: the die is declared failed (R212). -/
def execNandResetTimeout (die : Nat) (s : State) : Out := needs (wfNandResetTimeout die) s (failDie s die)

/-- VALLEY_ERASE_DONE (R219). -/
def execValleyEraseDone (block : Nat) (ok : Bool) (pct : Nat) (s : State) : Out := needs (wfValleyEraseDone block) s (eraseDone s block ok pct)

/-- PROGRAM_WAIT_EXPIRY: a program or erase that waits on the die moves up to rank 2 (R203). -/
def execProgramWaitExpiry (die : Nat) (s : State) : Out :=
  needs (wfProgramWaitExpiry die) s (
    if (dieOf s die).wait.any (fun w => decide (4 ≤ w.rank)) then
      setDie s die { dieOf s die with raised := true }
    else s)

/-- STRIPE_CLOSE_TIMER: STRIPE_CLOSE_MS after its first data page an open stripe is closed with pad pages (R199). -/
def execStripeCloseTimer (stripe : Nat) (s : State) : Out :=
  needs true s (match tget s.val.stripes stripe with
    | some x => closeStripe (reach s (x.openedAt + ms (getF s Reg.valCfgStripeCloseMs))) stripe
    | none => s)

/-- JOURNAL_PAGE_TIMER: 500 µs after its first record (R216). -/
def execJournalPageTimer (s : State) : Out :=
  needs true s (match s.val.jrnlSince with
    | some t => flushJournal (reach s (t + us 500))
    | none => s)

/-- TABLE_LOG_PAGE_TIMER: 500 µs after its first record (R218). -/
def execTableLogPageTimer (s : State) : Out :=
  needs true s (match s.val.tlogSince with
    | some t => flushTables (reach s (t + us 500))
    | none => s)

/-- LOGBOOK_PAGE_TIMER (R221). -/
def execLogbookPageTimer (s : State) : Out := needs true s (programLog s)

/-- VERIFY_PASS_READ (R209). -/
def execVerifyPassRead (page : VerifyPage) (level : DecodeLevel) (bits : Nat) (s : State) : Out :=
  needs (wfVerifyPassRead page) s (verifyRead s page level bits)

/-- CS_ERASE (R224). -/
def execCsErase (sector tries : Nat) (s : State) : Out := needs true s (csErase s sector tries)

/-- CS_PROGRAM (R224). -/
def execCsProgram (off : Nat) (data : Bytes) (tries : Nat) (s : State) : Out := needs (wfCsProgram data) s (csProgram s off data tries)

/-- CS_VERIFY (R224). -/
def execCsVerify (off len : Nat) (digest readback : Bytes) (s : State) : Out := needs (wfCsVerify digest) s (csVerify s off len digest readback)

/-- CS_COMMIT (R224). -/
def execCsCommit (area : CairnArea) (crcOk : Bool) (s : State) : Out := needs true s (csCommit s area crcOk)

/-- CS_BANK_VERIFY (R295). -/
def execCsBankVerify (bank : Nat) (img : BankImage) (s : State) : Out := needs (wfCsBankVerify bank) s (csBankVerify s bank img)

/-- CS_WEAR (R224). -/
def execCsWear (s : State) : Out := needs true s (csWear s)

/-- PITCH_LOG_FLUSH_TIMER (R227). -/
def execPitchLogFlushTimer (s : State) : Out := needs true s (flushHourly s)

end Sys2Proof.Machine
end

