-- ==== Sys2Proof/Machine/CmdMedia.lean ====
section
/-! DEFINITION. Meanings of the command groups 0x08 and 0x09 (14): camp, valley, firmware banks, configuration (6, 7, 8). -/

namespace Sys2Proof.Machine

/-! ## Camp -/

/-- SCRUB_CONFIG (R251). -/
def execScrubConfig (t : Nat) (w : BitVec 64) (s : State) : Out :=
  needs true s (onTicket s t 0x0801 fun _ => scrubAsk (configReg s t 0xA0028 w))

/-- Devices marked failed: rank of a subchannel, nibble, DIMM serial number. -/
def markedBytes (s : State) : Bytes :=
  (s.code.marked.map fun x => leBytes 2 x.1 ++ [byte x.2.1] ++ leBytes 4 x.2.2).flatten

/-- CAMP_FAULT_LIST: three counts, then devices, pending rows, soft map entries. -/
def execCampFaultList (t : Nat) (s : State) : Out :=
  needs true s (onTicket s t 0x0802 fun _ =>
    answer s t scOk 0 (leBytes 2 s.code.marked.length ++ leBytes 2 s.camp.pendingRows.length ++ leBytes 2 s.code.soft.length ++
      markedBytes s ++ (s.camp.pendingRows.map (leBytes 6)).flatten ++ (s.code.soft.map (leBytes 8)).flatten))

/-- CAMP_CONFIG: CAMP_SCHED_CFG, CAMP_RFG_CFG, CAMP_REF_CFG together; clearing EN needs factory authority (Table 6-9). -/
def execCampConfig (t : Nat) (sched rfg ref : BitVec 64) (s : State) : Out :=
  needs true s (onTicket s t 0x0803 fun tk =>
    if isSet s Reg.campRfgCfgEn && ! bit rfg.toNat 48 && decide (tk.level < 3) then answer s t scAuthority 3
    else match regCommands s [(0xA0010, sched), (0xA0018, rfg), (0xA0020, ref)] with
      | none => rangeFree s t
      | some s' => answer s' t scOk)

/-- A camp physical address in a row (Table 6-2, R166, R167); none where the row does not exist. `bank`: bank group × 4 +
bank. -/
def rowCpa (s : State) (ch sub rank bank row : Nat) : Option Nat :=
  let d := if campX8 s then 1 else 0
  let k := rankBits s
  let bg := Nat.xor (bank / 4) (row % 8)
  let up := row * 2 ^ (23 - d + k) + rank * 2 ^ (23 - d) + bg * 2 ^ (20 - d) + bank % 4 * 2 ^ (18 - d)
  let live := s.camp.liveMap
  let cpa := if live.length = 16 then up + Nat.xor ch (bits up (18 - d) 4) * 256 + sub * 128
    else (up / 4096 * live.length + live.idxOf ch) * 256 + sub * 128
  if live.contains ch && decide (sub < 2 ∧ rank < 2 ^ k ∧ bank < 32 ∧ cpa < campGib s * 2 ^ 30) then some cpa else none

/-- CAMP_ROW_RETIRE: the row is handled as lasting (R191). -/
def execCampRowRetire (t ch sub rank bank row : Nat) (s : State) : Out :=
  needs true s (onTicket s t 0x0804 fun _ =>
    match rowCpa s ch sub rank bank row with
    | none => rangeFree s t
    | some cpa => answer (rowRetire s cpa) t scOk)

/-! ## Valley -/

/-- VALLEY_CONFIG (R229). -/
def execValleyConfig (t : Nat) (w : BitVec 64) (s : State) : Out :=
  needs true s (onTicket s t 0x0805 fun _ => configReg s t 0xB0000 w)

/-- VALLEY_STATUS: VAL_WEAR_STATUS, VAL_CAIRN_STATUS, VAL_NVnn_STATUS, then the indicators of each die. -/
def execValleyStatus (t : Nat) (s : State) : Out :=
  needs true s (onTicket s t 0x0806 fun _ =>
    answer s t scOk 0 (regBytes s ([0xB0008, 0xB0010] ++ regRun 0xB0100 32) ++
      (s.val.dies.map fun x => leBytes 2 x.1 ++ flagByte x.2.failed ++
        ((indicators s x.2).map fun i => leBytes 4 i.2.1).flatten).flatten))

/-! ## Firmware (R294 to R296, R402, R454) -/

/-- One 256-byte row of a FIRMWARE_WRITE: a row at the start of a sector erases the sector first. A sector that takes no program any
more ends the writing (R225; log entry 90). -/
def writeRow (bank off : Nat) (b : Bytes) (s : State) (i : Nat) : State :=
  let a := bank * 0x600000 + off + 256 * i
  let k := if s.cairn.weak.contains (a / 4096) then 5 else 0
  let t := if a % 4096 = 0 then csErase s (a / 4096) k else s
  if t.cairn.status = 2 && a % 4096 = 0 || s.cairn.status = 2 then t else csProgram t a (bsub b (256 * i) 256) k

/-- FIRMWARE_WRITE (R402): the bank stays uncommitted until FIRMWARE_VERIFY succeeds. -/
def execFirmwareWrite (t : Nat) (s : State) : Out :=
  needs true s (onTicket s t 0x0901 fun tk =>
    let bank := le tk.par 0 1
    let off := le tk.par 4 4
    let d := tk.par.drop 8
    if 1 < bank then rangeAt s t 0
    else if off % 256 ≠ 0 ∨ 0x600000 < off + d.length then rangeAt s t 4
    else if bankRunning s = some bank then busy2 s t
    else
      let s := setBank2 s bank { bankOf s bank with committed := false }
      let s := (List.range (d.length / 256)).foldl (writeRow bank off d) (csStatus s 0)
      if s.cairn.status = 2 then answer s t scVerifyFailed 2 else answer s t scOk)

/-- FIRMWARE_VERIFY: CS_BANK_VERIFY, then CS_COMMIT of the bank; the ROM service's status where either fails. -/
def execFirmwareVerify (t bank : Nat) (img : BankImage) (s : State) : Out :=
  needs true s (onTicket s t 0x0902 fun _ =>
    if 1 < bank then rangeFree s t
    else
      let s := csBankVerify s bank img
      if s.cairn.status ≠ 0 then answer s t scVerifyFailed s.cairn.status
      else
        let s := csCommit s (.bank bank) true
        if s.cairn.status ≠ 0 then answer s t scVerifyFailed s.cairn.status else answer s t scOk)

/-- FIRMWARE_SELECT: the boot preference in the cairn configuration; the starts counted were the other bank's (R455). -/
def execFirmwareSelect (t bank : Nat) (s : State) : Out :=
  needs true s (onTicket s t 0x0903 fun _ =>
    if 1 < bank then rangeFree s t
    else
      let s := if bank = s.cairn.bootPref then s else setF s Reg.fabStartStatusFailedStarts 0
      answer (cfgWrite { s with cairn.bootPref := bank } fun c => { c with bootPref := bank }) t scOk)

/-- FIRMWARE_COMMIT: the security counter rises to the running bank's security version (R296). -/
def execFirmwareCommit (t : Nat) (s : State) : Out :=
  needs true s (onTicket s t 0x0904 fun _ =>
    match bankRunning s with
    | none => busy2 s t
    | some n =>
      let v := getF s Reg.idFwSecVersion
      let other := bankOf s (1 - n)
      if ! serviceOpen s || (other.committed && decide (other.secVersion < v)) then busy2 s t
      else answer { s with fuse := tset s.fuse 68 (max v (tcnt s.fuse 68)) } t scOk)

/-! ## Configuration (R226, R472, R507) -/

/-- The settings of the register map: RW and RWL fields that are not selectors, contexts or fused rows. -/
def savedFields : List Reg.Fld :=
  ((Reg.allFields.filter fun d => d.acc == .rw || d.acc == .rwl).flatMap fun d => (List.range d.count).map d.at).filter fun f =>
    ! (decide (0x80000 ≤ f.off ∧ f.off < 0x90000) || f.off == 0xE0010 || decide (0x50100 ≤ f.off ∧ f.off < 0x50300))

/-- CONFIG_SAVE is answered OK when the copy has been committed; where its sector takes no program any more the command ends in an
internal fault, with its record (R225, Table 14-11; log entry 90). -/
def configSaved (t : Nat) (s : State) : State :=
  let newest := if s.cairn.inForce = 0 then s.cairn.cfg0 else s.cairn.cfg1
  let other := if s.cairn.inForce = 0 then s.cairn.cfg1 else s.cairn.cfg0
  match newest, other with
  | some a, some b =>
    if a.seq < b.seq then
      let s := logEv s srcCairn .internalFault noUnit []
      answer s t scDeviceFault (lastSeq s)
    else answer s t scOk
  | none, some _ =>
    let s := logEv s srcCairn .internalFault noUnit []
    answer s t scDeviceFault (lastSeq s)
  | _, _ => answer s t scOk

/-- CONFIG_SAVE: every current setting in the copy that is not in force, which is then committed and stands. -/
def execConfigSave (t : Nat) (s : State) : Out :=
  needs true s (onTicket s t 0x0905 fun _ =>
    configSaved t (cfgWrite s fun c => { c with
      regs := savedFields.map (fun f => (f.key, getF s f)), ids := s.ids, opKey := s.cmd.opKey, custKey := s.cmd.custKey,
      roots := s.key.blobs, route := s.route, bootPref := s.cairn.bootPref }))

/-- CAIRN_STATUS: VAL_CAIRN_STATUS and CS_WEAR: spares left, then each sector ever erased with its count. -/
def execCairnStatus (t : Nat) (s : State) : Out :=
  needs true s (onTicket s t 0x0906 fun _ =>
    answer (csWear s) t scOk 0 (regBytes s [0xB0010] ++ leBytes 2 (getF s Reg.valCairnStatusSparesLeft) ++
      leBytes 2 s.cairn.erases.length ++ (s.cairn.erases.map fun x => leBytes 2 x.1 ++ leBytes 2 x.2).flatten))

end Sys2Proof.Machine
end

