-- ==== Sys2Proof/Machine/CmdBrake.lean ====
section
/-! DEFINITION. Meanings of the command groups 0x0A and 0x0B (14): the ladder (16) and the brakes. -/

namespace Sys2Proof.Machine

/-! ## The ladder (R448, Table 14-9) -/

/-- Indices of a function class. -/
def fnCount : Nat → Nat
  | 1 => 32 | 2 => 16 | 3 => 32 | 4 => 16384 | 5 => 4096 | 6 => 32 | 7 => 2 | _ => 0

/-- Whether a function is there to be named. -/
def fnThere (s : State) (cls i : Nat) : Bool :=
  match cls with
  | 1 => subState s i != subAbsent
  | 4 => (tget s.conns i).isSome
  | 5 => (queueOf s i).isSome
  | _ => true

/-- Whether a function is in the sender's scope: its connection, its queue (R387). -/
def fnScope (s : State) (tk : Ticket) (cls i : Nat) : Bool :=
  tk.mgmt || (match cls with
    | 4 => ((tget s.conns i).map (·.ident)) == some tk.ident
    | 5 => ((queueOf s i).map (·.owner)) == some tk.ident
    | _ => false)

/-- Runs `f` on the function that a ladder command names. -/
def onFn (s : State) (t : Nat) (tk : Ticket) (f : Nat → Nat → State) : State :=
  let cls := le tk.par 0 1
  let i := le tk.par 2 2
  if fnCount cls = 0 then rangeAt s t 0
  else if fnCount cls ≤ i then rangeAt s t 2
  else if ! fnScope s tk cls i then answer s t scNotOwner
  else if ! fnThere s cls i then answer s t scNotFound
  else f cls i

/-- A command joins the rung that runs for its function. -/
def joinRung (s : State) (t k : Nat) : State :=
  setLadFn (working s t) k { ladFn s k with joined := (ladFn s k).joined ++ [t] }

/-- LADDER_RETRY: rung 1, which a guide has not; a rung that runs is joined. -/
def execLadderRetry (t : Nat) (s : State) : Out :=
  needs true s (onTicket s t 0x0A01 fun tk => onFn s t tk fun cls i =>
    if (ladFn s (fnKey cls i)).rung ≠ 0 then joinRung s t (fnKey cls i)
    else if cls = 3 then answer s t scNotPermitted
    else answer (rung1 s (fnKey cls i)) t scOk)

/-- Functions that stay out of use until a repair: a retired camp channel, a failed valley channel. -/
def fnGone (s : State) (cls i : Nat) : Bool :=
  (cls == 2 && s.camp.gone.contains i) || (cls == 6 && (ladFn s (fnKey 6 i)).held)

/-- LADDER_REINIT: rung 2, also of a function that the ladder holds down; a rung that runs is joined. -/
def execLadderReinit (t : Nat) (s : State) : Out :=
  needs true s (onTicket s t 0x0A02 fun tk => onFn s t tk fun cls i =>
    let k := fnKey cls i
    if (ladFn s k).rung ≠ 0 then joinRung s t k
    else if fnGone s cls i then answer s t scNotPermitted
    else rung2Try (setLadFn (working s t) k { ladFn s k with held := false, joined := [t] }) k false)

/-- The part is in a state from which rungs 3 and 4 run: not in a bivouac, going down or off. -/
def canReset (s : State) : Bool :=
  ! (seqState s == stBivouac || seqState s == stDown || seqState s == stOff) && s.seq.down.isNone

/-- DEVICE_RESET: rung 3; the third within an hour is rung 4 (Table 16-2). The reset abandons the command (R398). -/
def execDeviceReset (t : Nat) (s : State) : Out :=
  needs true s (onTicket s t 0x0A03 fun _ =>
    if ! canReset s || seqState s == stStopping then busy2 s t
    else if (lastHour s s.ladder.resets).length ≥ 2 then
      (if isSet s Reg.fabLadderCfgAutoCycle then startRung (working s t) 4 0 2
       else busy2 { s with ladder.due := 4 } t)
    else startRung (working s t) 3 0 4)

/-- PWR_CYCLE: rung 4. The power cycle abandons the command (R398). -/
def execPwrCycle (t : Nat) (s : State) : Out :=
  needs true s (onTicket s t 0x0A04 fun _ => if canReset s then startRung (working s t) 4 0 2 else busy2 s t)

/-- LADDER_STATUS: FAB_LADDER_STATUS, then each function with the rung in progress and its counts within the hour. -/
def execLadderStatus (t : Nat) (s : State) : Out :=
  needs true s (onTicket s t 0x0A05 fun _ =>
    answer (showLadderCounts s) t scOk 0 (regBytes (showLadderCounts s) [0x1060] ++
      (s.ladder.fns.map fun x => [byte (fnCls x.1), byte x.2.rung] ++ leBytes 2 (fnIdx x.1) ++
        [byte (lastHour s x.2.t1).length, byte (lastHour s x.2.t2).length]).flatten))

/-! ## The brakes (R406, R407, Table 14-10) -/

/-- A sub-port is quiesced: its paths are down and EVENT PORT_DOWN is sent; its link stays up. -/
def quiesce (s : State) (sub : Nat) : State :=
  let was := subState s sub
  if was = subQuiesced then s
  else
    let s := setSub (subPathsDown { s with port.quiet := tset s.port.quiet sub was } sub) sub subQuiesced
    portEvent s sub 0x0302 0

/-- A quiesced sub-port resumes: as it was, degraded where a lane has failed meanwhile. -/
def resume (s : State) (sub : Nat) : State :=
  if subState s sub ≠ subQuiesced then s
  else
    let p := sub / 4
    let was := (tget s.port.quiet sub).getD subTraining
    let bad := (modeLanes (getF s (Reg.hpPortCfgMode p)) (sub % 4)).any fun l => bitF s (Reg.hpPortStatusLaneFail p) l
    setSub { s with port.quiet := tdel s.port.quiet sub } sub (if was = subUp ∧ bad then subDegraded else was)

/-- PORT_QUIESCE. -/
def execPortQuiesce (t : Nat) (s : State) : Out :=
  needs true s (onTicket s t 0x0B01 fun tk => mgmtOnly s tk t (
    let sub := le tk.par 0 1
    let act := le tk.par 1 1
    if 32 ≤ sub then rangeAt s t 0
    else if act ≠ 1 ∧ act ≠ 2 then rangeAt s t 1
    else if subState s sub = subAbsent then answer s t scNotFound
    else answer (if act = 1 then quiesce s sub else resume s sub) t scOk))

/-- CONN_FENCE: the connection is in error at once (R60). -/
def execConnFence (t : Nat) (s : State) : Out :=
  needs true s (onTicket s t 0x0B02 fun tk =>
    let num := le tk.par 0 3
    match connOf s num with
    | none => answer s t scNotFound
    | some c => if ! tk.owns c.ident then answer s t scNotOwner else answer (connError s (connIdx num)) t scOk)

/-- Commands of a host identity that wait and have not started are discarded without a reply. -/
def discardWaiting (s : State) (t n : Nat) : State :=
  let l := s.cmd.tickets.filter fun x => x.1 != t && ! x.2.mgmt && x.2.ident == n &&
    (match x.2.st with | .waiting => true | _ => false)
  l.foldl (fun s x => endTicket s x.1 x.2) { s with cmd.discarded := s.cmd.discarded + l.length }

/-- HOST_FENCE: the reply's detail counts the connections affected. -/
def execHostFence (t : Nat) (s : State) : Out :=
  needs true s (onTicket s t 0x0B03 fun tk =>
    let n := le tk.par 0 2 % 4096
    let act := le tk.par 2 1
    if ! tk.owns n then answer s t scNotOwner
    else if act ≠ 1 ∧ act ≠ 2 then rangeAt s t 2
    else if ! thas s.ids n then answer s t scNotFound
    else
      let cs := (s.conns.filter fun x => x.2.ident == n && x.2.st.live).map (·.1)
      let rest := s.cmd.fencedIds.filter (· != n)
      let s := if act = 1 then discardWaiting { s with cmd.fencedIds := rest ++ [n] } t n else { s with cmd.fencedIds := rest }
      let s := if bit (le tk.par 3 1) 0 then cs.foldl (fun s ci => closeConn s ci 2) s else s
      answer s t scOk cs.length)

/-- REGION_FENCE: at most 4,096 regions at once. -/
def execRegionFence (t : Nat) (s : State) : Out :=
  needs true s (onTicket s t 0x0B04 fun tk =>
    let key := le tk.par 0 4
    let act := le tk.par 4 1
    match regionOf s key with
    | none => answer s t scNotFound
    | some r =>
      if ! tk.owns r.owner then answer s t scNotOwner
      else if act ≠ 1 ∧ act ≠ 2 then rangeAt s t 4
      else if act = 1 && ! r.fenced && decide (4096 ≤ s.tables.regions.countP (·.2.fenced)) then rangeAt s t 0
      else answer { s with tables.regions := tmod s.tables.regions (keyIdx key) fun r => { r with fenced := act == 1 } } t scOk)

/-- BRAKE_STATUS: discarded commands, the map of quiesced sub-ports, the map of fenced identities, the fenced regions. -/
def execBrakeStatus (t : Nat) (s : State) : Out :=
  needs true s (onTicket s t 0x0B05 fun _ =>
    let l := s.tables.regions.filter (·.2.fenced)
    answer s t scOk 0 (leBytes 4 s.cmd.discarded ++
      leBytes 4 ((List.range 32).foldl (fun m k => putBit m k (subState s k == subQuiesced)) 0) ++ identMap s.cmd.fencedIds ++
      leBytes 2 l.length ++ (l.map fun x => leBytes 4 x.2.key).flatten))

end Sys2Proof.Machine
end

