-- ==== Sys2Proof/Machine/Codes.lean ====
section
/-! DEFINITION. Patrol scrub, SRAM stores and the fault windows (8). -/

namespace Sys2Proof.Machine

/-! ## Windows (R244) -/

/-- Counts that have left their windows are dropped. -/
def bucketEnd (s : State) (hourly : Bool) : State :=
  let len := if hourly then sec 3600 else sec 300
  let s := reach s (cdiv s.timebase len * len)
  let w := s.code.win
  if hourly then
    let word := (w.word.map fun x => (x.1, x.2.filter (in24h s))).filter fun x => ! x.2.isEmpty
    let row := (w.row.map fun x => (x.1, x.2.filter fun y => in24h s y.2)).filter fun x => ! x.2.isEmpty
    let dev := (w.dev.map fun x => (x.1, x.2.filter fun y => in24h s y.2.2.2)).filter fun x => ! x.2.isEmpty
    let sram := (w.sram.map fun x => (x.1, x.2.filter (in24h s))).filter fun x => ! x.2.isEmpty
    { s with code.win := { w with word := word, row := row, dev := dev, sram := sram } }
  else
    let rank := (w.rank.map fun x => (x.1, x.2.filter fun y => in1h s y.2.2)).filter fun x => ! x.2.isEmpty
    { s with code.win := { w with rank := rank } }

/-! ## The camp patrol scrub (R246, R247) -/

/-- A scrub write-back joins the write queue, unless a write of the line has entered it. -/
def scrubWrite (s : State) (cpa : Nat) : State :=
  let d := campLoc s cpa
  let q := subQ s (d.ch * 2 + d.sub)
  if q.wr.any (·.cpa == cpa) then s else campAskAt s true .maint 0 0 cpa

/-- The patrol moves to the next code word, and begins a new pass after the last, in the SCRUB_H of then (R251). -/
def patrolNext (s : State) : State :=
  let size := campGib s * 2 ^ 30
  let p := s.code.patrol + 64
  if size ≤ p then setF { s with code.patrol := 0, code.passAt := s.timebase, code.passH := getF s Reg.campCodeCfgScrubH } Reg.campCodeStatusScrubPct 0
  else setF { s with code.patrol := p } Reg.campCodeStatusScrubPct (p * 100 / size)

/-- SCRUB_STEP: the word at the patrol's place, if its channel is in service. -/
def scrubStep (s : State) (word : Bytes) : State :=
  if ! isSet s Reg.campCodeCfgScrubEn || campGib s == 0 then s
  else
    let s := scrubTaken s
    let cpa := s.code.patrol
    let d := campLoc s cpa
    if chState s d.ch != 2 then scrubAsk (patrolNext s)
    else
      let marked := (tget s.code.marked (rankKey d)).map (·.1)
      let fixed := match decodeWord (word.map (·.toNat)) marked with | .corrected _ => true | _ => false
      let s := wordRead s cpa word true
      runAll (scrubAsk (patrolNext (if fixed then scrubWrite s cpa else s)))

/-! ## SRAM stores (R241 to R243, Table 8-10) -/

/-- A number for an SRAM word: store, unit in the store, word. -/
def sramKey (st : SramStore) (at_ : Nat) : Nat :=
  let k : Nat × Nat := match st with
    | .summit a w => (0, a * 16 + w)
    | .transCache g => (1, g)
    | .transReserve g => (2, g)
    | .ingress => (3, 0)
    | .egress c p n _ => (4, (c * 4 + p) * 2 ^ 32 + n)
    | .guide g => (5, g)
    | .notifQueue q => (6, q)
    | .chainQueue q => (7, q)
    | .connCtx c => (8, c)
    | .stripe n => (9, n)
    | .logRecord n => (10, n)
    | .keySlot n => (11, n)
    | .root n => (12, n)
  (k.1 * 2 ^ 64 + k.2) * 2 ^ 32 + at_ % 2 ^ 32

/-- A summit slot is disabled: it holds no line (R243). -/
def disableSlot (s : State) (key : Nat) : State :=
  if s.code.disabled.contains key then s
  else
    let s := sumDrop s key
    let s := { s with code.disabled := s.code.disabled ++ [key] }
    showLocked (setF s Reg.fabSramStatusSlotsDisabled (min 4095 s.code.disabled.length))

/-- An SRAM word is classed as lasting: a soft map entry, at most 1,024 (R243, R244). DESIGN CHOICE (log entry 137): the spec gives
no number of spares for a macro, and a macro has none left exactly when the soft map is full. -/
def sramLasting (s : State) (st : SramStore) (at_ : Nat) : State :=
  let k := sramKey st at_
  if s.code.soft.contains k then s
  else
    let s := if s.code.soft.length < 1024 then
        let s := { s with code.soft := s.code.soft ++ [k] }
        logEv (setF s Reg.fabSramStatusSoftMapUsed s.code.soft.length) srcFab .sramLasting noUnit [k]
      else logEv s srcFab .sramNoSpare noUnit [k]
    match st with
    | .summit set way => if set < 98304 ∧ way < 16 then disableSlot s (set * 16 + way) else s
    | _ => s

/-- A line of a packet in the egress hold is lost: an unsealed READ-RESP or PUSH is sent with it marked, a sealed READ ends,
a sealed PUSH fails; other packets are formed again. -/
def egressLost (s : State) (num path psn line : Nat) : State :=
  let ci := connIdx num
  match connOf s num with
  | none => s
  | some c =>
    match (tget c.paths path).bind fun p => p.held.find? (·.psn == psn) with
    | none => s
    | some h =>
      let k := h.pkt
      if k.ty != tyReadResp && k.ty != tyPush then s
      else if k.seald then
        (if k.ty = tyReadResp then integrityStop s ci k.msn
         else match c.pushes.find? (·.1 == k.msn) with
           | some x => chainFail s (x.2 / 4096) (x.2 % 4096) .storage
           | none => s)
      else
        -- line `line` counts the 64-byte range lines that the payload touches, as the poison mask does (Table 3-4)
        let skip := h.skip
        let i := min line 127
        let old := match findExt k exPoison with
          | some e => extW e 1 * 2 ^ 96 + extW e 2 * 2 ^ 64 + extW e 3 * 2 ^ 32 + extW e 4
          | none => 0
        let es := poisonExt (putBit old i true) :: k.exts.filter (·.ty != exPoison)
        let lo := line * 64 - skip
        let cut := min (line * 64 + 64 - skip - lo) (k.payload.length - lo)
        let k' := withExts { k with poison := true, payload := boverlay k.payload lo (zeros cut) } es
        let put (p : PathSt) : PathSt := { p with held := p.held.map fun x => if x.psn = psn then { x with pkt := k' } else x }
        sendPkt (modConn s ci fun c => { c with paths := tmod c.paths path put }) c.prio k'

/-- The running parity of an open stripe is computed again from its programmed pages (Table 8-10). -/
def stripeAgain (s : State) (k : Nat) : State :=
  match tget s.val.stripes k with
  | none => s
  | some x =>
    let vs := (stripeVlocs k).filter fun v => x.pages.contains (vCh v)
    let sum := (vs.filterMap (tget s.val.pages)).foldl Page.xor { kind := 0 }
    { s with val.stripes := tset s.val.stripes k { x with sum := sum } }

/-- A notification queue entry is lost, with its message, and counted as overwritten. -/
def nqLost (s : State) (q at_ : Nat) : State :=
  let n := nqOf s q
  match n.ents[at_]? with
  | none => s
  | some e =>
    let l := n.ents.filter (·.num != e.num)
    let gone := n.ents.length - l.length
    bumpF (setNq s q { n with ents := l, rdA := (n.rdA + gone) % 2 ^ 16, rdB := (n.rdB + gone) % 2 ^ 16 }) (Reg.nqStatusLost q)

/-- A chain queue's record is lost: it enters ERROR with cause "storage" (R114). -/
def queueLost (s : State) (q : Nat) : State :=
  match queueOf s q with
  | none => s
  | some x => match x.run with
    | some r => chainFail s q r.first .storage
    | none => if x.st == .error then s
      else
        let s := chainRec (setQueue s q { x with st := .error, pend := [], failures := (x.failures + 1) % 2 ^ 32 }) q 4 0 0
        let s := ownerEvent s x.oconn x.owner 0x0203 q (wrTag (x.wr x.head))
          (beBytes 4 x.head ++ beBytes 4 (causeNum .storage) ++ beBytes 4 x.pend.length ++ beBytes 4 0)
        logEv s srcOps .chainError noUnit [q, x.head, causeNum .storage, 0]

/-- What the store does about an uncorrectable word (Table 8-10). A packet is handled whole when it arrives, so none stands in the
ingress pool before step 13 of Table 3-5 (log entry 137). -/
def sramUncorrectable (s : State) (st : SramStore) (at_ : Nat) : State :=
  match st with
  | .summit set way =>
    let key := set * 16 + way
    match tget s.sum.lines key with
    | some l =>
      if l.dirty then lostInCamp s l.line
      else
        let s := showLocked { s with sum.lines := tdel s.sum.lines key }
        if (lockedSlot s l.line).isSome then loadLocked s l.line else sumFillStart s .demand 0 l.line
    | none => s
  | .transCache g => campAskAt { s with range.tcache := s.range.tcache.filter (· != g) } false .demand 0 0 (entryCpa (g * 8))
  | .transReserve g => groupLost s g
  | .ingress => s
  | .egress c p n l => egressLost s c p n l
  | .guide g => rung2 s (fnKey 3 g) false
  | .notifQueue q => nqLost s q at_
  | .chainQueue q => queueLost s q
  | .connCtx c => if (tget s.conns c).isSome then connError s c else s
  | .stripe n => stripeAgain s n
  | .logRecord n => { s with log.recs := s.log.recs.map fun r =>
      if r.seq = n then { r with src := srcLog, ev := .recordLost, unit := noUnit, rep := 1, sat := false, posted := false, detail := [n] } else r }
  | .keySlot n => { s with key.slots := tmod s.key.slots n fun k => { k with keyLost := true } }
  | .root n => rootLost s n

/-- SRAM_SCRUB_STEP: a word read with `bad` bits in error. -/
def sramStep (s : State) (st : SramStore) (at_ bad : Nat) : State :=
  if ! isSet s Reg.campCodeCfgScrubEn || bad == 0 then s
  else if bad = 1 then
    let k := sramKey st at_
    let l := ((tget s.code.win.sram k).getD []).filter (in24h s) ++ [s.timebase]
    let s := bumpF { s with code.win := { s.code.win with sram := tset s.code.win.sram k l } } Reg.fabSramStatusSecCorr
    if getF s Reg.campCodeCfgSramThresh ≤ l.length then sramLasting s st at_ else s
  else
    let s := bumpF s Reg.fabSramStatusUncorr
    runAll (sramLasting (sramUncorrectable s st at_) st at_)

end Sys2Proof.Machine
end

