-- ==== Sys2Proof/Machine/ProtectRows.lean ====
section
/-! DEFINITION. Meanings of the commands of stored-data protection (8), summit (9) and sealing (10). -/

namespace Sys2Proof.Machine

/-- LINE_REPAIR_DONE (R237): requests that waited on the line are served. -/
def execLineRepairDone (line : Nat) (data : Option Bytes) (s : State) : Out := needs (wfLineRepairDone line) s (runAll (repairDone s line data))

/-- FAULT_WINDOW_BUCKET (R244). -/
def execFaultWindowBucket (hourly : Bool) (s : State) : Out := needs true s (bucketEnd s hourly)

/-- SCRUB_STEP (R246). -/
def execScrubStep (word : Bytes) (s : State) : Out := needs (wfScrubStep word) s (scrubStep s word)

/-- SRAM_SCRUB_STEP (R248). -/
def execSramScrubStep (store : SramStore) (at_ bad : Nat) (s : State) : Out := needs true s (sramStep s store at_ bad)

/-- SUMMIT_FILL_DONE (R258). -/
def execSummitFillDone (line : Nat) (s : State) : Out := needs (wfSummitFillDone line) s (fillDone s line)

/-- DIRTY_EVICT_ADMITTED (R257). -/
def execDirtyEvictAdmitted (line : Nat) (s : State) : Out := needs (wfDirtyEvictAdmitted line) s (evictAdmitted s line)

/-- LOCK_WAYS_WRITE (R261): a window write of SUM_CFG. -/
def execLockWaysWrite (off : Nat) (data : Bytes) (s : State) : Out := needs (wfLockWaysWrite off data) s (onWindow s fun s => windowReg s off data)

/-- WAY_CLEAN_DONE (R266). -/
def execWayCleanDone (s : State) : Out := needs true s (wayCleanDone s)

/-- CIPHER_REQUEST_DONE (R281): a queue that was full lets packets go on. -/
def execCipherRequestDone (ok : Bool) (s : State) : Out :=
  needs true s (if s.key.queue.length < 4096 then cipherDone s ok else workWakes (cipherDone s ok))

/-- KEY_DERIVATION_DONE (R276). -/
def execKeyDerivationDone (slot : Nat) (s : State) : Out := needs (wfKeyDerivationDone slot) s (derived s slot)

/-- ROOT_REUNWRAP (R274). -/
def execRootReunwrap (root : Nat) (s : State) : Out := needs (wfRootReunwrap root) s (reunwrap s root)

/-- KNOWN_ANSWER_TEST (R439). -/
def execKnownAnswerTest (isCvu : Bool) (unit : Nat) (pass : Bool) (s : State) : Out := needs (wfKnownAnswerTest unit) s (selfTest s isCvu unit pass)

end Sys2Proof.Machine
end

