-- ==== Sys2Proof/Machine/RangeRows.lean ====
section
/-! DEFINITION. Meanings of the range commands (5). -/

namespace Sys2Proof.Machine

/-- PROMOTION_UNIT_FILLED (R139). -/
def execPromotionUnitFilled (slab : Nat) (lost : List Nat) (s : State) : Out := needs (wfPromotionUnitFilled slab lost) s (unitFilled s slab lost)

/-- PARK_ENTRY_FREE: requests held at the operation engine try again (R141). -/
def execParkEntryFree (s : State) : Out := needs true s (runAll s)

/-- VALLEY_DIRECT_TIMER: a parked deadline-class READ is served straight from the valley (R142). -/
def execValleyDirectTimer (conn msn : Nat) (s : State) : Out :=
  needs (wfValleyDirectTimer conn msn) s (match connOf s conn, msgOf s (connIdx conn) msn with
    | some _, some m =>
      (match msgDeadline s m, rangeOf m.first with
       | some d, some x =>
         if m.parked && m.first.ty == tyRead then
           let s := reach s (d - us (getF s Reg.campRangeCfgVdirectUs))
           let slabs := slabsOf x.addr x.len
           -- parked for a segment only, it has taken no tier fault (R144)
           let f := slabs.any fun n => segBuilt s (segOf n) && ! readReady s x.addr x.len n
           runConn (modMsg s (connIdx conn) msn fun m => { m with vdirect := true, fault := m.fault || f }) (connIdx conn)
         else s
       | _, _ => s)
    | _, _ => s)

/-- MOVER_JOB_START (R145). -/
def execMoverJobStart (m : Nat) (s : State) : Out := needs (wfMoverJobStart m) s (moverStart s m)

/-- MOVER_UNIT_DONE (R146). -/
def execMoverUnitDone (m : Nat) (s : State) : Out := needs (wfMoverUnitDone m) s (moverUnit s m)

/-- DESTAGE_PROGRAM_DONE (R126). -/
def execDestageProgramDone (slab : Nat) (s : State) : Out := needs (wfDestageProgramDone slab) s (destageDone s slab)

/-- DESTAGE_PROGRAM_FAIL (R126). -/
def execDestageProgramFail (slab : Nat) (s : State) : Out := needs (wfDestageProgramFail slab) s (destageFail s slab)

/-- WALKER_EVICT (R147): what waited for a frame goes on. -/
def execWalkerEvict (part : Nat) (s : State) : Out := needs (wfWalkerEvict part) s (runAll (walk s part))

/-- SEGMENT_REBUILD_DONE (R156). -/
def execSegmentRebuildDone (seg : Nat) (s : State) : Out :=
  needs (wfSegmentRebuildDone seg) s (if s.range.movers.any (fun j => j.2.kind == .rebuild seg) then segmentDone s seg else s)

/-- MARKER_LOG_TIMER (R124): a marker that has moved is logged, once a second at most. -/
def execMarkerLogTimer (topo : Nat) (s : State) : Out :=
  needs (wfMarkerLogTimer topo) s (match tget s.tables.topos topo with
    | some t =>
      if t.marker = t.logged then s
      else
        let s := match t.loggedAt with | some a => reach s (a + sec 1) | none => s
        let now := s.timebase
        tableLog { s with tables.topos := tset s.tables.topos topo { t with logged := t.marker, loggedAt := some now } }
    | none => s)

end Sys2Proof.Machine
end

