-- ==== Sys2Proof/Machine/RopeRows.lean ====
section
/-! DEFINITION. Meanings of the rope and belay commands (11). -/

namespace Sys2Proof.Machine

/-! ## Receiving frames (R304, R316, Table 3-5) -/

/-- Frames that the partner has acknowledged are released; the retry count and timer restart. -/
def ropeAcked (s : State) (i ack : Nat) : State :=
  let r := ropeInst s i
  let h := r.held.filter fun f => ! psnBehind f.seq ack
  if h.length = r.held.length then s
  else showCatchup (setRopeInst s i { r with held := h, retry := 0, timer := if h.isEmpty then none else some (s.timebase + ropeRtx) })

/-- A frame arrives: an instance that is down takes none; a lower epoch is dropped and counted; its acknowledgement is
taken; a sequenced frame is accepted only at the expected sequence, and acknowledged. A Second takes its Lead's epoch; a
higher epoch tells a Lead that has sent HANDOVER that its twin has taken the token (R304, R334). -/
def ropeIn (s : State) (h : RopeHdr) (seqd : Bool) : State × Bool :=
  let r := ropeInst s h.inst
  if ! r.up || s.start.inReset then (s, false)
  else if h.epoch < s.cairn.epoch then ({ s with rope.oldEpoch := s.rope.oldEpoch + 1 }, false)
  else
    let s := if s.rope.handover.isSome && decide (s.cairn.epoch < h.epoch) then
        afterHandover (becomeSecond { s with rope.confirmed := s.rope.index }) else s
    let s := if isSecond s && decide (s.cairn.epoch < h.epoch) then showEpoch { s with cairn.epoch := h.epoch } else s
    let s := ropeAcked s h.inst h.ack
    if ! seqd then (s, true)
    else
      let r := ropeInst s h.inst
      if h.seq = r.rx then (ropeSendOn (setRopeInst s h.inst { r with rx := psnNext r.rx }) h.inst false .ack, true)
      else (ropeSendOn s h.inst false .ack, false)

/-- The Lead's handover is complete when the Second has confirmed the HANDOVER record (R334, steps 5 and 6). -/
def handoverDone (s : State) : State :=
  match s.rope.handover with
  | some h => if h ≤ s.rope.confirmed then afterHandover (becomeSecond s) else s
  | none => s

/-- A frame whose content is `f` of the state after it is taken. -/
def onFrame (s : State) (h : RopeHdr) (seqd : Bool) (f : State → State) : State :=
  let r := ropeIn s h seqd
  if r.2 then f r.1 else r.1

/-! ## Negotiation (R305) -/

/-- A word arrives on BW_IN: BELAY_UP (R324). -/
def belayHeard (s : State) : State := setB { s with rope.lastWord := some s.timebase } Reg.rlStatusBelayUp true

/-- The twin that is weighed: a serving Lead or single part answers with its own HELLO first. -/
def weigh (s : State) (h : Hello) : State :=
  if isSecond s && ! silent s then s
  else if serviceOpen s && h.serving && ! silent s then s
  else if ! isSet s Reg.rlCfgTeamEn then s
  else if serviceOpen s || team s == teamNegotiating || silent s then
    decideRole (if serviceOpen s && ! silent s then sendHello s else s) h
  else s

/-- HELLO: over the belay wires it shows the presence of a twin and its TWIN_ID; on the rope link it is weighed (R305; log
entry 50). -/
def helloIn (s : State) (hdr : Option RopeHdr) (h : Hello) : State :=
  match hdr with
  | none =>
    let s := belayHeard s
    if h.twinId = s.pins.twinId && isSet s Reg.rlCfgTeamEn && team s == teamNegotiating then decideRole s h else s
  | some r =>
    let e := max r.epoch s.cairn.epoch
    let i := ropeIn s { r with epoch := e } true
    let s := { i.1 with cairn.epoch := s.cairn.epoch }
    if i.2 then weigh s h else s

/-- HELLO (R305). -/
def execHello (hdr : Option RopeHdr) (h : Hello) (s : State) : Out := needs true s (helloIn s hdr h)

/-- NEGOTIATE_TIMEOUT (R305, Table 11-1): alone the part opens single only when it may; else it waits (WAIT 4). -/
def execNegotiateTimeout (s : State) : Out :=
  needs true s (match s.rope.helloAt with
    | some t =>
      let s := reach { s with rope.helloAt := none } t
      if team s != teamNegotiating then s
      else if isSet s Reg.rlCfgSoloOpen || s.start.soloOrdered then openSingle s
      else setF (logEv s srcRope .twinAbsent noUnit [] true) Reg.fabStartStatusWait 4
    | none => s)

/-! ## Records (R317, R318) -/

/-- ORDER: records are queued by index; those at or below the release mark that were applied are forgotten. -/
def execOrder (h : RopeHdr) (recs : List OrderRec) (s : State) : Out :=
  needs (wfOrder h recs) s (onFrame s h true fun s =>
    if isSecond s then
      let add := recs.foldl (fun t r => if s.rope.applied < r.idx then tset t r.idx r else t) s.rope.recs
      let mark := recs.foldl (fun m r => max m r.release) s.rope.release
      { s with rope.recs := add.filter (fun r => decide (mark < r.1 ∨ s.rope.applied < r.1)), rope.release := mark }
    else s)

/-- OPERATION (R318, R319, Table 11-7). -/
def execOperation (s : State) : Out :=
  needs true s (applyNext s fun b => match b with | .operation .. => true | _ => false)

/-- COMMAND (Table 11-7): the mirrored command takes its effect on the Second's tables. -/
def execCommand (s : State) : Out :=
  needs true s (applyNext s fun b => match b with | .command .. => true | _ => false)

/-- TOPO. -/
def execTopo (s : State) : Out := needs true s (applyNext s fun b => match b with | .topo .. => true | _ => false)

/-- CHAIN. -/
def execChain (s : State) : Out := needs true s (applyNext s fun b => match b with | .chain .. => true | _ => false)

/-- PART_MSG: recorded; it is sent again only at a takeover. -/
def execPartMsg (s : State) : Out := needs true s (applyNext s fun b => match b with | .partMsg .. => true | _ => false)

/-- IV_RESERVE (R322). -/
def execIvReserve (s : State) : Out := needs true s (applyNext s fun b => match b with | .ivReserve .. => true | _ => false)

/-- EPOCH_MARK: recorded. -/
def execEpochMark (s : State) : Out := needs true s (applyNext s fun b => match b with | .epochMark _ => true | _ => false)

/-- A Lead with CLK_LOSS set and a Second behind it fences at once (R30). -/
def clockFence (s : State) : State := if hasSecond s && isSet s Reg.fabTbStatusClkLoss then departFenced s else s

/-- HANDOVER (R334, step 4): every record up to the last index is applied, so this twin takes the token. -/
def execHandover (s : State) : Out :=
  needs true s (match nextRec s with
    | some r => (match r.body with
      | .handover last => if last = s.rope.applied then clockFence (takeHandover (appliedTo s r.idx) r.idx) else s
      | _ => s)
    | none => s)

/-- The Second has confirmed every record up to `idx` (R321): responses, replies, ACCEPTs and messages that waited go, and
reserved invocations may be used (R322). -/
def confirmTaken (s : State) (idx : Nat) : State :=
  let res := s.rope.sent.foldl (fun t x => match x.2.body with
    | .ivReserve conn limit => if x.1 ≤ idx then tset t (connIdx conn) limit else t
    | _ => t) s.rope.ivRes
  let s := pumpAll (releaseAccepts (releaseHolds (confirmMsgs { s with
    rope.confirmed := idx, rope.ivRes := res, rope.sent := s.rope.sent.filter (fun x => decide (idx < x.1)),
    rope.payload := s.rope.payload.filter (fun x => decide (idx < x.1)) } idx false)))
  let s := { s with rope.hold := s.rope.hold.filter fun x => decide (idx < x.1) }
  if s.rope.handDue then handoverReady s else s

/-- CONFIRM (R321). -/
def execConfirm (h : RopeHdr) (idx : Nat) (s : State) : Out :=
  needs (wfConfirm h idx) s (onFrame s h false fun s =>
    if hasSecond s && decide (s.rope.confirmed < idx ∧ idx ≤ s.rope.index) then
      let s := confirmTaken s idx
      handoverDone (if s.rope.handover.isSome then s else runAll s)
    else s)

/-! ## The lease (R323, R324, Table 11-8) -/

/-- A belay word that counts: good CRC, of the type, from the partner. -/
def belayOk (s : State) (w : BitVec 32) (ty : Nat) : Bool :=
  belayCrcOk w && belayTy w == ty && belayTwin w != s.pins.twinId % 2

/-- The Second takes a renewal: its expiry moves on, and it answers on both paths. -/
def renewed (s : State) (seq : Nat) : State :=
  if isSecond s then
    let s := { s with rope.expiry := some (s.timebase + us 200), rope.guard := none, rope.renewSeq := seq }
    belaySend (ropeSendAll s false (.renewAck seq)) belayAck seq
  else s

/-- RENEW. -/
def execRenew (src : LeaseSrc) (seq : Nat) (s : State) : Out :=
  needs (wfRenew seq) s (match src with
    | .rope h => onFrame s h false fun s => renewed s seq
    | .belay w => if belayOk s w belayRenew then renewed (belayHeard s) (belaySeqOf w) else if belayCrcOk w then belayHeard s else s)

/-- The Lead takes an acknowledgement: its lease ends 200 µs after that renewal was sent. -/
def leaseAcked (s : State) (seq : Nat) : State :=
  if hasSecond s && s.rope.handover.isNone then
    match tget s.rope.renewAt seq with
    | some t => { s with rope.leaseEnd := some (max (s.rope.leaseEnd.getD 0) (t + us 200)) }
    | none => s
  else s

/-- RENEW_ACK. -/
def execRenewAck (src : LeaseSrc) (seq : Nat) (s : State) : Out :=
  needs (wfRenewAck seq) s (match src with
    | .rope h => onFrame s h false fun s => leaseAcked s seq
    | .belay w => if belayOk s w belayAck then leaseAcked (belayHeard s) (belaySeqOf w) else if belayCrcOk w then belayHeard s else s)

/-- RENEWAL_TIMER: the Lead's next renewal on every rope instance and on BW_OUT; with CLK_LOSS set it stops renewing and
fences (R30). -/
def execRenewalTimer (s : State) : Out :=
  needs true s (
    if hasSecond s && isSet s Reg.fabTbStatusClkLoss then departFenced s
    else if hasSecond s && s.rope.handover.isNone then
      let n := (s.rope.renewSeq + 1) % 65536
      let live := s.rope.renewAt.filter fun x => decide (s.timebase < x.2 + us 200)
      let s := { s with rope.renewSeq := n, rope.renewAt := tset live n s.timebase }
      belaySend (ropeSendAll s false (.renew n)) belayRenew n
    else s)

/-- LEASE_END (step 4): the Lead fences; one that has sent HANDOVER has given its lease up (R334). -/
def execLeaseEnd (s : State) : Out :=
  needs true s (match s.rope.leaseEnd with
    | some t => if hasSecond s && s.rope.handover.isNone then fenceLead (reach s t) else s
    | none => s)

/-- LEASE_EXPIRY (step 5): the Lead is lost; the guard runs, for a Second on its internal oscillator until 307 µs after the
last renewal (R323). -/
def execLeaseExpiry (s : State) : Out :=
  needs true s (match s.rope.expiry with
    | some t =>
      if isSecond s then
        let s := reach s t
        let g := if isSet s Reg.fabTbStatusClkLoss then t + us 107 else t + us 30
        logEv { s with rope.expiry := none, rope.guard := some g } srcRope .takeover noUnit [s.rope.applied]
      else s
    | none => s)

/-- GUARD_END (step 6): the Second takes the token (R325). -/
def execGuardEnd (s : State) : Out :=
  needs true s (match s.rope.guard with
    | some g => if isSecond s then takeover (reach { s with rope.guard := none } g) else s
    | none => s)

/-! ## Fills (R319) -/

/-- FILL_REQ: the Lead answers from the payloads it keeps. -/
def execFillReq (h : RopeHdr) (idxs : List Nat) (s : State) : Out :=
  needs (wfFillReq h) s (onFrame s h true fun s =>
    idxs.foldl (fun s i => match tget s.rope.payload i with
      | some d =>
        let s := match (tget s.rope.sent i).map (·.body) with
          | some (.operation _ _ _ _ _ _ _ _ addr _ len ..) => campLines s false .ropeApply 0 (linesOf addr len)
          | _ => s
        ropeSend s true (.fillData i 0 d)
      | none => s) s)

/-- FILL_DATA: the payload that takes the place of the Second's own copy. -/
def execFillData (h : RopeHdr) (idx off : Nat) (data : Bytes) (s : State) : Out :=
  needs (wfFillData h) s (onFrame s h true fun s =>
    if isSecond s && decide (s.rope.applied < idx) then
      let d := bfit ((tget s.rope.payload idx).getD []) off ++ data
      { s with rope.payload := tset s.rope.payload idx d,
               rope.filled := if s.rope.filled.contains idx then s.rope.filled else s.rope.filled ++ [idx] }
    else s)

/-- FILL_WAIT_EXPIRY: the oldest wait ends; with the payload still missing or different it is asked for, once, and counted. -/
def execFillWaitExpiry (s : State) : Out :=
  needs true s (match s.rope.fillAt with
    | (idx, t) :: _ =>
      let s := reach { s with rope.fillAt := tdel s.rope.fillAt idx } t
      (match tget s.rope.recs idx with
       | some r => (match r.body with
         | .operation _ _ _ ty _ conn msn _ _ _ _ digest _ =>
           let have_ := if ty = tyAtomic then (recOperands s idx conn msn).isSome else (recPayload s idx conn msn digest).1.isSome
           if have_ then s
           else
             let s := bumpF s Reg.rlStatusFills
             let s := if conn = 0 then s else modConn s (connIdx conn) fun c => { c with fills := c.fills + 1 }
             ropeSend { s with rope.filled := s.rope.filled ++ [idx] } true (.fillReq [idx])
         | _ => s)
       | none => s)
    | [] => s)

/-! ## Fetches (R338, R339) -/

/-- FETCH_REQ: a repair fetch is answered at once, a line fetch when every record received has been applied. -/
def execFetchReq (h : RopeHdr) (f : Fetch) (s : State) : Out :=
  needs (wfFetchReq h) s (onFrame s h true fun s =>
    if f.published then answerFetch s f
    else answerFetches { s with rope.fetches := s.rope.fetches ++ [(f, s.rope.applied)] })

/-- FETCH_DATA. -/
def execFetchData (h : RopeHdr) (f : Fetch) (ans : FetchAnswer) (s : State) : Out :=
  needs (wfFetchData h) s (onFrame s h true fun s => fetched s f ans)

/-- REPAIR_TIMEOUT: the slab's waiting requests are served with the unrepaired lines poisoned. -/
def execRepairTimeout (slab : Nat) (s : State) : Out :=
  needs (wfRepairTimeout slab) s (match tget s.rope.repairAt slab with
    | some t =>
      let s := reach { s with rope.repairAt := tdel s.rope.repairAt slab } t
      let l := (s.code.repairing.filter fun x => x.1 / 256 == slab && x.2 == 4).map (·.1)
      let s := l.foldl (fun s n => poisonLine { s with code.repairing := tdel s.code.repairing n } n) s
      runAll (logEv (bumpF s Reg.rlStatusRepairTimeouts) srcRope .repairTimeout noUnit [slab])
    | none => s)

/-! ## Catch-up and control (R330, R331, R334 to R337) -/

/-- CATCHUP: the slab is kept until the applied index reaches its stamp; at a Lead it brings lost lines back (R331). -/
def execCatchup (h : RopeHdr) (slab : Nat) (data : Bytes) (poison : List Nat) (stamp : Nat) (s : State) : Out :=
  needs (wfCatchup h slab data) s (onFrame s h true fun s =>
    if isSecond s then catchupEnd (installReady { s with rope.catchBuf := s.rope.catchBuf ++ [(slab, data, poison, stamp)] })
    else if hasSecond s then recopied s slab data poison else s)

/-- The joining twin's saved bitmap is joined to the Lead's own; without one every roped group counts as changed (R331). -/
def takeMap (s : State) (g : Option (List Nat)) : State :=
  let l := match g with
    | some l => l
    | none => ((writtenSlabs s fun o => o.mirror == mirRoped).map (· / 64)).eraseDups
  { s with rope.bitmap := (s.rope.bitmap ++ l).eraseDups }

/-- Contents of a CONTROL frame (Table 11-4). -/
def controlIn (s : State) (c : Control) : State :=
  match c with
  | .titleBindings l => { s with rope.titles := l }
  | .stateTransfer i l => if isSecond s then takeTransfer s i l else s
  | .savedMap g =>
    if hasSecond s && team s == teamCatchUp then takeMap s g
    else if isSecond s then answerFetches { s with rope.recopy := (s.rope.recopy ++ g.getD []).eraseDups }
    else s
  | .digestList l =>
    let s := { s with rope.digests := l }
    if s.rope.copyDue && hasSecond s && team s == teamCatchUp then
      sendCatchup { s with rope.copyDue := false } (catchList s (some []) ++ publishSlabs s l)
    else s
  | .depart => departed s
  | .catchupDone =>
    if isSecond s then catchupEnd { s with rope.doneDue := true }
    else if hasSecond s && team s == teamCatchUp then becomeRoped s
    else if hasSecond s && team s == teamReturning && s.rope.handover.isNone then handoverReady s
    else s
  | .publishCheck n c => if hasSecond s then publishCheckIn s n (c.map (·.toNat)) else s

/-- CONTROL (R311, R330, R331, R336, R337, R435). -/
def execControl (h : RopeHdr) (c : Control) (s : State) : Out := needs (wfControl h) s (onFrame s h true fun s => controlIn s c)

/-- RETURN_REQUEST (R334, step 1). -/
def execReturnRequest (h : RopeHdr) (s : State) : Out := needs (wfReturnRequest h) s (onFrame s h true startReturn)

/-- RETURN_HOLDOFF (R332): the preferred Lead, Second in a ROPED team for HOLDOFF_S, asks for its return. -/
def execReturnHoldoff (s : State) : Out :=
  needs true s (match s.rope.roped with
    | some t =>
      if isSecond s && team s == teamRoped && isSet s Reg.rlCfgReturnEn && s.pins.twinId == getF s Reg.rlCfgPreferred &&
          ! isSet s Reg.fabTbStatusClkLoss then
        ropeSend { reach s (t + sec s.rope.holdoff) with rope.returnReq := true } true .returnRequest
      else s
    | none => s)

/-! ## Rope instances (R315, R316) -/

/-- ROPE_ACK: frames up to its acknowledge sequence are released. -/
def execRopeAck (h : RopeHdr) (s : State) : Out := needs (wfRopeAck h) s (onFrame s h false id)

/-- ROPE_RETRANSMIT_TIMER: go-back-N; after 7 retries the instance is down, and the ladder trains it again. -/
def execRopeRetransmitTimer (inst : Nat) (s : State) : Out :=
  needs (wfRopeRetransmitTimer inst) s (
    let r := ropeInst s inst
    match r.timer with
    | some t =>
      if ! r.up then s
      else
        let s := reach s t
        if r.retry ≥ 7 then returnOver s (rung2 s (fnKey 7 inst) false)
        else ropeAgain (setRopeInst s inst { r with retry := r.retry + 1 }) inst
    | none => s)

/-- ROPE_INSTANCE_DOWN: its frames move to the other instance; with both down the team is in ROPE_CUT. -/
def execRopeInstanceDown (inst : Nat) (s : State) : Out := needs (wfRopeInstanceDown inst) s (returnOver s (instDown s inst))

/-- ROPE_INSTANCE_UP: training has ended, unless the ladder holds the instance down or SD_REFCLK is lost. -/
def execRopeInstanceUp (inst : Nat) (s : State) : Out :=
  needs (wfRopeInstanceUp inst) s (
    if (ladFn s (fnKey 7 inst)).held || ! s.fab.sdOk || (ropeInst s inst).up || s.start.inReset then s
    else rungOk (instUp s inst) (fnKey 7 inst))

/-- ROPE_LANE_LOSS: the instance degrades to 400GBASE-R, or goes down when its partner refuses the narrower mode or it is
narrow already (R44, R315). -/
def execRopeLaneLoss (inst lane : Nat) (narrowOk : Bool) (s : State) : Out :=
  needs (wfRopeLaneLoss inst lane) s (
    let r := ropeInst s inst
    if ! r.up then s
    else
      let s := logEv s srcRope .ropeLaneLoss inst [inst, lane] true
      if narrowOk && r.lanes != 4 then setRopeInst s inst { r with lanes := 4 } else returnOver s (instDown s inst))

/-! ## ROPE_CUT, marks, departure -/

/-- HOLD_TIME_EXPIRY: a roped WRITEP or FLUSH completes with SINGLE_COPY (R328). -/
def execHoldTimeExpiry (idx : Nat) (s : State) : Out :=
  needs true s (match tget s.rope.hold idx with
    | some t =>
      let s := reach { s with rope.hold := tdel s.rope.hold idx } t
      s.conns.foldl (fun s x => x.2.msgs.foldl (fun s y => match y.2.st with
        | .rope i r => if i = idx then doneMsg s x.1 y.1 r.single else s
        | _ => s) s) s
    | none => s)

/-- EPOCH_MARK_TIMER (R318, R329): the mark is ordered, in ROPED the bits set before the previous mark are cleared, and the
bitmap is saved. -/
def execEpochMarkTimer (s : State) : Out :=
  needs true s (
    if role s == roleLead && ! silent s then
      let s := if ropeSynced s && s.rope.handover.isNone then (order s (.epochMark s.timebase)).1 else s
      saveMap (if team s == teamRoped then { s with rope.oldMap := s.rope.bitmap, rope.bitmap := [] } else s)
    else s)

/-- DEPARTURE (R435, R436). -/
def execDeparture (wd : BitVec 32) (s : State) : Out :=
  needs true s (if belayOk s wd belayDepart then departed (belayHeard s) else if belayCrcOk wd then belayHeard s else s)

/-- BELAY_WIRES_LOST (R324, R327): 50 µs without a word. -/
def execBelayWiresLost (s : State) : Out :=
  needs true s (match s.rope.lastWord with
    | some t =>
      if isSet s Reg.rlStatusBelayUp then
        logEv (setB (reach { s with rope.lastWord := none } (t + us 50)) Reg.rlStatusBelayUp false) srcRope .belayLost noUnit [] true
      else s
    | none => s)

end Sys2Proof.Machine
end

