-- ==== Sys2Proof/Machine/Window.lean ====
section
/-! DEFINITION. Meanings of the accesses through the control window (18), the mailbox, the write grant, MSI-X, PCIe resets. -/

namespace Sys2Proof.Machine

/-! ## Mailbox (R476) -/

/-- The packet in a slot's command area: as long as its header says; bytes never written read as zero. -/
def slotPacket (m : MbxSlot) : Bytes :=
  let b := bfit m.cmd 8192
  b.take (cmdHdr b).total

/-- A doorbell for one slot: its command is submitted, or the bell is ignored and counted. -/
def ring (s : State) (n : Nat) : State :=
  if getF s (slotFld n) ≠ 0 then bumpF s Reg.mbxStateBellIgnored
  else frontEnd (setF s (slotFld n) 1) (.mbx n) (slotPacket (mbxSlot s n)) none

/-- A release of one slot. -/
def release (s : State) (n : Nat) : State :=
  if getF s (slotFld n) = 3 then setF s (slotFld n) 0 else bumpF s Reg.mbxStateBellIgnored

/-- The slots that the bits of a write name, lowest first. -/
def slotBits (bits : Nat) : List Nat := (List.range 8).filter fun n => bit bits n

def doorbell (s : State) (bits : Nat) : State := (slotBits bits).foldl ring s
def releaseSlots (s : State) (bits : Nat) : State := (slotBits bits).foldl release s

/-- MBX_DOORBELL. -/
def execMbxDoorbell (bits : BitVec 8) (s : State) : Out := needs true s (onWindow s fun s => doorbell s bits.toNat)

/-- MBX_RELEASE. -/
def execMbxRelease (bits : BitVec 8) (s : State) : Out := needs true s (onWindow s fun s => releaseSlots s bits.toNat)

/-- A write of ones clears bits; the vector is sent again while others stand (R477). -/
def intStatusWrite (s : State) (bits : Nat) : State :=
  let old := getF s Reg.mbxIntStatusSlot
  let s := setF s Reg.mbxIntStatusSlot (old - Nat.land old bits)
  if getF s Reg.mbxIntStatusSlot = 0 then s else mbxVector s

/-- MBX_INT_STATUS_WRITE. -/
def execMbxIntStatusWrite (bits : BitVec 8) (s : State) : Out := needs true s (onWindow s fun s => intStatusWrite s bits.toNat)

/-! ## The write grant (R473, R474) -/

/-- The grant in force ends. -/
def grantDrop (s : State) : State := setF { s with mgmt.grantEnd := 0 } Reg.mbxGrantStatusLevel 0

/-- GO: the checks of R474 in their order. -/
def grantGo (s : State) : State :=
  let b := bfit s.mgmt.grantReq 64
  let level := le b 0 1
  let secs := le b 2 2
  let result (s : State) (v : Nat) : State := setF s Reg.mbxGrantStatusResult v
  if level = 0 ∨ 3 < level ∨ secs = 0 ∨ 3600 < secs ∨ (notZero b 1 2 ++ notZero b 4 8 ++ notZero b 48 64) ≠ [] then result s 2
  else match keyFor s true 0 level with
    | none => result s 3
    | some k =>
      if hmac k (b.take 16) ≠ bsub b 16 32 then result s 4
      else match freshTake s (freshKey true 0 level) (le b 8 8) with
        | none => result s 5
        | some s => setF (result { s with mgmt.grantEnd := s.timebase + sec secs } 1) Reg.mbxGrantStatusLevel level

/-- MBX_GRANT_GO. -/
def execMbxGrantGo (s : State) : Out := needs true s (onWindow s grantGo)

/-- MBX_GRANT_DROP: needs no grant. -/
def execMbxGrantDrop (s : State) : Out := needs true s (onWindow s grantDrop)

/-- GRANT_EXPIRY: the duration runs out. -/
def execGrantExpiry (s : State) : Out :=
  needs true s (if getF s Reg.mbxGrantStatusLevel = 0 then s else grantDrop (reach s s.mgmt.grantEnd))

/-! ## Notification-queue windows (R425, R427) -/

/-- A read of a queue window: the bytes returned, and with `pop` the oldest entry removed; a read that is not 64 aligned
bytes is counted. A read that meets a queue reset returns the empty result. -/
def nqRead (s : State) (q : Nat) (exact pop : Bool) : State :=
  let out (s : State) (b : Bytes) : State := { s with mgmt.readOut := b }
  if ! exact then out (bumpF s (Reg.nqStatusBadRead q)) (zeros 64)
  else
    let s := nqCheck s q
    let n := nqOf s q
    match n.ents with
    | [] => out s (zeros 64)
    | e :: rest =>
      let s := if pop then setNq s q { n with ents := rest, rdA := (n.rdA + 1) % 2 ^ 16, rdB := (n.rdB + 1) % 2 ^ 16 } else s
      out s (nqBytes e)

/-- NQ_POP. -/
def execNqPop (q : Nat) (exact : Bool) (s : State) : Out :=
  needs (wfNqPop q) s (onWindow s fun s => nqRead s q exact true)

/-- NQ_PEEK. -/
def execNqPeek (q : Nat) (exact : Bool) (s : State) : Out :=
  needs (wfNqPeek q) s (onWindow s fun s => nqRead s q exact false)

/-! ## Reads (R468 to R471, R480, R481) -/

/-- A register access of 4 or 8 aligned bytes. -/
def regAccess (off len : Nat) : Bool := (len == 4 || len == 8) && off % len == 0

/-- A mailbox access: aligned, 4 to 256 bytes. -/
def mbxAccess (off len : Nat) : Bool := off % 4 == 0 && len % 4 == 0 && decide (4 ≤ len ∧ len ≤ 256)

/-- Bytes of a mailbox slot: its command area, then its reply area. -/
def slotImage (m : MbxSlot) : Bytes := bfit m.cmd 8192 ++ bfit ((m.reply.map replyBytes).getD []) 8192

/-- Bytes of the MSI-X table and of its pending bits. -/
def msixBytes (s : State) (off len : Nat) : Bytes :=
  if off < 0x39000 then bsub (leBytes 4 (msixWord s ((off - 0x38000) / 16) (off % 16 / 4)) ++
      leBytes 4 (msixWord s ((off - 0x38000) / 16) (off % 16 / 4 + 1))) 0 len
  else bsub (leBytes 32 s.mgmt.pba) (off - 0x39000) len

/-- The record at a position of LOG_WIN. -/
def logWin (s : State) (k : Nat) : Bytes := ((s.log.recs[k]?).map recBytes).getD (zeros 64)

/-- A ring slot of PLOG_WIN: zeros while the log records. -/
def plogWin (s : State) (n i : Nat) : Bytes :=
  let l := plogOf s n
  if ! l.frozen then zeros 32
  else ((l.recs[(i + 256 - l.oldest) % 256]?).map pitchBytes).getD (zeros 32)

/-- What an aligned read returns; any other read returns zeros. -/
def readWindow (s : State) (off len : Nat) : Bytes :=
  if 0x10000 ≤ off ∧ off < 0x30000 then
    (if mbxAccess off len then bfit (bsub (slotImage (mbxSlot s ((off - 0x10000) / 0x4000))) (off % 0x4000) len) len else zeros len)
  else if 0x38000 ≤ off ∧ off < 0x39020 then (if regAccess off len then msixBytes s off len else zeros len)
  else if 0x400000 ≤ off ∧ off < 0x800000 then (if len = 64 ∧ off % 64 = 0 then logWin s ((off - 0x400000) / 64) else zeros len)
  else if 0x800000 ≤ off ∧ off < 0x850000 then
    (if len = 32 ∧ off % 32 = 0 then plogWin s ((off - 0x800000) / 0x2000) (off % 0x2000 / 32) else zeros len)
  else if regAccess off len then bsub (leBytes 8 (readReg s (off / 8 * 8))) (off % 8) len
  else zeros len

/-- A read through the window: queue windows act by their own rules; RC fields that a register read covers are cleared in
the same action (R470). -/
def windowRead (s : State) (off len : Nat) : State :=
  if 0x40000 ≤ off ∧ off < 0x50000 ∧ off % 4096 < 128 then
    nqRead s ((off - 0x40000) / 4096) (len == 64 && off % 64 == 0) (off % 4096 < 64)
  else
    let s' := { s with mgmt.readOut := readWindow s off len }
    if regAccess off len && ! decide (0x10000 ≤ off ∧ off < 0x30000) then clearRc s' (off / 8 * 8) (accMask off len) else s'

/-- RC_READ. -/
def execRcRead (off len : Nat) (s : State) : Out := needs (wfRcRead off) s (onWindow s fun s => windowRead s off len)

/-! ## Writes (R469, R473, R475) -/

/-- Replaces bytes of a byte string, which is filled with zeros up to them. -/
def putBytes (b : Bytes) (off : Nat) (d : Bytes) : Bytes := bfit b off ++ d ++ b.drop (off + d.length)

/-- A write of a mailbox command area: ignored while the slot is not free. -/
def mbxWrite (s : State) (off : Nat) (d : Bytes) : State :=
  let n := (off - 0x10000) / 0x4000
  let o := off % 0x4000
  let m := mbxSlot s n
  if mbxAccess off d.length && getF s (slotFld n) == 0 && decide (o + d.length ≤ 0x2000) then
    setMbxSlot s n { m with cmd := putBytes m.cmd o d }
  else s

/-- One word of the MSI-X table: an entry that is unmasked with its pending bit set sends its message (R477). -/
def msixWrite (s : State) (off v : Nat) : State :=
  let n := (off - 0x38000) / 16
  let s := { s with mgmt.msix := tset s.mgmt.msix ((off - 0x38000) / 4) v }
  if bit s.mgmt.pba n && ! bit (msixWord s n 3) 0 && s.mgmt.busMaster && s.mgmt.msixEn then
    sendVector { s with mgmt.pba := putBit s.mgmt.pba n false } n
  else s

/-- The words of an access, with their offsets. -/
def accWords (off : Nat) (d : Bytes) : List (Nat × Nat) := (List.range (d.length / 4)).map fun i => (off + 4 * i, le d (4 * i) 4)

/-- A write of a register of the check-value context that CVU_CTX_SEL names: ignored for contexts 0 to 15; at a Second
ignored and counted; ordered through the rope at a Lead; under a grant where it would change a field. -/
def cvuWrite (s : State) (off : Nat) (d : Bytes) : State :=
  let n := getF s Reg.cvuCtxSelCtx
  let c := ctxOf s n
  let same := ctxWritten c off d == [c.width, c.poly, c.init, c.refin.toNat, c.refout.toNat, c.xorout, c.preset, c.owner,
    c.chained.toNat, if off / 8 * 8 = 0x80028 then 1 else 0, c.value]
  if ! regAccess off d.length || decide (n < 16) then s
  else if isSecond s then bumpF s Reg.mbxGrantStatusDenied
  else if off / 8 * 8 = 0x80030 || same then s
  else if grantLevel s < 1 then deny s (off / 8 * 8)
  else ctxLater s { ctx := n, raw := some (off, d) }

/-- CVU_CTX_WRITE. -/
def execCvuCtxWrite (off : Nat) (data : Bytes) (s : State) : Out :=
  needs (wfCvuCtxWrite off) s (onWindow s fun s => cvuWrite s off data)

/-- A write through the window: by what stands at the offset; reserved offsets and accesses of another size are ignored. -/
def windowWrite (s : State) (off : Nat) (d : Bytes) : State :=
  if 0x10000 ≤ off ∧ off < 0x30000 then mbxWrite s off d
  else if ! regAccess off d.length then s
  else if 0x38000 ≤ off ∧ off < 0x39000 then (accWords off d).foldl (fun s w => msixWrite s w.1 w.2) s
  else if 0x30100 ≤ off ∧ off < 0x30140 then { s with mgmt.grantReq := putBytes s.mgmt.grantReq (off - 0x30100) d }
  else if off = 0x30000 then doorbell s (leNat d % 256)
  else if off = 0x30008 then releaseSlots s (leNat d % 256)
  else if off = 0x30018 then intStatusWrite s (leNat d % 256)
  else if off = 0x30140 then
    let s := if bit (leNat d) 0 then grantGo s else s
    if bit (leNat d) 1 then grantDrop s else s
  else if 0x80008 ≤ off ∧ off < 0x80038 then cvuWrite s off d
  -- SCRUB_EN set again: the patrol asks for the word where it stopped (R251)
  else if off / 8 * 8 = 0xA0028 then scrubAsk (windowReg s off d)
  else windowReg s off d

/-- REGISTER_WRITE. -/
def execRegisterWrite (off : Nat) (data : Bytes) (s : State) : Out :=
  needs (wfRegisterWrite off) s (onWindow s fun s => windowWrite s off data)

/-! ## MSI-X and PCIe (R466, R467, R477, R502) -/

/-- MSIX_ENABLE: one message for each source that is still set: the mailbox, and each queue that is not empty. -/
def execMsixEnable (s : State) : Out :=
  needs true s (
    if ! s.mgmt.linkUp || (s.mgmt.busMaster && s.mgmt.msixEn) then s
    else
      let s := { s with mgmt.busMaster := true, mgmt.msixEn := true }
      let s := if getF s Reg.mbxIntStatusSlot = 0 then s else mbxVector s
      (List.range 16).foldl (fun s q => if (nqOf s q).ents.isEmpty then s else sendVector s (getF s (Reg.nqCfgVector q))) s)

/-- Configuration space, MSI-X table and pending bits, and the grant are at reset. -/
def endpointReset (s : State) : State :=
  grantDrop { s with mgmt.busMaster := false, mgmt.msixEn := false, mgmt.msix := [], mgmt.pba := 0 }

/-- PCIE_LINK_RESET: mailbox slots go on. -/
def execPcieLinkReset (s : State) : Out :=
  needs true s (if s.mgmt.linkUp then endpointReset (logEv s srcMgmt .mgmtLinkDown noUnit []) else s)

/-- MP_PERST_N: low, the link is down; as it rises the endpoint is reset, and the link trains where PD124 is powered. -/
def execMpPerstN (high : Bool) (s : State) : Out :=
  needs true s (
    if high = s.pins.perstN then s
    else if high then
      let s := { s with pins.perstN := true }
      { endpointReset s with mgmt.linkUp := domOn s 124 && ! s.start.inReset }
    else
      let was := s.mgmt.linkUp
      let s := { s with pins.perstN := false, mgmt.linkUp := false }
      if was then grantDrop (logEv s srcMgmt .mgmtLinkDown noUnit []) else s)

end Sys2Proof.Machine
end

