-- ==== Sys2Proof/Machine/Sideband.lean ====
section
/-! DEFINITION. Meanings of the I3C target's rows (R393, R501), JTAG (R344, R503), the time marks and operating hours. -/

namespace Sys2Proof.Machine

/-! ## I3C -/

/-- The target answers once PD124 is powered; before then it acknowledges nothing (R501). -/
def onI3c (s : State) (f : State → State) : State := if domOn s 124 then f s else s

/-- The target has a dynamic address, by which it is reached. -/
def i3cReached (s : State) (f : State → State) : State := onI3c s fun s => if s.i3c.addr.isSome then f s else s

/-- I3C_PRIVATE_WRITE: one command packet; a second one before the reply has been read is refused BUSY. -/
def execI3cPrivateWrite (data : Bytes) (s : State) : Out :=
  needs true s (i3cReached s fun s =>
    if s.i3c.busy then
      { s with i3c.replies := s.i3c.replies ++ [(false, busyReply s data)], i3c.ibiPending := s.i3c.ibi }
    else frontEnd { s with i3c.busy := true } .i3c data none)

/-- I3C_PRIVATE_READ: the oldest reply; the final reply to the command makes room for the next one. -/
def execI3cPrivateRead (s : State) : Out :=
  needs true s (i3cReached s fun s =>
    match s.i3c.replies with
    | [] => { s with i3c.out := [] }
    | (last, r) :: rest =>
      { s with i3c.out := replyBytes r, i3c.replies := rest, i3c.busy := s.i3c.busy && ! last,
               i3c.ibiPending := s.i3c.ibi && ! rest.isEmpty })

/-- ENTDAA: a target without a dynamic address takes one. -/
def execEntdaa (addr : Nat) (s : State) : Out :=
  needs (wfEntdaa addr) s (onI3c s fun s => if s.i3c.addr.isNone then { s with i3c.addr := some addr } else s)

/-- SETDASA: to the static address 0x2A (R501). -/
def execSetdasa (stat addr : Nat) (s : State) : Out :=
  needs (wfSetdasa stat addr) s (onI3c s fun s => if s.i3c.addr.isNone && stat == 0x2A then { s with i3c.addr := some addr } else s)

/-- RSTDAA. -/
def execRstdaa (s : State) : Out := needs true s (onI3c s fun s => { s with i3c.addr := none })

/-- ENEC: in-band interrupts on; one stands for the replies that wait. -/
def execEnec (s : State) : Out :=
  needs true s (onI3c s fun s => { s with i3c.ibi := true, i3c.ibiPending := ! s.i3c.replies.isEmpty })

/-- DISEC: in-band interrupts off. -/
def execDisec (s : State) : Out :=
  needs true s (onI3c s fun s => { s with i3c.ibi := false, i3c.ibiPending := false })

/-- What a GET command code returns. -/
def i3cGet (s : State) (b : Bytes) : State := i3cReached s fun s => { s with i3c.out := b }

def execGetpid (s : State) : Out := needs true s (i3cGet s Config.i3cPid)
def execGetbcr (s : State) : Out := needs true s (i3cGet s [Config.i3cBcr])
def execGetdcr (s : State) : Out := needs true s (i3cGet s [Config.i3cDcr])
def execGetstatus (s : State) : Out := needs true s (i3cGet s (Config.i3cStatus s.i3c.ibiPending))

/-- GETMWL: 4,160 bytes, most significant byte first. -/
def execGetmwl (s : State) : Out := needs true s (i3cGet s (beBytes 2 4160))

/-- GETMRL: 4,160 bytes. -/
def execGetmrl (s : State) : Out := needs true s (i3cGet s (beBytes 2 4160))

/-! ## JTAG -/

/-- The TAP takes the part: its state is test (Table 12-2), unless it is off, in a bivouac or going down. -/
def takenByTest (s : State) : State :=
  if seqState s == stOff || seqState s == stBivouac || seqState s == stDown then s else setSeqState s stTest

/-- JTAG_ACCESS: boundary scan, whose cells of PS_EN, THM_TRIP_N and BW_OUT only observe; factory authority; a write of
the rail table before it locks, with that authority. -/
def execJtagAccess (a : Jtag) (s : State) : Out :=
  needs true s (match a with
    | .boundaryScan release =>
      if release then { s with pins.boundary := false } else takenByTest { s with pins.boundary := true }
    | .factory auth => if auth then takenByTest { s with pins.factory := true } else { s with pins.factory := false }
    | .railTable off data =>
      if s.pins.factory && ! s.seq.locked && decide (0x50100 ≤ off ∧ off < 0x50300) && off % 8 == 0 && data.length == 8 then
        loadWord s off (leNat data)
      else s)

/-! ## Time marks and operating hours (R412, R417) -/

/-- A TIME_MARK falls due: appended when anything was appended or repeated since the last one, else the last one is
rewritten with the current values; none once the logbook is full. -/
def timeMark (s : State) : State :=
  if ! s.log.loaded || isSet s Reg.logStatusFull then s
  else if s.log.sinceMark then
    let s := logEv s srcLog .timeMark noUnit (markDetail s)
    { s with log.sinceMark := false }
  else match s.log.recs.getLast? with
    | some r => if r.ev = .timeMark then { s with log := s.log.setLast { r.again with detail := markDetail s } } else s
    | none => s

/-- TIME_MARK_TIMER. -/
def execTimeMarkTimer (s : State) : Out := needs true s (timeMark s)

/-- OPERATING_HOUR_TICK: the 36-bit counter of 1/4,096 h. -/
def execOperatingHourTick (s : State) : Out :=
  needs true s { s with log.hours := (s.log.hours + 1) % 2 ^ 36 }

/-! ## Idle -/

/-- No command waits: one tick of the timebase passes (R29, log entry 6), a guide whose reload ends runs again, and an
orderly shutdown with nothing left to write or close goes down (R353). -/
def idleTick (s : State) : State := commit s (orderlyCheck (guidesReady { s with timebase := s.timebase + 1 }))

end Sys2Proof.Machine
end

