-- ==== Sys2Proof/Machine/Dispatch.lean ====
section
/-! DEFINITION. One arm per command: the direct call of its meaning. -/

namespace Sys2Proof.Machine

/-- The effect of a command on everything but the queue. -/
def exec (i : Instr) (s : State) : Host.Outcome State Fault Refusal :=
  match i with
  | .fabVcoreReqWrite off data => Sys2Proof.Machine.execFabVcoreReqWrite off data s
  | .avsStepAck mv => Sys2Proof.Machine.execAvsStepAck mv s
  | .avsAckTimeout => Sys2Proof.Machine.execAvsAckTimeout s
  | .avsReadback mv => Sys2Proof.Machine.execAvsReadback mv s
  | .sysRefclkLoss => Sys2Proof.Machine.execSysRefclkLoss s
  | .stallWdogSample stuck => Sys2Proof.Machine.execStallWdogSample stuck s
  | .pdIdleGate d => Sys2Proof.Machine.execPdIdleGate d s
  | .pdWake d => Sys2Proof.Machine.execPdWake d s
  | .pdPowerUpGrant d => Sys2Proof.Machine.execPdPowerUpGrant d s
  | .hostLaneLoss port lane narrowOk => Sys2Proof.Machine.execHostLaneLoss port lane narrowOk s
  | .subportLinkUp sub => Sys2Proof.Machine.execSubportLinkUp sub s
  | .frameTransmit x => Sys2Proof.Machine.execFrameTransmit x s
  | .readReq p => Sys2Proof.Machine.execReadReq p s
  | .writeReq p => Sys2Proof.Machine.execWriteReq p s
  | .writepReq p => Sys2Proof.Machine.execWritepReq p s
  | .flush p => Sys2Proof.Machine.execFlush p s
  | .cas64 p => Sys2Proof.Machine.execCas64 p s
  | .fadd64 p => Sys2Proof.Machine.execFadd64 p s
  | .cas128 p => Sys2Proof.Machine.execCas128 p s
  | .send p => Sys2Proof.Machine.execSend p s
  | .triggeredSend p => Sys2Proof.Machine.execTriggeredSend p s
  | .ack p => Sys2Proof.Machine.execAck p s
  | .nak p => Sys2Proof.Machine.execNak p s
  | .mgmt p => Sys2Proof.Machine.execMgmt p s
  | .connect p => Sys2Proof.Machine.execConnect p s
  | .pathOpen p => Sys2Proof.Machine.execPathOpen p s
  | .close p => Sys2Proof.Machine.execClose p s
  | .closed p => Sys2Proof.Machine.execClosed p s
  | .closeDrainEnd conn => Sys2Proof.Machine.execCloseDrainEnd conn s
  | .controlResend conn => Sys2Proof.Machine.execControlResend conn s
  | .retransmitTimerExpiry conn path => Sys2Proof.Machine.execRetransmitTimerExpiry conn path s
  | .connNumberFree conn => Sys2Proof.Machine.execConnNumberFree conn s
  | .ackDelayExpiry conn path => Sys2Proof.Machine.execAckDelayExpiry conn path s
  | .completionRepeat conn => Sys2Proof.Machine.execCompletionRepeat conn s
  | .rnrWaitExpiry conn path => Sys2Proof.Machine.execRnrWaitExpiry conn path s
  | .msnRangeWaitExpiry conn path => Sys2Proof.Machine.execMsnRangeWaitExpiry conn path s
  | .zeroWindowProbe conn => Sys2Proof.Machine.execZeroWindowProbe conn s
  | .windowRestore conn => Sys2Proof.Machine.execWindowRestore conn s
  | .pfcFrame sub prio quanta => Sys2Proof.Machine.execPfcFrame sub prio quanta s
  | .pfcPauseExpiry sub prio => Sys2Proof.Machine.execPfcPauseExpiry sub prio s
  | .pfcRefreshTimer sub prio => Sys2Proof.Machine.execPfcRefreshTimer sub prio s
  | .budgetReservationMet => Sys2Proof.Machine.execBudgetReservationMet s
  | .budgetWaitExpiry id => Sys2Proof.Machine.execBudgetWaitExpiry id s
  | .workRequestStart q => Sys2Proof.Machine.execWorkRequestStart q s
  | .workRequestComplete q slot => Sys2Proof.Machine.execWorkRequestComplete q slot s
  | .workRequestFail q slot cause => Sys2Proof.Machine.execWorkRequestFail q slot cause s
  | .promotionUnitFilled slab lost => Sys2Proof.Machine.execPromotionUnitFilled slab lost s
  | .parkEntryFree => Sys2Proof.Machine.execParkEntryFree s
  | .valleyDirectTimer conn msn => Sys2Proof.Machine.execValleyDirectTimer conn msn s
  | .moverJobStart m => Sys2Proof.Machine.execMoverJobStart m s
  | .moverUnitDone m => Sys2Proof.Machine.execMoverUnitDone m s
  | .destageProgramDone slab => Sys2Proof.Machine.execDestageProgramDone slab s
  | .destageProgramFail slab => Sys2Proof.Machine.execDestageProgramFail slab s
  | .walkerEvict part => Sys2Proof.Machine.execWalkerEvict part s
  | .segmentRebuildDone seg => Sys2Proof.Machine.execSegmentRebuildDone seg s
  | .markerLogTimer topo => Sys2Proof.Machine.execMarkerLogTimer topo s
  | .ddrCommandIssue ch sub => Sys2Proof.Machine.execDdrCommandIssue ch sub s
  | .campReadDone cpa word port => Sys2Proof.Machine.execCampReadDone cpa word port s
  | .whistleLong port => Sys2Proof.Machine.execWhistleLong port s
  | .refreshInterval ch rank => Sys2Proof.Machine.execRefreshInterval ch rank s
  | .mr4Poll ch rank double => Sys2Proof.Machine.execMr4Poll ch rank double s
  | .dimmTempPoll ch dimm tempC => Sys2Proof.Machine.execDimmTempPoll ch dimm tempC s
  | .rfgWindowClear => Sys2Proof.Machine.execRfgWindowClear s
  | .rfgToken b iv => Sys2Proof.Machine.execRfgToken b iv s
  | .rfgHoldExpiry b iv => Sys2Proof.Machine.execRfgHoldExpiry b iv s
  | .campTrainStageDone ch res => Sys2Proof.Machine.execCampTrainStageDone ch res s
  | .zqTimer => Sys2Proof.Machine.execZqTimer s
  | .dqsoscRead ch rank driftPs => Sys2Proof.Machine.execDqsoscRead ch rank driftPs s
  | .centringEscalation ch rank => Sys2Proof.Machine.execCentringEscalation ch rank s
  | .frameMoveDone slab => Sys2Proof.Machine.execFrameMoveDone slab s
  | .valleyReadDone vloc cw level bits => Sys2Proof.Machine.execValleyReadDone vloc cw level bits s
  | .valleyProgramDone vloc ok pct => Sys2Proof.Machine.execValleyProgramDone vloc ok pct s
  | .nandResetTimeout die => Sys2Proof.Machine.execNandResetTimeout die s
  | .valleyEraseDone block ok pct => Sys2Proof.Machine.execValleyEraseDone block ok pct s
  | .programWaitExpiry die => Sys2Proof.Machine.execProgramWaitExpiry die s
  | .stripeCloseTimer stripe => Sys2Proof.Machine.execStripeCloseTimer stripe s
  | .journalPageTimer => Sys2Proof.Machine.execJournalPageTimer s
  | .tableLogPageTimer => Sys2Proof.Machine.execTableLogPageTimer s
  | .logbookPageTimer => Sys2Proof.Machine.execLogbookPageTimer s
  | .verifyPassRead page level bits => Sys2Proof.Machine.execVerifyPassRead page level bits s
  | .csErase sector tries => Sys2Proof.Machine.execCsErase sector tries s
  | .csProgram off data tries => Sys2Proof.Machine.execCsProgram off data tries s
  | .csVerify off len digest readback => Sys2Proof.Machine.execCsVerify off len digest readback s
  | .csCommit area crcOk => Sys2Proof.Machine.execCsCommit area crcOk s
  | .csBankVerify bank img => Sys2Proof.Machine.execCsBankVerify bank img s
  | .csWear => Sys2Proof.Machine.execCsWear s
  | .pitchLogFlushTimer => Sys2Proof.Machine.execPitchLogFlushTimer s
  | .lineRepairDone line data => Sys2Proof.Machine.execLineRepairDone line data s
  | .faultWindowBucket hourly => Sys2Proof.Machine.execFaultWindowBucket hourly s
  | .scrubStep word => Sys2Proof.Machine.execScrubStep word s
  | .sramScrubStep store at_ bad => Sys2Proof.Machine.execSramScrubStep store at_ bad s
  | .summitFillDone line => Sys2Proof.Machine.execSummitFillDone line s
  | .dirtyEvictAdmitted line => Sys2Proof.Machine.execDirtyEvictAdmitted line s
  | .lockWaysWrite off data => Sys2Proof.Machine.execLockWaysWrite off data s
  | .wayCleanDone => Sys2Proof.Machine.execWayCleanDone s
  | .cipherRequestDone ok => Sys2Proof.Machine.execCipherRequestDone ok s
  | .keyDerivationDone slot => Sys2Proof.Machine.execKeyDerivationDone slot s
  | .rootReunwrap root => Sys2Proof.Machine.execRootReunwrap root s
  | .knownAnswerTest isCvu unit pass => Sys2Proof.Machine.execKnownAnswerTest isCvu unit pass s
  | .hello hdr h => Sys2Proof.Machine.execHello hdr h s
  | .negotiateTimeout => Sys2Proof.Machine.execNegotiateTimeout s
  | .order h recs => Sys2Proof.Machine.execOrder h recs s
  | .operation => Sys2Proof.Machine.execOperation s
  | .command => Sys2Proof.Machine.execCommand s
  | .topo => Sys2Proof.Machine.execTopo s
  | .chain => Sys2Proof.Machine.execChain s
  | .partMsg => Sys2Proof.Machine.execPartMsg s
  | .ivReserve => Sys2Proof.Machine.execIvReserve s
  | .epochMark => Sys2Proof.Machine.execEpochMark s
  | .handover => Sys2Proof.Machine.execHandover s
  | .confirm h idx => Sys2Proof.Machine.execConfirm h idx s
  | .renew src seq => Sys2Proof.Machine.execRenew src seq s
  | .renewAck src seq => Sys2Proof.Machine.execRenewAck src seq s
  | .renewalTimer => Sys2Proof.Machine.execRenewalTimer s
  | .leaseEnd => Sys2Proof.Machine.execLeaseEnd s
  | .leaseExpiry => Sys2Proof.Machine.execLeaseExpiry s
  | .guardEnd => Sys2Proof.Machine.execGuardEnd s
  | .fillReq h idxs => Sys2Proof.Machine.execFillReq h idxs s
  | .fillData h idx off data => Sys2Proof.Machine.execFillData h idx off data s
  | .fillWaitExpiry => Sys2Proof.Machine.execFillWaitExpiry s
  | .fetchReq h f => Sys2Proof.Machine.execFetchReq h f s
  | .fetchData h f ans => Sys2Proof.Machine.execFetchData h f ans s
  | .repairTimeout slab => Sys2Proof.Machine.execRepairTimeout slab s
  | .catchup h slab data poison stamp => Sys2Proof.Machine.execCatchup h slab data poison stamp s
  | .control h c => Sys2Proof.Machine.execControl h c s
  | .returnRequest h => Sys2Proof.Machine.execReturnRequest h s
  | .ropeAck h => Sys2Proof.Machine.execRopeAck h s
  | .ropeRetransmitTimer inst => Sys2Proof.Machine.execRopeRetransmitTimer inst s
  | .ropeInstanceDown inst => Sys2Proof.Machine.execRopeInstanceDown inst s
  | .ropeInstanceUp inst => Sys2Proof.Machine.execRopeInstanceUp inst s
  | .holdTimeExpiry idx => Sys2Proof.Machine.execHoldTimeExpiry idx s
  | .leadPathTimeout conn => Sys2Proof.Machine.execLeadPathTimeout conn s
  | .epochMarkTimer => Sys2Proof.Machine.execEpochMarkTimer s
  | .returnHoldoff => Sys2Proof.Machine.execReturnHoldoff s
  | .departure wd => Sys2Proof.Machine.execDeparture wd s
  | .pd0PowerUp => Sys2Proof.Machine.execPd0PowerUp s
  | .vinGood => Sys2Proof.Machine.execVinGood s
  | .groupDelayExpiry => Sys2Proof.Machine.execGroupDelayExpiry s
  | .psPgRise rail => Sys2Proof.Machine.execPsPgRise rail s
  | .dwellEnd rail => Sys2Proof.Machine.execDwellEnd rail s
  | .pgTimeout rail => Sys2Proof.Machine.execPgTimeout rail s
  | .psPgFall rail => Sys2Proof.Machine.execPsPgFall rail s
  | .pgLoss rail => Sys2Proof.Machine.execPgLoss rail s
  | .monitorReading ch pinMv => Sys2Proof.Machine.execMonitorReading ch pinMv s
  | .graceExpiry => Sys2Proof.Machine.execGraceExpiry s
  | .dischargeEnd rail timedOut => Sys2Proof.Machine.execDischargeEnd rail timedOut s
  | .bivStepTimer => Sys2Proof.Machine.execBivStepTimer s
  | .inputCollapse => Sys2Proof.Machine.execInputCollapse s
  | .bivouacStepDone => Sys2Proof.Machine.execBivouacStepDone s
  | .bivouacEnergyLost => Sys2Proof.Machine.execBivouacEnergyLost s
  | .holdupFall => Sys2Proof.Machine.execHoldupFall s
  | .holdupRestored => Sys2Proof.Machine.execHoldupRestored s
  | .holdupWaitExpiry => Sys2Proof.Machine.execHoldupWaitExpiry s
  | .buttonRecognised => Sys2Proof.Machine.execButtonRecognised s
  | .shortPress => Sys2Proof.Machine.execShortPress s
  | .longPress => Sys2Proof.Machine.execLongPress s
  | .manualReset => Sys2Proof.Machine.execManualReset s
  | .manualResetRelease => Sys2Proof.Machine.execManualResetRelease s
  | .restartDue => Sys2Proof.Machine.execRestartDue s
  | .vddAonLow => Sys2Proof.Machine.execVddAonLow s
  | .thermalScan rd => Sys2Proof.Machine.execThermalScan rd s
  | .graceEnd => Sys2Proof.Machine.execGraceEnd s
  | .ceilingStep => Sys2Proof.Machine.execCeilingStep s
  | .cool => Sys2Proof.Machine.execCool s
  | .guideHang g => Sys2Proof.Machine.execGuideHang g s
  | .sdRefclkLoss => Sys2Proof.Machine.execSdRefclkLoss s
  | .sdRefclkRestored => Sys2Proof.Machine.execSdRefclkRestored s
  | .startStageDone info => Sys2Proof.Machine.execStartStageDone info s
  | .commandPendingTimer t => Sys2Proof.Machine.execCommandPendingTimer t s
  | .guideWaitTimeout t => Sys2Proof.Machine.execGuideWaitTimeout t s
  | .idQuery t => Sys2Proof.Machine.execIdQuery t s
  | .limitsQuery t => Sys2Proof.Machine.execLimitsQuery t s
  | .identitySet t => Sys2Proof.Machine.execIdentitySet t s
  | .identityRemove t ident => Sys2Proof.Machine.execIdentityRemove t ident s
  | .identityQuery t ident => Sys2Proof.Machine.execIdentityQuery t ident s
  | .authKeySet t => Sys2Proof.Machine.execAuthKeySet t s
  | .regionRegister t => Sys2Proof.Machine.execRegionRegister t s
  | .regionQuery t key => Sys2Proof.Machine.execRegionQuery t key s
  | .regionRevoke t key => Sys2Proof.Machine.execRegionRevoke t key s
  | .accessGroupSet t grp members => Sys2Proof.Machine.execAccessGroupSet t grp members s
  | .accessGroupQuery t grp => Sys2Proof.Machine.execAccessGroupQuery t grp s
  | .landingRegister t key len => Sys2Proof.Machine.execLandingRegister t key len s
  | .landingRemove t key => Sys2Proof.Machine.execLandingRemove t key s
  | .connQuery t conn => Sys2Proof.Machine.execConnQuery t conn s
  | .connClose t conn => Sys2Proof.Machine.execConnClose t conn s
  | .chainQueueCreate t q owner oconn repeatMode depth report => Sys2Proof.Machine.execChainQueueCreate t q owner oconn repeatMode depth report s
  | .chainPost t q wrs => Sys2Proof.Machine.execChainPost t q wrs s
  | .chainReset t q => Sys2Proof.Machine.execChainReset t q s
  | .chainQueueDelete t q => Sys2Proof.Machine.execChainQueueDelete t q s
  | .chainQuery t q => Sys2Proof.Machine.execChainQuery t q s
  | .triggerBind t tag q grp => Sys2Proof.Machine.execTriggerBind t tag q grp s
  | .triggerUnbind t tag => Sys2Proof.Machine.execTriggerUnbind t tag s
  | .portConfig t writes restore => Sys2Proof.Machine.execPortConfig t writes restore s
  | .objectCreate t => Sys2Proof.Machine.execObjectCreate t s
  | .objectQuery t obj => Sys2Proof.Machine.execObjectQuery t obj s
  | .objectSetPlacement t obj cls => Sys2Proof.Machine.execObjectSetPlacement t obj cls s
  | .objectEvict t obj start len => Sys2Proof.Machine.execObjectEvict t obj start len s
  | .objectTrim t obj start len => Sys2Proof.Machine.execObjectTrim t obj start len s
  | .objectDelete t obj => Sys2Proof.Machine.execObjectDelete t obj s
  | .objectPublish t => Sys2Proof.Machine.execObjectPublish t s
  | .topoCreate t => Sys2Proof.Machine.execTopoCreate t s
  | .topoStepAdd t topo => Sys2Proof.Machine.execTopoStepAdd t topo s
  | .topoCommit t topo => Sys2Proof.Machine.execTopoCommit t topo s
  | .topoDelete t topo => Sys2Proof.Machine.execTopoDelete t topo s
  | .topoAdvance t topo step => Sys2Proof.Machine.execTopoAdvance t topo step s
  | .topoQuery t topo => Sys2Proof.Machine.execTopoQuery t topo s
  | .sumReload t obj start len => Sys2Proof.Machine.execSumReload t obj start len s
  | .sumInvalidate t addr len => Sys2Proof.Machine.execSumInvalidate t addr len s
  | .rangeConfig t w lockWays => Sys2Proof.Machine.execRangeConfig t w lockWays s
  | .keyRootLoad t => Sys2Proof.Machine.execKeyRootLoad t s
  | .keyRootUnload t root => Sys2Proof.Machine.execKeyRootUnload t root s
  | .keyRootQuery t => Sys2Proof.Machine.execKeyRootQuery t s
  | .keySessionQuery t conn => Sys2Proof.Machine.execKeySessionQuery t conn s
  | .keySlotStep t slot => Sys2Proof.Machine.execKeySlotStep t slot s
  | .keySlotQuery t slot => Sys2Proof.Machine.execKeySlotQuery t slot s
  | .keyConfig t w => Sys2Proof.Machine.execKeyConfig t w s
  | .contentUnseal t srcKey obj unit count dstKey dstAddr => Sys2Proof.Machine.execContentUnseal t srcKey obj unit count dstKey dstAddr s
  | .cvuContextSet t ctx par owner chained run => Sys2Proof.Machine.execCvuContextSet t ctx par owner chained run s
  | .cvuContextGet t ctx => Sys2Proof.Machine.execCvuContextGet t ctx s
  | .ropeQuery t => Sys2Proof.Machine.execRopeQuery t s
  | .ropeHandover t => Sys2Proof.Machine.execRopeHandover t s
  | .ropeReturnEnable t => Sys2Proof.Machine.execRopeReturnEnable t s
  | .ropeSolo t => Sys2Proof.Machine.execRopeSolo t s
  | .ropeConfig t w => Sys2Proof.Machine.execRopeConfig t w s
  | .pwrStatus t => Sys2Proof.Machine.execPwrStatus t s
  | .pwrShutdown t => Sys2Proof.Machine.execPwrShutdown t s
  | .vcoreSet t req => Sys2Proof.Machine.execVcoreSet t req s
  | .thermalStatus t => Sys2Proof.Machine.execThermalStatus t s
  | .thermalConfig t w => Sys2Proof.Machine.execThermalConfig t w s
  | .domainSwitch t d on => Sys2Proof.Machine.execDomainSwitch t d on s
  | .seqConfig t w => Sys2Proof.Machine.execSeqConfig t w s
  | .logRead t => Sys2Proof.Machine.execLogRead t s
  | .logClear t => Sys2Proof.Machine.execLogClear t s
  | .freeze t lg => Sys2Proof.Machine.execFreeze t lg s
  | .plogRead t => Sys2Proof.Machine.execPlogRead t s
  | .thaw t lg => Sys2Proof.Machine.execThaw t lg s
  | .autoThaw lg => Sys2Proof.Machine.execAutoThaw lg s
  | .telemetryRead t base => Sys2Proof.Machine.execTelemetryRead t base s
  | .nqConfig t src q => Sys2Proof.Machine.execNqConfig t src q s
  | .scrubConfig t w => Sys2Proof.Machine.execScrubConfig t w s
  | .campFaultList t => Sys2Proof.Machine.execCampFaultList t s
  | .campConfig t sched rfg ref => Sys2Proof.Machine.execCampConfig t sched rfg ref s
  | .campRowRetire t ch sub rank bank row => Sys2Proof.Machine.execCampRowRetire t ch sub rank bank row s
  | .valleyConfig t w => Sys2Proof.Machine.execValleyConfig t w s
  | .valleyStatus t => Sys2Proof.Machine.execValleyStatus t s
  | .firmwareWrite t => Sys2Proof.Machine.execFirmwareWrite t s
  | .firmwareVerify t bank img => Sys2Proof.Machine.execFirmwareVerify t bank img s
  | .firmwareSelect t bank => Sys2Proof.Machine.execFirmwareSelect t bank s
  | .firmwareCommit t => Sys2Proof.Machine.execFirmwareCommit t s
  | .configSave t => Sys2Proof.Machine.execConfigSave t s
  | .cairnStatus t => Sys2Proof.Machine.execCairnStatus t s
  | .ladderRetry t => Sys2Proof.Machine.execLadderRetry t s
  | .ladderReinit t => Sys2Proof.Machine.execLadderReinit t s
  | .deviceReset t => Sys2Proof.Machine.execDeviceReset t s
  | .pwrCycle t => Sys2Proof.Machine.execPwrCycle t s
  | .ladderStatus t => Sys2Proof.Machine.execLadderStatus t s
  | .portQuiesce t => Sys2Proof.Machine.execPortQuiesce t s
  | .connFence t => Sys2Proof.Machine.execConnFence t s
  | .hostFence t => Sys2Proof.Machine.execHostFence t s
  | .regionFence t => Sys2Proof.Machine.execRegionFence t s
  | .brakeStatus t => Sys2Proof.Machine.execBrakeStatus t s
  | .i3cPrivateWrite data => Sys2Proof.Machine.execI3cPrivateWrite data s
  | .i3cPrivateRead => Sys2Proof.Machine.execI3cPrivateRead s
  | .entdaa addr => Sys2Proof.Machine.execEntdaa addr s
  | .setdasa stat addr => Sys2Proof.Machine.execSetdasa stat addr s
  | .rstdaa => Sys2Proof.Machine.execRstdaa s
  | .enec => Sys2Proof.Machine.execEnec s
  | .disec => Sys2Proof.Machine.execDisec s
  | .getpid => Sys2Proof.Machine.execGetpid s
  | .getbcr => Sys2Proof.Machine.execGetbcr s
  | .getdcr => Sys2Proof.Machine.execGetdcr s
  | .getstatus => Sys2Proof.Machine.execGetstatus s
  | .getmwl => Sys2Proof.Machine.execGetmwl s
  | .getmrl => Sys2Proof.Machine.execGetmrl s
  | .mbxDoorbell bits => Sys2Proof.Machine.execMbxDoorbell bits s
  | .mbxRelease bits => Sys2Proof.Machine.execMbxRelease bits s
  | .mbxGrantGo => Sys2Proof.Machine.execMbxGrantGo s
  | .mbxGrantDrop => Sys2Proof.Machine.execMbxGrantDrop s
  | .grantExpiry => Sys2Proof.Machine.execGrantExpiry s
  | .mbxIntStatusWrite bits => Sys2Proof.Machine.execMbxIntStatusWrite bits s
  | .nqPop q exact => Sys2Proof.Machine.execNqPop q exact s
  | .nqPeek q exact => Sys2Proof.Machine.execNqPeek q exact s
  | .rcRead off len => Sys2Proof.Machine.execRcRead off len s
  | .cvuCtxWrite off data => Sys2Proof.Machine.execCvuCtxWrite off data s
  | .registerWrite off data => Sys2Proof.Machine.execRegisterWrite off data s
  | .pcieLinkReset => Sys2Proof.Machine.execPcieLinkReset s
  | .mpPerstN high => Sys2Proof.Machine.execMpPerstN high s
  | .jtagAccess a => Sys2Proof.Machine.execJtagAccess a s
  | .timeMarkTimer => Sys2Proof.Machine.execTimeMarkTimer s
  | .operatingHourTick => Sys2Proof.Machine.execOperatingHourTick s
  | .belayWiresLost => Sys2Proof.Machine.execBelayWiresLost s
  | .sysRefclkRestored => Sys2Proof.Machine.execSysRefclkRestored s
  | .alwaysOnSupplyFail => Sys2Proof.Machine.execAlwaysOnSupplyFail s
  | .pmbAlert => Sys2Proof.Machine.execPmbAlert s
  | .ropeLaneLoss inst lane narrowOk => Sys2Proof.Machine.execRopeLaneLoss inst lane narrowOk s
  | .ladderBoundExpiry f => Sys2Proof.Machine.execLadderBoundExpiry f s
  | .ingressFrameDrop port why => Sys2Proof.Machine.execIngressFrameDrop port why s
  | .msixEnable => Sys2Proof.Machine.execMsixEnable s
  | .sdRefclkWaitTimeout => Sys2Proof.Machine.execSdRefclkWaitTimeout s

end Sys2Proof.Machine
end

