-- ==== Sys2Proof/Safety.lean ====
section
/-! DEFINITION. What a well-kept state is, in the terms that the statements use. -/

namespace Sys2Proof.Machine

/-- The one form of the range's bytes: addresses strictly rising, no byte listed that an unlisted address reads as. -/
def Memory.wf : List Host.Cell → Bool
  | [] => true
  | [c] => c.2 != 0
  | c :: d :: t => c.2 != 0 && decide (c.1 < d.1) && Memory.wf (d :: t)

/-- The range of a state is in canonical form. -/
def State.memOk (s : State) : Prop := Memory.wf s.range.mem = true

/-- No fuse word of `s` reads higher than in `t`. -/
def FusesKept (s t : State) : Prop := ∀ k, tcnt s.fuse k ≤ tcnt t.fuse k

/-- A packet that ingress takes, for an open connection, by the open path that it names and the route of that path. -/
def OnRoute (s : State) (p : Pkt) (c : Conn) (q : PathSt) : Prop :=
  ingress s p = .take ∧ p.conn ≠ 0 ∧ connOf s p.conn = some c ∧ c.st = .opened ∧ c.path (p.path % 4) = some q ∧
  q.up = true ∧ q.src = p.src ∧ q.sport = p.sport ∧ q.sub = p.sub

/-- A sequenced packet whose extensions, type row, chunk length and declared length are in order (Table 3-5, step 8). -/
def WellPacked (c : Conn) (p : Pkt) : Prop :=
  chainOk p = true ∧ rowOk p = true ∧ chunkLenOk c.unit p = true ∧ lengthFault p = false

/-- A command of the opcode `op` waits as ticket `t`: accepted, and taken by nothing yet, with a guide that runs, or the hardware, to
take it (R395) and no earlier command on its targets (R396); a mirrored one at a part that is not handing over (R334). -/
def Waits (s : State) (t op : Nat) (tk : Ticket) : Prop :=
  tget s.cmd.tickets t = some tk ∧ tk.op = op ∧ tk.st = .waiting ∧ (mirroredOp op && s.rope.handover.isSome) = false ∧
    canTake s op = true ∧ inOrder s t = true

end Sys2Proof.Machine
end

