-- ==== Sys2Proof/Certificates/Slice0/Obligations.lean ====
section
/-! DEFINITION. The statements for the provers. -/

open Sys2Proof Sys2Proof.Machine

/-! ## The step -/

/-- A step takes the command at the front of the queue and is `exec` of it with the queue's rest. -/
def Obligations.StepRunsFrontCommand : Prop :=
  ∀ (c : Instr) (rest : List Instr) (s : State), step { s with pending := c :: rest } = exec c { s with pending := rest }

/-- The queue is first in, first out: a step takes its front away and nothing else; on an empty queue one tick of the
timebase passes, and a part that is not stopping and reloads no guide changes in nothing else. That the empty queue ticks
is the model's choice (log entry 6). -/
def Obligations.QueueOrder : Prop :=
  (∀ s t : State, step s = .next t → t.pending = s.pending.tail) ∧
  (∀ s : State, s.pending = [] → seqState s ≠ stStopping → (∀ x ∈ s.ladder.fns, x.2.until_ = none) →
    step s = .next (commit s { s with timebase := s.timebase + 1 }))

/-- Every command whose operands name units of the part answers a next state, whatever the state, and leaves the
queue to the step; every other command faults with noSuchUnit. The fault is the model's choice for operands that name
nothing (log entry 1). -/
def Obligations.EveryCommandSettles : Prop :=
  ∀ (c : Instr) (s : State),
    (wellFormed c = true → ∃ t, exec c s = .next t ∧ t.pending = s.pending) ∧
    (wellFormed c = false → exec c s = .fault .noSuchUnit)

/-- The range's bytes stay in their one form: a step keeps addresses strictly rising and lists no byte that an
unlisted address reads as (R127). The form and what an unlisted byte reads as are the model's choice (log entry 9).
-/
def Obligations.RangeFormKept : Prop :=
  ∀ s t : State, s.memOk → step s = .next t → t.memOk

/-- No run of steps lowers an eFuse word, on any number of steps. That a fuse never goes back is the model's reading
of what an eFuse is (log entry 8). -/
def Obligations.FusesOnlyRise : Prop :=
  ∀ (n : Nat) (s t : State), Sys2Proof.core.run n s = .next t → FusesKept s t

/-- The state after reset: every register field reads the reset value of its table cut to its width, which it fits;
the range lists nothing and is in its one form; nothing is open, held or queued. The values that the spec does not
give are the model's (log entry 2). -/
def Obligations.ResetState : Prop :=
  (∀ f : Reg.Fld, getF State.reset f = f.reset % 2 ^ f.w) ∧
  (∀ d ∈ Reg.allFields, d.reset < 2 ^ d.w ∧ (d.resetIsIndex = true → d.count ≤ 2 ^ d.w)) ∧
  State.reset.memOk ∧ State.reset.range.mem = [] ∧ State.reset.pending = [] ∧ State.reset.conns = [] ∧
  State.reset.cmd.tickets = [] ∧ State.reset.log.recs = [] ∧ State.reset.key.slots = []

/-! ## Fabric (2) -/

/-- The requested core voltage (R25): it is 26 after reset; a write through the window of a value up to 46 under a
grant sets it; one above 46 leaves it unchanged and sets RANGE_ERR; VCORE_SET of a value above 46 is answered
OUT_OF_RANGE and changes no field; and a code stands for 620 mV + 5 mV per step, which the regulator's read-back
confirms. -/
def Obligations.VcoreRequest : Prop :=
  getF State.reset Reg.fabVcoreReq = 26 ∧
  (∀ (s : State) (v : Nat), s.mgmt.linkUp = true → s.timebase < s.mgmt.grantEnd →
    1 ≤ getF s Reg.mbxGrantStatusLevel → getF s Reg.fabVcoreReq ≤ 46 → v < 256 →
    ∃ t, exec (.fabVcoreReqWrite 0x1010 (leBytes 4 v)) s = .next t ∧
      getF t Reg.fabVcoreReq = (if v ≤ 46 then v else getF s Reg.fabVcoreReq) ∧
      isSet t Reg.fabVcoreRangeErr = (isSet s Reg.fabVcoreRangeErr || decide (46 < v)) ∧ t.conns = s.conns ∧ t.log = s.log) ∧
  (∀ (s : State) (t r : Nat) (tk : Ticket), Waits s t 0x0603 tk → tk.chan = .i3c → 46 < r →
    ∃ u, exec (.vcoreSet t r) s = .next u ∧ u.regs = s.regs ∧
      u.i3c.replies.map (·.2.status) = s.i3c.replies.map (·.2.status) ++ [scOutOfRange]) ∧
  (∀ (s : State) (n mv : Nat), s.fab.avsSent = some n → mv < 4096 → 620 + 5 * n ≤ mv + 10 → mv ≤ 620 + 5 * n + 10 →
    ∃ t, exec (.avsStepAck mv) s = .next t ∧ t.fab.avsAcked = n)

/-- The stall watchdog's threshold (R34): 4 after reset; values 1 to 4 are taken, writes above 4 are ignored; and it
counts samples of 10 µs: a handshake stuck for that many samples is a stall, shown in FAB_STALL. -/
def Obligations.WatchdogThreshold : Prop :=
  getF State.reset Reg.fabWdogThresh = 4 ∧
  (∀ (s : State) (v : Nat), s.mgmt.linkUp = true → s.timebase < s.mgmt.grantEnd → 1 ≤ getF s Reg.mbxGrantStatusLevel →
    1 ≤ v → v < 256 → getF s Reg.fabWdogThresh ≤ 4 →
    ∃ t, exec (.registerWrite 0x1018 (leBytes 4 v)) s = .next t ∧
      getF t Reg.fabWdogThresh = (if v ≤ 4 then v else getF s Reg.fabWdogThresh) ∧ t.log = s.log ∧ t.conns = s.conns) ∧
  (∀ (s : State) (d c : Nat), 0 < d → d < 128 → c < 4096 → domOn s d = true →
    tcnt s.fab.stuck (d + 128 * c) + 1 < getF s Reg.fabWdogThresh →
    exec (.stallWdogSample [(d, c)]) s = .next (commit s
      { s with fab.stuck := [(d + 128 * c, tcnt s.fab.stuck (d + 128 * c) + 1)] })) ∧
  (∀ (s : State) (d c : Nat), 0 < d → d < 128 → c < 4096 → domOn s d = true →
    getF s Reg.fabWdogThresh ≤ tcnt s.fab.stuck (d + 128 * c) + 1 →
    exec (.stallWdogSample [(d, c)]) s = .next (commit s (stalled
      { s with fab.stuck := [(d + 128 * c, tcnt s.fab.stuck (d + 128 * c) + 1)] } (d + 128 * c))))

/-- R25 to R28: a request in range is taken; an acknowledged step moves the supply and the next step is at most 2
codes away; a missing acknowledgement sends the step again up to 3 times and then holds the last acknowledged target
with AVS_FAULT; a read-back of 600 to 880 mV is shown and is no fault. R30, R490: with SYS_REFCLK lost the internal
oscillator counts and CLK_LOSS is set; its return clears OSC and leaves CLK_LOSS to be cleared by a write.
PMB_ALERT_N is recorded by the fabric's pitch log alone. R34, R39, R40: a sample with nothing stuck clears every
count, and one with a stuck channel below the threshold counts it alone; an automatically gated domain without work
goes off; a gated domain wakes at once when fewer than 4 woke within 10 µs and none before it waits, and waits in the queue
otherwise, which a grant takes from its head. -/
def Obligations.FabricClocksAndDomains : Prop :=
  (∀ (s : State) (v : Nat), s.mgmt.linkUp = true → s.timebase < s.mgmt.grantEnd →
    1 ≤ getF s Reg.mbxGrantStatusLevel → v ≤ 46 → isSet s Reg.fabVcoreAvsFault = false →
    ∃ t, exec (.fabVcoreReqWrite 0x1010 (leBytes 4 v)) s = .next t ∧ getF t Reg.fabVcoreReq = v ∧
      getF t Reg.fabVcoreTarget = min v (getF s Reg.fabVcoreCeil)) ∧
  (∀ (s : State) (n mv : Nat), s.fab.avsSent = some n → mv < 4096 → 620 + 5 * n ≤ mv + 10 → mv ≤ 620 + 5 * n + 10 →
    ∃ t, exec (.avsStepAck mv) s = .next t ∧ t.fab.avsAcked = n ∧ getF t Reg.fabVcoreReadbackMv = mv ∧
      ∀ k, t.fab.avsSent = some k → k ≤ n + 2 ∧ n ≤ k + 2) ∧
  (∀ (s : State) (n : Nat), s.fab.avsSent = some n → s.fab.avsTries < 3 →
    exec .avsAckTimeout s = .next (commit s
      { s with fab.avsTries := s.fab.avsTries + 1, fab.avsLog := s.fab.avsLog ++ [n] })) ∧
  (∀ (s : State) (n : Nat), s.fab.avsSent = some n → 3 ≤ s.fab.avsTries →
    ∃ t, exec .avsAckTimeout s = .next t ∧ t.fab.avsSent = none ∧ isSet t Reg.fabVcoreAvsFault = true ∧
      getF t Reg.fabVcoreTarget = s.fab.avsAcked % 256 ∧ t.fab.avsLog = s.fab.avsLog) ∧
  (∀ (s : State) (mv : Nat), 600 ≤ mv → mv ≤ 880 →
    exec (.avsReadback mv) s = .next (commit s (setF s Reg.fabVcoreReadbackMv mv))) ∧
  (∀ s : State, s.fab.refOk = true → hasSecond s = false →
    ∃ t, exec .sysRefclkLoss s = .next t ∧ t.fab.refOk = false ∧ isSet t Reg.fabTbStatusClkLoss = true ∧
      isSet t Reg.fabTbStatusOsc = true ∧ (∀ a, memGet t.range.mem a = memGet s.range.mem a) ∧ t.conns = s.conns ∧
      t.rope = s.rope) ∧
  (∀ s : State, s.fab.refOk = true → hasSecond s = true →
    let u := logEv (setB (setB { s with fab.refOk := false } Reg.fabTbStatusClkLoss true) Reg.fabTbStatusOsc true)
      srcFab .clkLoss noUnit []
    hasSecond u = true ∧ exec .sysRefclkLoss s = .next (commit s (departFenced u))) ∧
  (∀ (s : State) (mv : Nat), wfAvsReadback mv = true → (mv < 600 ∨ 880 < mv) →
    exec (.avsReadback mv) s = .next (commit s
      (railFault (setF s Reg.fabVcoreReadbackMv mv) (Config.coreRail % 24) (if mv < 600 then 4 else 5)))) ∧
  (∀ s : State, exec .sysRefclkRestored s =
    .next (commit s (setB { s with fab.refOk := true } Reg.fabTbStatusOsc false))) ∧
  (∀ s : State, ∃ t, exec .pmbAlert s = .next t ∧ t = commit s { s with plog := t.plog } ∧
    ((plogOf s srcFab).frozen = false →
      (plogOf t srcFab).recs.getLast? = some ⟨stampNow s, srcFab, .pmbAlert, false, []⟩) ∧
    ((plogOf s srcFab).frozen = true → (plogOf t srcFab).recs = (plogOf s srcFab).recs)) ∧
  (∀ s : State, exec (.stallWdogSample []) s = .next (commit s { s with fab.stuck := [] })) ∧
  (∀ (s : State) (d : Nat), 90 ≤ d → d ≤ 109 → getF s Reg.fabPdIdleTime ≠ 0 → domOn s d = true → domBusy s d = false →
    exec (.pdIdleGate d) s = .next (commit s (setDom s d false))) ∧
  (∀ (s : State) (d : Nat), 90 ≤ d → d ≤ 109 → domOn s d = false → (ladFn s (fnKey 8 d)).held = false →
    (recentUps s).length < 4 → (∀ e ∈ s.fab.wakeQ, d ≤ e) →
    exec (.pdWake d) s = .next (commit s (domStarts
      (setDom { s with fab.ups := recentUps s ++ [s.timebase], fab.wakeQ := s.fab.wakeQ.filter (· != d) } d true) d))) ∧
  (∀ (s : State) (d : Nat), 90 ≤ d → d ≤ 109 → domOn s d = false → (ladFn s (fnKey 8 d)).held = false → d ∉ s.fab.wakeQ →
    4 ≤ (recentUps s).length →
    exec (.pdWake d) s = .next (commit s { s with fab.wakeQ := insertBy (fun a b => decide (a ≤ b)) d s.fab.wakeQ })) ∧
  (∀ (s : State) (d : Nat) (q : List Nat), 90 ≤ d → d ≤ 109 → s.fab.wakeQ = d :: q → (∀ e ∈ q, d ≤ e) →
    (recentUps s).length < 4 →
    exec (.pdPowerUpGrant d) s = .next (commit s (domStarts
      (setDom { s with fab.ups := recentUps s ++ [s.timebase], fab.wakeQ := (d :: q).filter (· != d) } d true) d)))

/-! ## Power (12) -/

/-- R348 to R350: the group's delay ends by enabling its rails once the earlier groups are in dwell; a rise of
power-good in the start sequence begins the dwell; a fall takes the rail out of dwell and of the good rails; the end
of the dwell makes the rail good. R348, R351, R352: a rail that is not good in its time, or whose power-good has
fallen for longer than PG_LOSS_US, is a rail fault with cause 1 or 3, in SEQ_FAULT and the logbook. R346, R347: a
reading is scaled into the monitor's register; one inside its window ends the count of readings outside; the first
outside an armed window is only marked. -/
def Obligations.Rails : Prop :=
  (∀ (s : State) (g t : Nat), s.seq.group = some g → s.seq.delayEnd = some t → earlierInDwell s g = true →
    exec .groupDelayExpiry s = .next (commit s (enableGroup (reach s t) g)) ∧
      (enableGroup (reach s t) g).seq.locked = true) ∧
  (∀ (s : State) (g r : Nat), r < 24 → s.seq.group = some g → railOn s r = true → isSet s (Reg.seqRailPgUsed r) = true →
    r ∉ s.seq.good → thas s.seq.dwell r = false →
    ∃ t, exec (.psPgRise r) s = .next t ∧ tget t.seq.dwell r = some s.timebase ∧
      t = commit s { putF s Reg.seqStatusPgState r true with seq.dwell := tset s.seq.dwell r s.timebase }) ∧
  (∀ (s : State) (r : Nat), r < 24 → s.seq.group = none → railOn s r = true → railPg s r = true →
    isSet s (Reg.seqRailPgUsed r) = true →
    exec (.psPgFall r) s = .next (commit s
      { putF s Reg.seqStatusPgState r false with seq.fell := tset s.seq.fell r s.timebase })) ∧
  (∀ (s : State) (r b : Nat), r < 24 → tget s.seq.dwell r = some b → monInside s r = true → s.seq.group = none →
    exec (.dwellEnd r) s = .next (commit s
      { reach s (b + dwellTime s r) with seq.dwell := tdel s.seq.dwell r, seq.good := s.seq.good ++ [r] })) ∧
  (∀ (s : State) (r b g : Nat), r < 24 → s.seq.enabledAt = some b → s.seq.group = some g → railOn s r = true →
    r ∉ s.seq.good →
    exec (.pgTimeout r) s = .next (commit s (railFault (reach s (b + pgTimeout s r)) r 1))) ∧
  (∀ (s : State) (r b : Nat), r < 24 → tget s.seq.fell r = some b →
    exec (.pgLoss r) s = .next (commit s
      (railFault (reach { s with seq.fell := tdel s.seq.fell r } (b + us (getF s Reg.seqCfgPgLossUs))) r 3))) ∧
  (∀ (s : State) (r c : Nat), r < 24 → 0 < c → c < 8 → getF s Reg.seqFaultFaultMap = 0 → seqState s = stOff →
    getF (railFault s r c) Reg.seqFaultRail = r ∧ getF (railFault s r c) Reg.seqFaultCause = c ∧
      bitF (railFault s r c) Reg.seqFaultFaultMap r = true) ∧
  (∀ (s : State) (c pin : Nat), wfMonitorReading c pin = true → isSet s (Reg.seqMonEn c) = true → monRails s c = [] →
    tget s.seq.monOut c = none →
    ∃ t, exec (.monitorReading c pin) s = .next t ∧
      getF t (monReadF c) = pin * getF s (Reg.seqMonScaleQ4 c) / 16 % 2 ^ (monReadF c).w ∧
      (getF s (Reg.seqMonLowMv c) ≤ pin * getF s (Reg.seqMonScaleQ4 c) / 16 →
        pin * getF s (Reg.seqMonScaleQ4 c) / 16 ≤ getF s (Reg.seqMonHighMv c) → thas t.seq.monOut c = false) ∧
      (pin * getF s (Reg.seqMonScaleQ4 c) / 16 < getF s (Reg.seqMonLowMv c) → tget t.seq.monOut c = some false) ∧
      t.log = s.log)

/-- R353, R354, R357: the grace time's end turns an orderly stop into a bivouac with cause 4; a rail's discharge ends
its wait, and the last of a group lets the next group go down; in a bivouac the pace is the step timer's; with the
energy gone every PS_EN is released at once. R362, R363: hold-up energy gone in service with a budget makes
reservations write-through and starts the destage of every dirty slab; its return ends write-through; the wait at
stage 9 leaves a record and opens nothing. -/
def Obligations.StoppingAndHoldUp : Prop :=
  (∀ (s : State) (g : Nat), s.seq.graceEnd = some g → seqState s = stStopping →
    exec .graceExpiry s = .next (commit s (startBivouac (reach s g) 4 3 .grace))) ∧
  (∀ (s : State) (r a d : Nat), r < 24 → a ≠ r → s.seq.down = some d → s.seq.pace = false → s.seq.discharging = [r, a] →
    discharged s r = true → exec (.dischargeEnd r false) s = .next (commit s { s with seq.discharging := [a] })) ∧
  (∀ (s : State) (r d : Nat), r < 24 → s.seq.down = some d → s.seq.pace = false → s.seq.discharging = [r] →
    discharged s r = true →
    exec (.dischargeEnd r false) s = .next (commit s (downGroup { s with seq.discharging := [] }))) ∧
  (∀ (s : State) (r d : Nat), r < 24 → s.seq.down = some d → s.seq.pace = false → s.seq.discharging = [r] →
    discharged s r = false →
    let u := logEv (putF (reach s (s.seq.downAt + dischTime s r)) Reg.seqFaultDischToMap r true) srcSeq .dischargeTimeout r [r]
    exec (.dischargeEnd r true) s = .next (commit s (downGroup { u with seq.discharging := [] }))) ∧
  (∀ (s : State) (d t : Nat), s.seq.down = some d → s.seq.delayEnd = some t → s.seq.pace = true →
    exec .bivStepTimer s = .next (commit s (downGroup (reach s t)))) ∧
  (∀ s : State, seqState s = stBivouac →
    exec .bivouacEnergyLost s = .next (commit s (releaseAll s (s.seq.why.getD .collapse))) ∧
      railOn (setF s Reg.seqStatusRailsOn 0) 0 = false) ∧
  (∀ s : State, seqState s = stBivouac → s.seq.bivStep < 5 →
    ∃ t, exec .bivouacStepDone s = .next t ∧ t.seq.bivStep = s.seq.bivStep + 1) ∧
  (∀ s : State, isSet s Reg.seqStatusHoldupOk = true → serviceOpen s = true → seqState s = stService → budgetGib s ≠ 0 →
    exec .holdupFall s = .next (commit s (destageAll (logEv (setB (setB (setB s Reg.seqStatusHoldupOk false)
      Reg.seqStatusHoldupLow true) Reg.seqStatusWriteThrough true) srcSeq .holdupLow noUnit [] true)))) ∧
  (∀ s : State, ∃ t, exec .holdupRestored s = .next t ∧ isSet t Reg.seqStatusHoldupOk = true ∧
    isSet t Reg.seqStatusWriteThrough = false ∧ t = commit s { s with regs := t.regs }) ∧
  (∀ s : State, getF s Reg.fabStartStatusStage = 9 → getF s Reg.fabStartStatusWait = 3 →
    ∃ t, exec .holdupWaitExpiry s = .next t ∧ getF t Reg.fabStartStatusStage = 9 ∧ getF t Reg.fabStartStatusWait = 3)

/-- Input collapse (R356, Table 12-2): in service and while stopping it begins the hardware bivouac, with header
cause 1; starting, in test, in recovery and in replay the rails go down at the bivouac's pace, with no bivouac; off,
in a bivouac and while powering down nothing else changes. -/
def Obligations.InputCollapse : Prop :=
  (∀ s : State, (seqState s = stService ∨ seqState s = stStopping) →
    exec .inputCollapse s = .next (commit s (startBivouac (setB s Reg.seqStatusVinGood false) 1 1 .collapse))) ∧
  (∀ s : State, (seqState s = stStarting ∨ seqState s = stTest ∨ seqState s = stRecovery ∨ seqState s = stReplay) →
    exec .inputCollapse s = .next (commit s (shutDown (setB s Reg.seqStatusVinGood false) .collapse true))) ∧
  (∀ s : State, (seqState s = stOff ∨ seqState s = stBivouac ∨ seqState s = stDown) →
    exec .inputCollapse s = .next (commit s (setB s Reg.seqStatusVinGood false))) ∧
  (∀ (s : State) (hdr ev : Nat) (why : StopWhy), (startBivouac s hdr ev why).seq.bivStep = 1 ∧
    (startBivouac s hdr ev why).seq.bivCause = hdr ∧ seqState (startBivouac s hdr ev why) = stBivouac ∧
    (startBivouac s hdr ev why).port.eventsOff = true) ∧
  (∀ (s : State) (g : Nat), s.seq.down = none → topGroup s = some g →
    (shutDown s .collapse true).seq.down = some g ∧ seqState (shutDown s .collapse true) = stDown ∧
    (shutDown s .collapse true).seq.delayEnd = some (s.timebase + us (10 * getF s Reg.seqCfgBivStep10us)) ∧
    (shutDown s .collapse true).seq.bivStep = s.seq.bivStep ∧ (shutDown s .collapse true).val = s.val)

/-- The push-button (R368): a press is timed from its recognition; a short press, on release, starts the orderly
shutdown in service, starts a part that is off where BTN_ON allows, and is ignored in any other state; a long press
begins a bivouac with header cause 3 in service and while stopping, and a reverse-order shutdown when starting, in
test and in recovery; after it the part stays off: its power-down starts nothing. -/
def Obligations.PressActions : Prop :=
  (∀ s : State, s.seq.btnDown = none →
    exec .buttonRecognised s = .next (commit s { s with seq.btnDown := some s.timebase })) ∧
  (∀ (s : State) (b : Nat), s.seq.btnDown = some b → seqState s = stService →
    exec .shortPress s = .next (commit s (orderlyStop { s with seq.btnDown := none } 4))) ∧
  (∀ (s : State) (b : Nat), s.seq.btnDown = some b → seqState s = stOff → isSet s Reg.seqCfgBtnOn = true →
    exec .shortPress s = .next (commit s (askStart { s with seq.btnDown := none }))) ∧
  (∀ (s : State) (b : Nat), s.seq.btnDown = some b → seqState s ≠ stService →
    (seqState s = stOff → isSet s Reg.seqCfgBtnOn = false) →
    exec .shortPress s = .next (commit s { s with seq.btnDown := none })) ∧
  (∀ (s : State) (b : Nat), s.seq.btnDown = some b → (seqState s = stService ∨ seqState s = stStopping) →
    ∃ t, exec .longPress s = .next t ∧ seqState t = stBivouac ∧ t.seq.bivCause = 3 ∧ t.seq.bivStep = 1 ∧
      t.seq.stayOff = true) ∧
  (∀ (s : State) (b : Nat), s.seq.btnDown = some b →
    (seqState s = stStarting ∨ seqState s = stTest ∨ seqState s = stRecovery ∨ seqState s = stReplay) →
    let u := pitchEv { reach { s with seq.btnDown := none } (b + sec (getF s Reg.seqCfgBtnLongS)) with
      seq.stayOff := true, seq.restartAt := none, seq.startPending := false } srcSeq .longPress
    exec .longPress s = .next (commit s (shutDown u .longPress false))) ∧
  (∀ (s : State) (b : Nat), s.seq.btnDown = some b → seqState s = stOff →
    ∃ t, exec .longPress s = .next t ∧ t.seq.stayOff = true ∧ t.seq.startPending = false ∧ t.seq.restartAt = none ∧
      t.regs = s.regs) ∧
  (∀ s : State, s.seq.stayOff = true → s.seq.startPending = false → s.seq.restartAt = none →
    seqState (powerDownEnd s) = stOff ∧ (powerDownEnd s).seq.startPending = false ∧ (powerDownEnd s).seq.restartAt = none)

/-- The manual reset (R369): past stage 4 it is the device reset, with camp in self-refresh, the rails as they are,
no bivouac, and the start held while the input is low; it is ignored while a bivouac or a shutdown runs; its release
lets the start go on. -/
def Obligations.ManualReset : Prop :=
  (∀ s : State, (seqState s = stService ∨ seqState s = stStarting ∨ seqState s = stRecovery ∨ seqState s = stReplay ∨
      seqState s = stTest) → 4 ≤ getF s Reg.fabStartStatusStage →
    ∃ t, exec .manualReset s = .next t ∧ t.start.inReset = true ∧ t.start.cause = 3 ∧
      getF t Reg.fabStartStatusStage = 4 ∧ seqState t = stRecovery ∧
      getF t Reg.seqStatusRailsOn = getF s Reg.seqStatusRailsOn ∧ t.seq.bivStep = s.seq.bivStep ∧
      (∀ x ∈ t.camp.ch, x.2.selfRef = true → s.camp.liveMap.contains x.1 = true) ∧ grantLevel t = 0 ∧ t.cmd.fencedIds = []) ∧
  (∀ s : State, (seqState s = stBivouac ∨ seqState s = stStopping ∨ seqState s = stDown) →
    exec .manualReset s = .next (commit s s)) ∧
  (∀ (s : State) (i : StageInfo), s.start.inReset = true → 4 ≤ stage s →
    exec (.startStageDone i) s = .next (commit s s)) ∧
  (∀ s : State, exec .manualResetRelease s = .next (commit s { s with start.inReset := false }))

/-- R343, R344, R348: loss of the always-on supply leaves no rail enabled and no register but power-good and hold-up
as they read; with PD0 up the fuses are in the rail table; a good input starts the first group of a start that waits
past stage 1; with VDD_AON low a Lead fences and sends the departure word three times, and none again in the instant in which a departure
has been sent (Table 19-10; the model's reading, log entry 141). The restart that is due asks for a start (R370). -/
def Obligations.AlwaysOnAndRestart : Prop :=
  (∀ s : State, ∃ t, exec .alwaysOnSupplyFail s = .next t ∧ getF t Reg.seqStatusRailsOn = 0 ∧
    (∀ k, tcnt s.fuse k ≤ tcnt t.fuse k) ∧ t.timebase = 0 ∧ t.pending = s.pending) ∧
  (∀ s : State, ∃ t, exec .pd0PowerUp s = .next t ∧ t.timebase = 0 ∧ seqState t = stOff ∧
    (t.seq.startPending = bit (tcnt s.fuse 64) 0)) ∧
  (∀ s : State, s.seq.startPending = true → getF s Reg.fabStartStatusStage ≠ 1 →
    exec .vinGood s = .next (commit s (startRails (setB s Reg.seqStatusVinGood true)))) ∧
  (∀ s : State, role s = roleLead → s.rope.departAt ≠ some s.timebase →
    ∃ t, exec .vddAonLow s = .next t ∧ role t = roleFenced ∧ t.rope.fenced = true ∧
    t.pins.belayOut = s.pins.belayOut ++ List.replicate 3 (belayWord belayDepart s.pins.twinId s.rope.renewSeq)) ∧
  (∀ s : State, s.rope.departAt = some s.timebase → exec .vddAonLow s = .next (commit s (fenceLead s))) ∧
  (∀ (s : State) (b : Nat), s.seq.restartAt = some b →
    exec .restartDue s = .next (commit s (askStart (reach s b))))

/-! ## Thermal (13), start-up (17), ladder rows (16) -/

/-- R374, R375: a zone reads the second highest of its three sensors, so one sensor that reads wrong cannot move it
past the others; a scan in which all 48 sensors read the same cool value shows that value in every zone and as the
hottest, and acts on nothing. R378, R379, R382: the grace time's end enforces the slowdown while a zone is not yet
below the clear level; a step of the ceiling goes two codes down while enforced and hot; 30 s below the restart level
set COOL and release THM_TRIP_N. -/
def Obligations.Thermal : Prop :=
  (∀ a b c : Int, min a b ≤ second a b c ∧ second a b c ≤ max a b) ∧
  (∀ a b c : Int, second a b c = second b c a ∧ second a b c = second b a c) ∧
  (∀ (s : State) (v : Int), -400 ≤ v → v ≤ 1500 → getF s Reg.thmBrokenMap = 0 → v < warnClear s → v < slowClear s →
    v < restartLevel s → v < tripAt s → v < critAt s → s.thm.odd = [] → getF s Reg.thmStatusSuspect = 0 →
    isSet s Reg.thmStatusWarn = false → isSet s Reg.thmStatusRequested = false → isSet s Reg.thmStatusEnforced = false →
    ∃ t, exec (.thermalScan (List.replicate 48 (some v))) s = .next t ∧
      (∀ z, z < 16 → getF t (zoneReadF z) = ofSigned16 v) ∧ getF t Reg.thmStatusHotTemp = ofSigned16 v ∧
      isSet t Reg.thmStatusWarn = false ∧ t.thm.shut = s.thm.shut ∧ t.log = s.log ∧ seqState t = seqState s) ∧
  (∀ (s : State) (g : Nat), s.thm.graceEnd = some g → anyZone s (slowClear s) = true →
    exec .graceEnd s = .next (commit s (enforce (reach s g)))) ∧
  (∀ (s : State) (b : Nat), s.thm.stepAt = some b → ceilingWay s = some false →
    ∃ t, exec .ceilingStep s = .next t ∧ getF t Reg.fabVcoreCeil = getF s Reg.fabVcoreCeil - 2 ∧
      (isSet s Reg.fabVcoreAvsFault = false →
        getF t Reg.fabVcoreTarget = min (getF s Reg.fabVcoreReq) (getF s Reg.fabVcoreCeil - 2)) ∧
      t.conns = s.conns) ∧
  (∀ (s : State) (l : List (Option Int)), wfThermalScan l = true →
    exec (.thermalScan l) s = .next (commit s (critCheck (tripCheck (coolWatch (ceilingTimer (slowCheck (warnCheck
      (suspects (showZones (takeScan s l)))))))))) ) ∧
  (∀ (s : State) (b : Nat), s.thm.stepAt = some b → ceilingWay s = some true →
    ∃ t, exec .ceilingStep s = .next t ∧ getF t Reg.fabVcoreCeil = min 46 (getF s Reg.fabVcoreCeil + 2)) ∧
  (∀ (s : State) (b : Nat), s.thm.coolSince = some b → s.thm.shut = false →
    exec .cool s = .next (commit s (setB (reach s (b + sec 30)) Reg.thmStatusCool true))) ∧
  (∀ (s : State) (b : Nat), s.thm.coolSince = some b → s.thm.shut = true → isSet s Reg.thmCfgAutoRestart = false →
    ∃ t, exec .cool s = .next t ∧ isSet t Reg.thmStatusCool = true ∧ t.pins.tripN = true ∧ t.thm.shut = false ∧
      t.seq = s.seq)

/-- R451, R452, R457, R460: the end of a stage moves the start on: 1 to 2, 2 to 3 with every rail good, 3 to 4 with
both clocks, 6 to 7 with every live channel in service, 10 to 11 once the team is decided, and stage 11 opens
service; a result of the stage in progress does that stage's work; at stage 3 without SD_REFCLK the start waits, with a record after 100 ms. -/
def Obligations.StartStages : Prop :=
  (∀ s : State, stage s = 1 → s.seq.startPending = false →
    ∃ t, exec (.startStageDone .s1) s = .next t ∧ stage t = 2) ∧
  (∀ s : State, stage s = 2 → seqState s = stStarting → railsUp s = true →
    ∃ t, exec (.startStageDone .s2) s = .next t ∧ stage t = 3) ∧
  (∀ s : State, stage s = 3 → seqState s = stStarting → s.start.inReset = false →
    ∃ t, exec (.startStageDone (.s3 true true)) s = .next t ∧ stage t = 4 ∧ t.fab.refOk = true ∧ t.fab.sdOk = true) ∧
  (∀ s : State, stage s = 3 → seqState s = stStarting → s.fab.refOk = true →
    ∃ t, exec (.startStageDone (.s3 true false)) s = .next t ∧ stage t = 3 ∧ getF t Reg.fabStartStatusWait = 1) ∧
  (∀ s : State, stage s = 6 → seqState s = stStarting → s.start.inReset = false → s.start.halted = false →
    (∀ c ∈ s.camp.liveMap, chState s c = 2) →
    ∃ t, exec (.startStageDone .s6) s = .next t ∧ stage t = 7) ∧
  (∀ s : State, stage s = 10 → seqState s = stStarting → s.start.inReset = false → s.start.halted = false →
    team s = teamRoped → role s = roleLead →
    ∃ t, exec (.startStageDone .s10) s = .next t ∧ stage t = 11) ∧
  (∀ (s : State) (i : StageInfo), 4 ≤ infoStage i → stage s = infoStage i → s.start.inReset = false → s.start.halted = false →
    (seqState s = stStarting ∨ seqState s = stRecovery ∨ seqState s = stReplay) →
    (∀ a b, i = .s4 a b → exec (.startStageDone i) s = .next (commit s (stage4 s fun n => if n = 0 then a else b))) ∧
    (i = .s5 → exec (.startStageDone i) s = .next (commit s (stage5 s))) ∧
    (∀ a b c, i = .s7 a b c → exec (.startStageDone i) s = .next (commit s (stage7 s a b c))) ∧
    (i = .s8 → exec (.startStageDone i) s = .next (commit s (stage8 s))) ∧
    (i = .s9 → exec (.startStageDone i) s = .next (commit s (stage9 s))) ∧
    (i = .s11 → exec (.startStageDone i) s = .next (commit s (stage11 s)))) ∧
  (∀ (s : State) (b : Nat), s.fab.sdSince = some b → stage s = 3 → getF s Reg.fabStartStatusWait = 1 →
    exec .sdRefclkWaitTimeout s = .next (commit s
      (logEv (reach { s with fab.sdSince := none } (b + ms 100)) srcFab .sdWait noUnit [])))

/-- R437, R444, Table 16-2, Table 16-3: a guide that hangs is recorded and takes rung 2; rung 3 that has not opened
service in its bound becomes a power cycle where AUTO_CYCLE allows and otherwise waits as due; a serial clock that is
lost is recorded as such, a Lead with a Second fences and departs, and its return trains what is down again, but before
stage 5 starts no rung. -/
def Obligations.LadderRows : Prop :=
  (∀ (s : State) (g : Nat), g < 32 → 5 ≤ stage s → domOn s (10 + g) = true →
    exec (.guideHang g) s = .next (commit s (rung2 (logEv s srcFab .guideHang g [g]) (fnKey 3 g) false))) ∧
  (∀ (s : State) (i : Nat), s.ladder.wait = 0 → serviceOpen s = false → s.ladder.run = 3 →
    isSet s Reg.fabLadderCfgAutoCycle = false →
    exec (.ladderBoundExpiry ⟨0, i⟩) s = .next (commit s { s with ladder.run := 0, ladder.due := 4 })) ∧
  (∀ (s : State) (c i : Nat), c ≠ 0 →
    exec (.ladderBoundExpiry ⟨c, i⟩) s = .next (commit s (rung2Again s (fnKey c i)))) ∧
  (∀ s : State, s.fab.sdOk = true → hasSecond s = false →
    let u := logEv (setB { s with fab.sdOk := false } Reg.fabTbStatusSdclkLoss true) srcFab .sdClkLoss noUnit []
    exec .sdRefclkLoss s = .next (commit s (instDown (instDown
      (((allSubs u).filter fun k => subRuns u k || subState u k == subQuiesced).foldl subGoesDown u) 0) 1))) ∧
  (∀ (s : State) (i : Nat), s.ladder.wait = 0 → serviceOpen s = false → s.ladder.run = 4 →
    exec (.ladderBoundExpiry ⟨0, i⟩) s = .next (commit s (stayDown s))) ∧
  (∀ (s : State) (i : Nat), s.ladder.wait ≠ 0 →
    exec (.ladderBoundExpiry ⟨0, i⟩) s = .next (commit s (runRung s s.ladder.wait s.ladder.waitFn s.ladder.waitCause))) ∧
  (∀ s : State, s.fab.sdOk = true → hasSecond s = true →
    let v := logEv (setB { s with fab.sdOk := false } Reg.fabTbStatusSdclkLoss true) srcFab .sdClkLoss noUnit []
    let u := departFenced v
    hasSecond v = true ∧ exec .sdRefclkLoss s = .next (commit s (instDown (instDown
      (((allSubs u).filter fun k => subRuns u k || subState u k == subQuiesced).foldl subGoesDown u) 0) 1))) ∧
  (∀ s : State, s.fab.sdOk = false → 5 ≤ stage s →
    let u := { s with fab.sdOk := true }
    let v := ((allSubs u).filter fun k => subState u k == subDown).foldl (fun s k => rung2 s (fnKey 1 k) false) u
    exec .sdRefclkRestored s = .next (commit s
      (([0, 1].filter fun i => ! (ropeInst v i).up).foldl (fun s i => rung2 s (fnKey 7 i) false) v))) ∧
  (∀ s : State, s.fab.sdOk = false → stage s < 5 →
    exec .sdRefclkRestored s = .next (commit s { s with fab.sdOk := true }))

/-! ## Sideband and control window (15, 18) -/

/-- R393, R501: once PD124 is powered the target takes one dynamic address and answers; ENEC and DISEC switch in-band
interrupts; a private read returns the oldest reply and, when that is the final one, makes room for the next command;
what the GET codes return is read out. Nothing but the I3C target changes. R391, R393: a private write to an idle
target hands its packet to the command front end and the target is busy; a second one is answered BUSY and enters no
front end. -/
def Obligations.I3cTarget : Prop :=
  (∀ (s : State) (a : Nat), wfEntdaa a = true → domOn s 124 = true → s.i3c.addr = none →
    exec (.entdaa a) s = .next (commit s { s with i3c.addr := some a })) ∧
  (∀ (s : State) (a : Nat), wfSetdasa 0x2A a = true → domOn s 124 = true → s.i3c.addr = none →
    exec (.setdasa 0x2A a) s = .next (commit s { s with i3c.addr := some a })) ∧
  (∀ s : State, domOn s 124 = true → exec .rstdaa s = .next (commit s { s with i3c.addr := none })) ∧
  (∀ s : State, domOn s 124 = true → exec .enec s =
    .next (commit s { s with i3c.ibi := true, i3c.ibiPending := ! s.i3c.replies.isEmpty })) ∧
  (∀ s : State, domOn s 124 = true → exec .disec s =
    .next (commit s { s with i3c.ibi := false, i3c.ibiPending := false })) ∧
  (∀ (s : State) (last : Bool) (r : Reply) (rest : List (Bool × Reply)), domOn s 124 = true → s.i3c.addr.isSome = true →
    s.i3c.replies = (last, r) :: rest →
    exec .i3cPrivateRead s = .next (commit s { s with
      i3c.out := replyBytes r, i3c.replies := rest, i3c.busy := s.i3c.busy && ! last,
      i3c.ibiPending := s.i3c.ibi && ! rest.isEmpty })) ∧
  (∀ s : State, domOn s 124 = true → s.i3c.addr.isSome = true →
    exec .getpid s = .next (commit s { s with i3c.out := Config.i3cPid }) ∧
    exec .getbcr s = .next (commit s { s with i3c.out := [Config.i3cBcr] }) ∧
    exec .getdcr s = .next (commit s { s with i3c.out := [Config.i3cDcr] }) ∧
    exec .getstatus s = .next (commit s { s with i3c.out := Config.i3cStatus s.i3c.ibiPending }) ∧
    exec .getmwl s = .next (commit s { s with i3c.out := [16#8, 64#8] }) ∧
    exec .getmrl s = .next (commit s { s with i3c.out := [16#8, 64#8] })) ∧
  (∀ s : State, domOn s 124 = false → exec .rstdaa s = .next (commit s s) ∧ exec .getpid s = .next (commit s s)) ∧
  (∀ (s : State) (d : Bytes), domOn s 124 = true → s.i3c.addr.isSome = true → s.i3c.busy = false →
    exec (.i3cPrivateWrite d) s = .next (commit s (frontEnd { s with i3c.busy := true } .i3c d none))) ∧
  (∀ (s : State) (d : Bytes), domOn s 124 = true → s.i3c.addr.isSome = true → s.i3c.busy = true →
    ∃ t, exec (.i3cPrivateWrite d) s = .next t ∧ t.cmd = s.cmd ∧
      t.i3c.replies.map (·.2.status) = s.i3c.replies.map (·.2.status) ++ [scBusy])

/-- R344, R412, R417, R503: boundary scan and factory authority take the part to state test; the rail table is
written only with factory authority before it locks; the hour counter counts; a time mark that falls due after other
records is appended with the current values. -/
def Obligations.TestPortAndMarks : Prop :=
  (∀ s : State, seqState s = stService → ∃ t, exec (.jtagAccess (.boundaryScan false)) s = .next t ∧
    seqState t = stTest ∧ t.pins.boundary = true) ∧
  (∀ (s : State) (off : Nat) (d : Bytes), s.pins.factory = false →
    exec (.jtagAccess (.railTable off d)) s = .next (commit s s)) ∧
  (∀ (s : State) (off : Nat) (d : Bytes), s.seq.locked = true →
    exec (.jtagAccess (.railTable off d)) s = .next (commit s s)) ∧
  (∀ (s : State) (n v : Nat), n < 24 → s.pins.factory = true → s.seq.locked = false →
    ∃ t, exec (.jtagAccess (.railTable (0x50100 + 8 * n) (leBytes 8 v))) s = .next t ∧
      railOrder t n = bits v 0 (Reg.seqRailOrder n).w) ∧
  (∀ s : State, exec .operatingHourTick s = .next (commit s { s with log.hours := (s.log.hours + 1) % 2 ^ 36 })) ∧
  (∀ s : State, s.log.loaded = true → isSet s Reg.logStatusFull = false → s.log.sinceMark = true →
    s.log.recs.length < 65535 → (∀ r, s.log.recs.getLast? = some r → r.ev ≠ .timeMark) →
    ∃ t r, exec .timeMarkTimer s = .next t ∧ t.log.recs = s.log.recs ++ [r] ∧ r.ev = .timeMark ∧
      r.seq = s.log.next ∧ r.detail = markDetail s ∧ t.log.sinceMark = false)

/-- R476, R477: a doorbell for a free slot hands the packet of its command area to the front end, one for a slot in
use is ignored and counted; a release frees a slot whose reply stands and is otherwise counted; ones written to the
interrupt status clear its bits. R466, R467, R477, R502: enabling MSI-X over an up link with nothing standing sends
nothing; a hot reset over an up link puts the endpoint's table and the grant at reset and leaves the mailbox;
MP_PERST_N going low takes the link down, and it trains again as the pin rises with PD124 powered. -/
def Obligations.MailboxAndEndpoint : Prop :=
  (∀ (s : State) (n : Nat), n < 8 → s.mgmt.linkUp = true → getF s (slotFld n) = 0 →
    exec (.mbxDoorbell (BitVec.ofNat 8 (2 ^ n))) s = .next (commit s
      (frontEnd (setF s (slotFld n) 1) (.mbx n) (slotPacket (mbxSlot s n)) none))) ∧
  (∀ (s : State) (n : Nat), n < 8 → s.mgmt.linkUp = true → getF s (slotFld n) ≠ 0 →
    exec (.mbxDoorbell (BitVec.ofNat 8 (2 ^ n))) s = .next (commit s (bumpF s Reg.mbxStateBellIgnored))) ∧
  (∀ (s : State) (n : Nat), n < 8 → s.mgmt.linkUp = true → getF s (slotFld n) = 3 →
    exec (.mbxRelease (BitVec.ofNat 8 (2 ^ n))) s = .next (commit s (setF s (slotFld n) 0))) ∧
  (∀ (s : State) (n : Nat), n < 8 → s.mgmt.linkUp = true → getF s (slotFld n) ≠ 3 →
    exec (.mbxRelease (BitVec.ofNat 8 (2 ^ n))) s = .next (commit s (bumpF s Reg.mbxStateBellIgnored))) ∧
  (∀ (s : State) (b : BitVec 8), s.mgmt.linkUp = true →
    ∃ t, exec (.mbxIntStatusWrite b) s = .next t ∧
      getF t Reg.mbxIntStatusSlot = getF s Reg.mbxIntStatusSlot - Nat.land (getF s Reg.mbxIntStatusSlot) b.toNat) ∧
  (∀ s : State, s.mgmt.linkUp = true → s.mgmt.busMaster = false → getF s Reg.mbxIntStatusSlot = 0 →
    (∀ q, q < 16 → (nqOf s q).ents = []) →
    exec .msixEnable s = .next (commit s { s with mgmt.busMaster := true, mgmt.msixEn := true })) ∧
  (∀ s : State, s.mgmt.linkUp = true → ∃ t, exec .pcieLinkReset s = .next t ∧ t.mgmt.msix = [] ∧ t.mgmt.msixEn = false ∧
    t.mgmt.pba = 0 ∧ grantLevel t = 0 ∧ t.mgmt.slots = s.mgmt.slots) ∧
  (∀ s : State, s.pins.perstN = true → ∃ t, exec (.mpPerstN false) s = .next t ∧ t.mgmt.linkUp = false ∧
    t.pins.perstN = false) ∧
  (∀ s : State, s.pins.perstN = false → domOn s 124 = true → s.start.inReset = false →
    ∃ t, exec (.mpPerstN true) s = .next t ∧ t.mgmt.linkUp = true ∧ t.pins.perstN = true ∧ t.mgmt.msixEn = false ∧
      grantLevel t = 0)

/-- The checks of a grant request (R474), in their order: level, duration and reserved bytes (2), the level's key
(3), the HMAC (4), freshness (5); the first that fails decides, and leaves the grant as it was; a request that passes
them all replaces any grant in force, for its seconds, and its freshness value is recorded in the record that
commands share; a grant ends at its time, at DROP, at a link-down or hot reset, and at a device reset. -/
def Obligations.WriteGrant : Prop :=
  (∀ (s : State) (b : Bytes), s.mgmt.linkUp = true → b = bfit s.mgmt.grantReq 64 →
    (le b 0 1 = 0 ∨ 3 < le b 0 1 ∨ le b 2 2 = 0 ∨ 3600 < le b 2 2 ∨ notZero b 1 2 ++ notZero b 4 8 ++ notZero b 48 64 ≠ []) →
    exec .mbxGrantGo s = .next (commit s (setF s Reg.mbxGrantStatusResult 2))) ∧
  (∀ (s : State) (b : Bytes), s.mgmt.linkUp = true → b = bfit s.mgmt.grantReq 64 →
    1 ≤ le b 0 1 → le b 0 1 ≤ 3 → 1 ≤ le b 2 2 → le b 2 2 ≤ 3600 →
    notZero b 1 2 ++ notZero b 4 8 ++ notZero b 48 64 = [] → keyFor s true 0 (le b 0 1) = none →
    exec .mbxGrantGo s = .next (commit s (setF s Reg.mbxGrantStatusResult 3))) ∧
  (∀ (s : State) (k b : Bytes), s.mgmt.linkUp = true → b = bfit s.mgmt.grantReq 64 →
    1 ≤ le b 0 1 → le b 0 1 ≤ 3 → 1 ≤ le b 2 2 → le b 2 2 ≤ 3600 →
    notZero b 1 2 ++ notZero b 4 8 ++ notZero b 48 64 = [] → keyFor s true 0 (le b 0 1) = some k →
    hmac k (b.take 16) ≠ bsub b 16 32 →
    exec .mbxGrantGo s = .next (commit s (setF s Reg.mbxGrantStatusResult 4))) ∧
  (∀ (s : State) (k b : Bytes), s.mgmt.linkUp = true → b = bfit s.mgmt.grantReq 64 →
    1 ≤ le b 0 1 → le b 0 1 ≤ 3 → 1 ≤ le b 2 2 → le b 2 2 ≤ 3600 →
    notZero b 1 2 ++ notZero b 4 8 ++ notZero b 48 64 = [] → keyFor s true 0 (le b 0 1) = some k →
    hmac k (b.take 16) = bsub b 16 32 → freshTake s (freshKey true 0 (le b 0 1)) (le b 8 8) = none →
    exec .mbxGrantGo s = .next (commit s (setF s Reg.mbxGrantStatusResult 5))) ∧
  (∀ (s s' : State) (k b : Bytes), s.mgmt.linkUp = true → b = bfit s.mgmt.grantReq 64 →
    1 ≤ le b 0 1 → le b 0 1 ≤ 3 → 1 ≤ le b 2 2 → le b 2 2 ≤ 3600 →
    notZero b 1 2 ++ notZero b 4 8 ++ notZero b 48 64 = [] → keyFor s true 0 (le b 0 1) = some k →
    hmac k (b.take 16) = bsub b 16 32 → freshTake s (freshKey true 0 (le b 0 1)) (le b 8 8) = some s' →
    ∃ t, exec .mbxGrantGo s = .next t ∧ getF t Reg.mbxGrantStatusLevel = le b 0 1 ∧
      getF t Reg.mbxGrantStatusResult = 1 ∧ t.mgmt.grantEnd = s.timebase + sec (le b 2 2) ∧ grantLevel t = le b 0 1 ∧
      t.cmd = s'.cmd ∧ t.log = s.log) ∧
  (∀ s : State, getF s Reg.mbxGrantStatusLevel ≠ 0 → ∃ t, exec .grantExpiry s = .next t ∧ grantLevel t = 0 ∧
    getF t Reg.mbxGrantStatusLevel = 0 ∧ s.mgmt.grantEnd ≤ t.timebase) ∧
  (∀ s : State, s.mgmt.linkUp = true → ∃ t, exec .mbxGrantDrop s = .next t ∧ grantLevel t = 0 ∧
    getF t Reg.mbxGrantStatusLevel = 0) ∧
  (∀ s : State, s.mgmt.linkUp = true → ∃ t u, exec .pcieLinkReset s = .next t ∧ grantLevel t = 0 ∧
    exec (.mpPerstN (! s.pins.perstN)) s = .next u ∧ grantLevel u = 0) ∧
  (∀ (s : State) (cause : Nat), grantLevel (deviceReset s cause) = 0)

/-- R468 to R471, R473, R475: a read of a register returns its bytes and clears its RC fields alone; a write reaches
the register under the grant in force; a context register changes for a context from 16 on under a grant, at a part
that is no Second. R473: through the window a read-only field keeps its value whatever is written; a read-write field
that is not locked takes an in-range value under a grant of its level, and keeps its value under a lower one, which
is counted as denied. -/
def Obligations.WindowAndAuthority : Prop :=
  (∀ s : State, s.mgmt.linkUp = true →
    exec (.rcRead 0x60008 8) s = .next (commit s { s with mgmt.readOut := leBytes 8 (readReg s 0x60008) })) ∧
  (∀ (s : State) (q : Nat), q < 16 → s.mgmt.linkUp = true → ∃ t, exec (.rcRead (0x40088 + 4096 * q) 8) s = .next t ∧
    t.mgmt.readOut = leBytes 8 (readReg s (0x40088 + 4096 * q)) ∧ getF t (Reg.nqStatusLost q) = 0 ∧
    getF t (Reg.nqStatusCount q) = getF s (Reg.nqStatusCount q)) ∧
  (∀ (s : State) (off : Nat) (d : Bytes), wfRegisterWrite off = true → s.mgmt.linkUp = true → regAccess off d.length = true →
    0x90000 ≤ off → exec (.registerWrite off d) s = .next (commit s (windowReg s off d))) ∧
  (∀ (s : State) (d : Bytes), d.length = 8 → s.mgmt.linkUp = true → 16 ≤ getF s Reg.cvuCtxSelCtx → isSecond s = false →
    1 ≤ grantLevel s → role s = roleSingle → s.key.ctxWait = [] → (ctxOf s (getF s Reg.cvuCtxSelCtx)).busy = false →
    ∃ t, exec (.cvuCtxWrite 0x80018 d) s = .next t ∧ (ctxOf t (getF s Reg.cvuCtxSelCtx)).init = leNat d) ∧
  (∀ (lvl mask data : Nat) (r : Written) (f : Reg.Fld), f.acc = .ro ∨ f.acc = .rc ∨ f.acc = .wo →
    putField lvl mask data r f = r) ∧
  (∀ (lvl mask data : Nat) (s : State) (f : Reg.Fld), f.acc = .rw → f.off ≠ 0x90000 → f.off ≠ 0xA0018 → f.level ≤ lvl →
    fieldOk s f (newVal s f mask data) = true → newVal s f mask data < 2 ^ f.w → readF s f = getF s f →
    getF (putField lvl mask data { s := s } f).s f = newVal s f mask data) ∧
  (∀ (lvl mask data : Nat) (s : State) (f : Reg.Fld), f.acc = .rw → f.off ≠ 0xA0018 → lvl < f.level →
    (putField lvl mask data { s := s } f).s = s ∧
      ((putField lvl mask data { s := s } f).denied = true ↔ newVal s f mask data ≠ readF s f)) ∧
  (∀ (lvl mask data : Nat) (s : State) (f : Reg.Fld), f.acc = .rwl → fldLocked s f = true →
    (putField lvl mask data { s := s } f).s = s)

/-- The queue windows (R425): an aligned 64-byte read of POP returns the oldest entry and removes it; of PEEK,
returns it and removes nothing; an empty queue returns zeros; a read of another size or alignment returns zeros,
removes nothing and is counted in BAD_READ. -/
def Obligations.QueueWindows : Prop :=
  (∀ (s : State) (q : Nat) (e : NqEntry) (rest : List NqEntry), q < 16 → s.mgmt.linkUp = true →
    (nqOf s q).rdA = (nqOf s q).rdB → (nqOf s q).wrA = (nqOf s q).wrB → (nqOf s q).ents = e :: rest →
    ∃ t, exec (.nqPop q true) s = .next t ∧ t.mgmt.readOut = nqBytes e ∧ (nqOf t q).ents = rest ∧
      (∀ r, r ≠ q → nqOf t r = nqOf s r) ∧ t.log = s.log ∧ t.regs = s.regs) ∧
  (∀ (s : State) (q : Nat) (e : NqEntry) (rest : List NqEntry), q < 16 → s.mgmt.linkUp = true →
    (nqOf s q).rdA = (nqOf s q).rdB → (nqOf s q).wrA = (nqOf s q).wrB → (nqOf s q).ents = e :: rest →
    exec (.nqPeek q true) s = .next (commit s { s with mgmt.readOut := nqBytes e })) ∧
  (∀ (s : State) (q : Nat), q < 16 → s.mgmt.linkUp = true →
    (nqOf s q).rdA = (nqOf s q).rdB → (nqOf s q).wrA = (nqOf s q).wrB → (nqOf s q).ents = [] →
    exec (.nqPop q true) s = .next (commit s { s with mgmt.readOut := zeros 64 }) ∧
    exec (.nqPeek q true) s = .next (commit s { s with mgmt.readOut := zeros 64 })) ∧
  (∀ (s : State) (q : Nat), q < 16 → s.mgmt.linkUp = true →
    exec (.nqPop q false) s = .next (commit s { bumpF s (Reg.nqStatusBadRead q) with mgmt.readOut := zeros 64 }) ∧
    exec (.nqPeek q false) s = .next (commit s { bumpF s (Reg.nqStatusBadRead q) with mgmt.readOut := zeros 64 })) ∧
  (∀ e : NqEntry, (nqBytes e).length = 64 ∧ bit (le (nqBytes e) 0 8) 63 = true)

/-- The pointer copies of a queue (R427): every use compares them, and where those of either pointer differ the queue
is reset: it is emptied, LOST rises by the messages that were in it, RESETS by 1, QUEUE_RESET is appended, and the
read returns the empty result; a pop and a posting leave the copies equal. -/
def Obligations.QueuePointers : Prop :=
  (∀ (s : State) (q : Nat) (b : Bool), q < 16 → s.mgmt.linkUp = true → s.log.loaded = true →
    isSet s Reg.logStatusFull = false → s.log.recs.length < 65535 →
    (∀ r, s.log.recs.getLast? = some r → r.ev ≠ .queueReset) →
    ((nqOf s q).rdA ≠ (nqOf s q).rdB ∨ (nqOf s q).wrA ≠ (nqOf s q).wrB) →
    ∃ t, exec (if b then .nqPop q true else .nqPeek q true) s = .next t ∧ t.mgmt.readOut = zeros 64 ∧
      (nqOf t q).ents = [] ∧ (nqOf t q).rdA = (nqOf t q).rdB ∧ (nqOf t q).wrA = (nqOf t q).wrB ∧
      getF t (Reg.nqStatusLost q) =
        min (getF s (Reg.nqStatusLost q) + (nqOf s q).messages) (2 ^ (Reg.nqStatusLost q).w - 1) ∧
      getF t (Reg.nqStatusResets q) =
        min (getF s (Reg.nqStatusResets q) + 1) (2 ^ (Reg.nqStatusResets q).w - 1) ∧
      ∃ r, t.log.recs = s.log.recs ++ [r] ∧ r.ev = .queueReset ∧ r.detail = [q, (nqOf s q).messages] ∧ r.seq = s.log.next) ∧
  (∀ (s : State) (q : Nat), q < 16 → s.mgmt.linkUp = true → ∃ t, exec (.nqPop q true) s = .next t ∧
    (nqOf t q).rdA = (nqOf t q).rdB ∧ (nqOf t q).wrA = (nqOf t q).wrB) ∧
  (∀ (s : State) (q : Nat) (l : List NqBody), (nqOf (nqPost s q l) q).rdA = (nqOf (nqPost s q l) q).rdB ∧
    (nqOf (nqPost s q l) q).wrA = (nqOf (nqPost s q l) q).wrB)

/-! ## Transport and ports (3, 4) -/

/-- R54, R61, Table 3-5: the packet of a request, a SEND or an MGMT message that ingress takes, on the open route of
its connection, at the expected PSN, well formed and unsealed, of a message not seen before within the span, is
consumed, opened, placed and advanced, and the ACK follows; this holds for READ-REQ, WRITE-REQ, WRITEP-REQ, FLUSH,
the three atomics and SEND with and without a trigger alike, and an MGMT packet then hands a whole command over. R39: a packet
whose cipher or check-value domain wakes is held back until then. -/
def Obligations.RequestsAccepted : Prop :=
  ∀ (c : Instr) (s : State) (p : Pkt) (k : Conn) (q : PathSt),
    (c = .readReq p ∨ c = .writeReq p ∨ c = .writepReq p ∨ c = .flush p ∨ c = .cas64 p ∨ c = .fadd64 p ∨ c = .cas128 p ∨
      c = .send p ∨ c = .triggeredSend p ∨ c = .mgmt p) →
    wellFormed c = true → OnRoute s p k q → p.psn = q.rxE → earlyOk s k p = true → WellPacked k p → p.seald = false →
    msnBefore k.nextDone p.msn = false → msnInSpan k.nextDone p.msn = true → tget k.msgs p.msn = none →
    isSecond s = false → mustWait s p = false →
    let u := ackAfter (advanceMsg (placeChunk (openMsg (consume s (connIdx p.conn) (p.path % 4))
      (connIdx p.conn) p) (connIdx p.conn) k.unit p) (connIdx p.conn) (p.path % 4) p) (connIdx p.conn) (p.path % 4) p.ackReq
    (c ≠ .mgmt p → exec c s = .next (commit s u)) ∧
    (c = .mgmt p → exec c s = .next (commit s
      (mgmtTake u p.conn p.msn (if brakeEntry s p then some p.sub else none)))) ∧
    (∀ w, mustWait w p = true → OnRoute w p k q → earlyOk w k p = true → c ≠ .mgmt p →
      exec c w = .next (commit w { w with port.rxWait := w.port.rxWait ++ [p] }))

/-- NAK SEQUENCE (R55): on the open path of a sequenced packet, one ahead of the expected PSN draws one NAK SEQUENCE
and silence for 16 µs; within them a further one is dropped without an answer; once they have passed the next draws a
NAK again; a packet accepted at the expected PSN ends the silence. -/
def Obligations.SequenceNakOnce : Prop :=
  (∀ (c : Instr) (s : State) (p : Pkt) (k : Conn) (q : PathSt),
    (c = .readReq p ∨ c = .writeReq p ∨ c = .writepReq p ∨ c = .flush p ∨ c = .cas64 p ∨ c = .fadd64 p ∨ c = .cas128 p ∨
      c = .send p ∨ c = .triggeredSend p) →
    wellFormed c = true → OnRoute s p k q → earlyOk s k p = true → mustWait s p = false → psnBehind p.psn q.rxE = false → psnAhead p.psn q.rxE = true →
    ((q.nakUntil = none ∨ ∃ t, q.nakUntil = some t ∧ t ≤ s.timebase) →
      exec c s = .next (commit s (sendNak
        (modPath s (connIdx p.conn) (p.path % 4) fun x => { x with nakUntil := some (s.timebase + us 16) })
        (connIdx p.conn) (p.path % 4) nkSequence 0 0 0))) ∧
    (∀ t, q.nakUntil = some t → s.timebase < t → exec c s = .next (commit s s))) ∧
  (∀ (s : State) (ci k : Nat) (c : Conn) (q : PathSt), tget s.conns ci = some c → c.path k = some q →
    ∃ c' q', tget (consume s ci k).conns ci = some c' ∧ c'.path k = some q' ∧ q'.nakUntil = none ∧ q'.rxE = psnNext q.rxE) ∧
  (∀ a : Nat, psnAhead (a + 1) a = true ∧ psnBehind a a = false ∧ psnAhead a a = false)

/-- A packet behind the expected PSN is answered by an ACK and consumes nothing. R56, R58: an ACK releases what it
covers on its path, restarts that path's timer, takes the advertised window, and covers the completions it carried;
one without a path-ack extension is dropped and counted. Table 3-6: what each NAK does: SEQUENCE rewinds the path,
RECEIVER_NOT_READY and MSN_RANGE make it wait, PATH_NOT_OPEN takes it down. -/
def Obligations.Acknowledgements : Prop :=
  (∀ (s : State) (p : Pkt) (k : Conn) (q : PathSt), wfReadReq p = true → OnRoute s p k q → earlyOk s k p = true →
    mustWait s p = false → psnBehind p.psn q.rxE = true →
    exec (.readReq p) s = .next (commit s (sendAck s (connIdx p.conn) (p.path % 4)))) ∧
  (∀ (s : State) (p : Pkt) (ci : Nat) (k : Conn) (q : PathSt) (e : Ext), wfAck p = true → ingress s p = .take →
    unseqRoute s p = some (ci, k, q) → findExt p exPathAck = some e → p.ackReq = false →
    exec (.ack p) s = .next (commit s (pump (coverCompletions
      (modConn (restartTimer (releaseBehind s ci (p.path % 4) (extW e 1)) ci (p.path % 4)) ci
        fun c => { c with winPk := extW e 2 / 2 ^ 23, winBy := extW e 2 % 2 ^ 21 }) ci (p.path % 4) (extW e 1)) ci))) ∧
  (∀ (s : State) (p : Pkt) (ci : Nat) (k : Conn) (q : PathSt) (e : Ext), wfAck p = true → ingress s p = .take →
    unseqRoute s p = some (ci, k, q) → findExt p exPathAck = some e → p.ackReq = true →
    exec (.ack p) s = .next (commit s (pump (sendAck (coverCompletions
      (modConn (restartTimer (releaseBehind s ci (p.path % 4) (extW e 1)) ci (p.path % 4)) ci
        fun c => { c with winPk := extW e 2 / 2 ^ 23, winBy := extW e 2 % 2 ^ 21 }) ci (p.path % 4) (extW e 1))
      ci (p.path % 4)) ci))) ∧
  (∀ (s : State) (p : Pkt), wfAck p = true → ingress s p = .take → findExt p exPathAck = none →
    exec (.ack p) s = .next (commit s (rxDrop s p.sub))) ∧
  (∀ (s : State) (p : Pkt) (ci : Nat) (k : Conn) (q : PathSt) (e : Ext), wfNak p = true → ingress s p = .take →
    unseqRoute s p = some (ci, k, q) → findExt p exNak = some e →
    (e.lo.toNat / 256 = nkUnknownConnection →
      exec (.nak p) s = .next (commit s (connError (releaseBehind s ci (p.path % 4) (extW e 1)) ci))) ∧
    (e.lo.toNat / 256 ∉ [nkSequence, nkSealTag, nkNotReady, nkMsnRange, nkPathNotOpen, nkUnknownConnection] →
      exec (.nak p) s = .next (commit s (pump (nakReport (releaseBehind s ci (p.path % 4) (extW e 1)) ci (extW e 2)
        (e.lo.toNat / 256)) ci))) ∧
    (e.lo.toNat / 256 = nkSequence ∨ e.lo.toNat / 256 = nkSealTag → q.rewound = none →
      exec (.nak p) s = .next (commit s (rewind
        (modPath (releaseBehind s ci (p.path % 4) (extW e 1)) ci (p.path % 4) fun q =>
          { q with rewound := some (extW e 1, s.timebase) }) ci (p.path % 4) (extW e 1)))) ∧
    (e.lo.toNat / 256 = nkNotReady →
      exec (.nak p) s = .next (commit s (modPath (releaseBehind s ci (p.path % 4) (extW e 1)) ci (p.path % 4) fun q =>
        { q with rnr := some (extW e 1, s.timebase + us (2 * (e.lo.toNat % 256))), timer := none }))) ∧
    (e.lo.toNat / 256 = nkMsnRange →
      exec (.nak p) s = .next (commit s (modPath s ci (p.path % 4) fun q =>
        { q with msnWait := some (extW e 1, s.timebase + rtxTicks s) }))) ∧
    (e.lo.toNat / 256 = nkPathNotOpen → exec (.nak p) s = .next (commit s (pathDown s ci (p.path % 4)))))

/-- R100: a compare-and-swap writes its second operand only where the old value equals the first, FADD64 adds modulo
2^64 and always writes. R96, R127: bytes placed at an address read back, and every byte outside them reads as before.
-/
def Obligations.AtomicsAndBytes : Prop :=
  (∀ op old a b : Nat, op ≠ 2 → old = a → atomNew op old a b = b ∧ atomWrites op old a = true) ∧
  (∀ op old a b : Nat, op ≠ 2 → old ≠ a → atomNew op old a b = old ∧ atomWrites op old a = false) ∧
  (∀ old a b : Nat, atomNew 2 old a b = (old + a) % 2 ^ 64 ∧ atomWrites 2 old a = true) ∧
  (∀ (m : List Host.Cell) (a : Nat) (d : Bytes), Memory.wf m = true →
    memRead (memPut m a d) a d.length = d ∧ Memory.wf (memPut m a d) = true) ∧
  (∀ (m : List Host.Cell) (a x : Nat) (d : Bytes), x < a ∨ a + d.length ≤ x → memGet (memPut m a d) x = memGet m x)

/-- R77 to R80: connection control that ingress takes: a CONNECT to connection 0 is decided, a PATH-OPEN of a live
connection is decided, a CLOSE on its route starts the 10 ms of closing and takes no new message, one for a freed
number is answered CLOSED, and a CLOSED that answers the part's CLOSE ends its resends: the number is freed at the drain's end. -/
def Obligations.ConnectionControl : Prop :=
  (∀ (s : State) (p : Pkt), wfConnect p = true → ingress s p = .take → p.conn = 0 →
    exec (.connect p) s = .next (commit s (connectIn s p))) ∧
  (∀ (s : State) (p : Pkt) (c : Conn), wfPathOpen p = true → ingress s p = .take → p.conn ≠ 0 →
    connOf s p.conn = some c → c.st.live = true → serviceOpen s = true →
    exec (.pathOpen p) s = .next (commit s (pathOpenIn s p c))) ∧
  (∀ (s : State) (p : Pkt) (k : Conn) (q : PathSt), wfClose p = true → OnRoute s p k q →
    exec (.close p) s = .next (commit s
      (modConn s (connIdx p.conn) fun c => { c with st := .closing (s.timebase + ms 10) }))) ∧
  (∀ (s : State) (p : Pkt), wfClose p = true → ingress s p = .take → p.conn ≠ 0 → connOf s p.conn = none →
    exec (.close p) s = .next (commit s (answerClosed s p 0))) ∧
  (∀ (s : State) (p : Pkt) (ci : Nat) (k : Conn) (q : PathSt), wfClosed p = true → ingress s p = .take →
    unseqRoute s p = some (ci, k, q) →
    exec (.closed p) s = .next (commit s (modConn s ci fun c => { c with closeOut := none })))

/-- R58 to R60, R80: the timers of a connection: the drain of a closing connection ends in CLOSED, on a path that is up, and a
free number: at once with nothing left to answer, else at its 10 ms; an unanswered CLOSE is sent again while tries are left,
and no more after them; a number in error is freed after
its hold; a connection that has had no path to the Lead for 10 ms is in error. R56, R58, R59, Table 3-6: the timers
of a path: the retransmit timer counts a retry and rewinds to the oldest held packet up to RETRY_LIMIT and then
declares the path down; the ACK delay sends the ACK; the waits after a NAK end in a rewind from the NAK's PSN; a
completion that no ACK carried goes on the next open path. -/
def Obligations.ConnectionAndPathTimers : Prop :=
  (∀ (s : State) (n t : Nat) (c : Conn), wfCloseDrainEnd n = true → connOf s n = some c → c.st = .closing t → c.msgs = [] →
    c.respQ = [] → c.outst = [] → c.closeOut = none → c.upPaths = [] →
    exec (.closeDrainEnd n) s = .next (commit s (freeConn s (connIdx n)))) ∧
  (∀ (s : State) (n t k : Nat) (c : Conn) (q : PathSt) (l : Tab PathSt), wfCloseDrainEnd n = true → connOf s n = some c →
    c.st = .closing t → c.upPaths = (k, q) :: l →
    let u := if (c.msgs.all fun x => x.2.over) && c.respQ.isEmpty && c.outst.isEmpty then s else reach s t
    exec (.closeDrainEnd n) s = .next (commit s (freeConn (sendBare u c k q tyMgmt [] [0x07#8] false) (connIdx n)))) ∧
  (∀ (s : State) (n t : Nat) (c : Conn), wfCloseDrainEnd n = true → connOf s n = some c → c.st = .closing t → c.upPaths = [] →
    let u := if (c.msgs.all fun x => x.2.over) && c.respQ.isEmpty && c.outst.isEmpty then s else reach s t
    exec (.closeDrainEnd n) s = .next (commit s (freeConn u (connIdx n)))) ∧
  (∀ (s : State) (n reason at_ : Nat) (c : Conn), wfControlResend n = true → connOf s n = some c →
    c.closeOut = some (reason, 0, at_) →
    exec (.controlResend n) s = .next (commit s (modConn (reach s at_) (connIdx n) fun c => { c with closeOut := none }))) ∧
  (∀ (s : State) (n reason tries at_ : Nat) (c : Conn), wfControlResend n = true → connOf s n = some c →
    c.closeOut = some (reason, tries + 1, at_) →
    exec (.controlResend n) s = .next (commit s (sendClose (reach s at_) (connIdx n) reason tries))) ∧
  (∀ (s : State) (n t : Nat) (c : Conn), wfConnNumberFree n = true → connOf s n = some c → c.st = .error t →
    exec (.connNumberFree n) s = .next (commit s (freeConn (reach s t) (connIdx n)))) ∧
  (∀ (s : State) (n t : Nat) (c : Conn), wfLeadPathTimeout n = true → connOf s n = some c → c.leadLost = some t →
    c.upPaths = [] →
    exec (.leadPathTimeout n) s = .next (commit s (connError (reach s (t + ms 10)) (connIdx n)))) ∧
  (∀ (s : State) (n k t : Nat) (c : Conn) (q : PathSt) (h : Held) (l : List Held),
    wfRetransmitTimerExpiry n k = true → connOf s n = some c → c.path k = some q → q.timer = some t → q.held = h :: l →
    q.retry + 1 ≤ getF s Reg.hpTmtCfgRetryLimit →
    exec (.retransmitTimerExpiry n k) s = .next (commit s
      (rewind (modPath (reach s t) (connIdx n) k fun x => { x with retry := q.retry + 1 }) (connIdx n) k h.psn))) ∧
  (∀ (s : State) (n k t : Nat) (c : Conn) (q : PathSt), wfRetransmitTimerExpiry n k = true → connOf s n = some c →
    c.path k = some q → q.timer = some t → getF s Reg.hpTmtCfgRetryLimit < q.retry + 1 →
    exec (.retransmitTimerExpiry n k) s = .next (commit s (pathDown (reach s t) (connIdx n) k))) ∧
  (∀ (s : State) (n k t : Nat) (c : Conn) (q : PathSt), wfAckDelayExpiry n k = true → connOf s n = some c →
    c.path k = some q → q.ackDue = some t →
    exec (.ackDelayExpiry n k) s = .next (commit s (sendAck (reach s t) (connIdx n) k))) ∧
  (∀ (s : State) (n k e t : Nat) (c : Conn) (q : PathSt), wfRnrWaitExpiry n k = true → connOf s n = some c →
    c.path k = some q → q.rnr = some (e, t) →
    exec (.rnrWaitExpiry n k) s = .next (commit s
      (rewind (modPath (reach s t) (connIdx n) k fun x => { x with rnr := none }) (connIdx n) k e))) ∧
  (∀ (s : State) (n k e t : Nat) (c : Conn) (q : PathSt), wfMsnRangeWaitExpiry n k = true → connOf s n = some c →
    c.path k = some q → q.msnWait = some (e, t) →
    exec (.msnRangeWaitExpiry n k) s = .next (commit s
      (rewind (modPath (reach s t) (connIdx n) k fun x => { x with msnWait := none }) (connIdx n) k e))) ∧
  (∀ (s : State) (n k : Nat) (c : Conn) (o : Outst) (l : List Outst), wfCompletionRepeat n = true →
    connOf s n = some c → c.outst = o :: l → nextPath c o.lastPath = some k →
    exec (.completionRepeat n) s = .next (commit s (sendAck (reach s (o.lastAt + rtxTicks s)) (connIdx n) k)))

/-- R64, R65: a part that a zero window stops probes with an ACK that asks for one; a reduced window that has grown
is advertised. R67, R69: a received PFC frame pauses its priority for its quanta, 512 bit times of the sub-port each,
or ends the pause with 0; the end of the pause time ends it; while occupancy holds a paused priority its PFC frame is
refreshed. -/
def Obligations.FlowControl : Prop :=
  (∀ (s : State) (n k : Nat) (q : PathSt) (c : Conn), wfZeroWindowProbe n = true → connOf s n = some c → c.winBy = 0 →
    choosePath c none = some (k, q) →
    exec (.zeroWindowProbe n) s = .next (commit s (sendAck s (connIdx n) k true))) ∧
  (∀ (s : State) (n k : Nat) (q : PathSt) (c : Conn), wfZeroWindowProbe n = true → connOf s n = some c → c.winPk = 0 →
    choosePath c none = some (k, q) →
    exec (.zeroWindowProbe n) s = .next (commit s (sendAck s (connIdx n) k true))) ∧
  (∀ (s : State) (n : Nat) (c : Conn), wfWindowRestore n = true → connOf s n = some c → c.reduced = true →
    windowEighths s c ≠ 0 →
    exec (.windowRestore n) s = .next (commit s (ackAny s (connIdx n)))) ∧
  (∀ (s : State) (c : Conn), windowEighths s c ≤ 8 ∧ (windowOf s c).1 ≤ 256 ∧ (windowOf s c).2 ≤ 1048576) ∧
  (∀ (s : State) (sub prio quanta : Nat), wfPfcFrame sub prio quanta = true → quanta ≠ 0 →
    ∃ t, exec (.pfcFrame sub prio quanta) s = .next t ∧
      tget t.port.rxPause (occKey sub prio) =
        some (s.timebase + cdiv (quanta * 512) (10 * modeGbps (getF s (Reg.hpPortCfgMode (sub / 4))))) ∧
      t.conns = s.conns ∧ t.port.fifo = s.port.fifo) ∧
  (∀ (s : State) (sub prio : Nat), wfPfcFrame sub prio 0 = true →
    ∃ t, exec (.pfcFrame sub prio 0) s = .next t ∧ tget t.port.rxPause (occKey sub prio) = none) ∧
  (∀ (s : State) (sub prio b : Nat), wfPfcPauseExpiry sub prio = true → tget s.port.rxPause (occKey sub prio) = some b →
    ∃ t, exec (.pfcPauseExpiry sub prio) s = .next t ∧ tget t.port.rxPause (occKey sub prio) = none ∧ b ≤ t.timebase) ∧
  (∀ (s : State) (sub prio : Nat), wfPfcRefreshTimer sub prio = true → occKey sub prio ∈ s.port.xoff →
    (s.port.globalXoff = true ∨ xonBytes s ≤ occOf s sub prio) →
    exec (.pfcRefreshTimer sub prio) s = .next (commit s (emit s sub (.pfc prio 65535))))

/-- R21, R43, R44, R460: a crossing sends its oldest frame that no pause holds, and the rest keep their order; a
dropped frame is counted at its port; a lane that fails is marked, and its sub-port runs narrower where it can and else goes
down; training that completes brings the sub-port up, degraded where a lane has failed. -/
def Obligations.Ports : Prop :=
  (∀ (s : State) (x : Nat) (prio quanta : Nat) (rest : List Frame), x < 32 → subRuns s x = true →
    tget s.port.fifo x = some (.pfc prio quanta :: rest) →
    ∃ t, exec (.frameTransmit x) s = .next t ∧ t.port.wire = s.port.wire ++ [(x, .pfc prio quanta)] ∧
      (tget t.port.fifo x).getD [] = rest ∧ t.conns = s.conns) ∧
  (∀ (s : State) (n : Nat) (w : DropWhy), n < 8 →
    exec (.ingressFrameDrop n w) s = .next (commit s (bumpF s (Reg.hpRxDropCount n)))) ∧
  (∀ (s : State) (x : Nat) (f : Frame) (rest : List Frame), wfFrameTransmit x = true →
    (if x < 32 then subRuns s x || subState s x == subQuiesced else (ropeInst s (x - 32)).up) = true →
    takeFirst (fun f => ! paused s x f) ((tget s.port.fifo x).getD []) = some (f, rest) →
    exec (.frameTransmit x) s = .next (commit s (deadlineCheck (markBegun { s with
      port.fifo := if rest.isEmpty then tdel s.port.fifo x else tset s.port.fifo x rest,
      port.wire := s.port.wire ++ [(x, f)] } f) f))) ∧
  (∀ (s : State) (n lane k : Nat), n < 8 → lane < 8 → getF s (Reg.hpPortCfgMode n) ≤ 1 →
    bitF s (Reg.hpPortStatusLaneFail n) lane = false →
    (modeSubs (getF s (Reg.hpPortCfgMode n))).find? (fun k => (modeLanes (getF s (Reg.hpPortCfgMode n)) k).contains lane) = some k →
    subState s (4 * n + k) = subUp →
    exec (.hostLaneLoss n lane true) s = .next (commit s (portEvent
      (logEv (setSub (putF s (Reg.hpPortStatusLaneFail n) lane true) (4 * n + k) subDegraded) (srcPort n) .portDegraded noUnit
        [4 * n + k, getF s (Reg.hpPortCfgMode n) + 1]) (4 * n + k) 0x0301 (getF s (Reg.hpPortCfgMode n) + 1)))) ∧
  (∀ (s : State) (n lane k : Nat) (b : Bool), n < 8 → lane < 8 → bitF s (Reg.hpPortStatusLaneFail n) lane = false →
    (modeSubs (getF s (Reg.hpPortCfgMode n))).find? (fun k => (modeLanes (getF s (Reg.hpPortCfgMode n)) k).contains lane) = some k →
    (2 ≤ getF s (Reg.hpPortCfgMode n) ∨ b = false) →
    exec (.hostLaneLoss n lane b) s = .next (commit s
      (subGoesDown (putF s (Reg.hpPortStatusLaneFail n) lane true) (4 * n + k)))) ∧
  (∀ (s : State) (sub : Nat), wfSubportLinkUp sub = true → s.fab.sdOk = true →
    sub % 4 ∈ modeSubs (getF s (Reg.hpPortCfgMode (sub / 4))) → (subState s sub = subTraining ∨ subState s sub = subDown) →
    let mode := getF s (Reg.hpPortCfgMode (sub / 4))
    let cut := (modeLanes mode (sub % 4)).any fun l => bitF s (Reg.hpPortStatusLaneFail (sub / 4)) l
    exec (.subportLinkUp sub) s = .next (commit s (rungOk (portEvent
      (pitchEv (setSub s sub (if cut then subDegraded else subUp)) (srcPort (sub / 4)) .portRestored [sub, mode])
      sub 0x0303 mode) (fnKey 1 sub)))) ∧
  (∀ (s : State) (n lane : Nat), n < 8 → lane < 8 → getF s (Reg.hpPortCfgMode n) = 0 →
    bitF s (Reg.hpPortStatusLaneFail n) lane = false → subState s (4 * n) = subUp → s.conns = [] →
    ∃ t, exec (.hostLaneLoss n lane true) s = .next t ∧ subState t (4 * n) = subDegraded ∧
      bitF t (Reg.hpPortStatusLaneFail n) lane = true) ∧
  (∀ (s : State) (n : Nat), n < 8 → s.fab.sdOk = true → getF s (Reg.hpPortCfgMode n) = 0 →
    subState s (4 * n) = subTraining → getF s (Reg.hpPortStatusLaneFail n) = 0 → s.conns = [] →
    (ladFn s (fnKey 1 (4 * n))).rung = 0 →
    ∃ t, exec (.subportLinkUp (4 * n)) s = .next t ∧ subState t (4 * n) = subUp)

/-! ## Budget, work requests, movers (4, 5), camp (6) -/

/-- R97: the reservation at the front is met when its charge fits, every slab of it not yet charged is charged, and
its message runs, and one that is met while writes are write-through charges nothing; one that expires gives up its place and
is counted as a refusal of its region, and its message ends in NAK BUDGET_FULL, or its work request fails. R113, R114: a
NOTIFY, a COPY or a WRITE whose turn has come with nothing before it in flight is started; a work request whose work is
finished leaves the run; one that fails stops the run. -/
def Obligations.BudgetAndWork : Prop :=
  (∀ (s : State) (r : Resv) (rest : List Resv), s.ops.budgetQ = r :: rest → writeThrough s = false →
    budgetFits s (r.slabs.filter fun n => ! isCharged s n) = true →
    exec .budgetReservationMet s = .next (commit s (reservationMet
      (budgetCheck ((r.slabs.filter fun n => ! isCharged s n).foldl charge { s with ops.budgetQ := rest })) r
      (r.slabs.filter fun n => ! isCharged s n) false))) ∧
  (∀ (s : State) (r : Resv) (rest : List Resv), s.ops.budgetQ = r :: rest → writeThrough s = true →
    exec .budgetReservationMet s = .next (commit s (reservationMet { s with ops.budgetQ := rest } r [] true))) ∧
  (∀ (s : State) (r : Resv) (n ci msn : Nat) (m : Msg), s.ops.budgetQ.find? (·.id == n) = some r → r.who = .msg ci msn →
    msgOf s ci msn = some m →
    let u := countRefusal { reach s r.until_ with ops.budgetQ := s.ops.budgetQ.filter (·.id != n) }
      (((rangeOf m.first).map (·.key)).getD 0)
    exec (.budgetWaitExpiry n) s = .next (commit s (runAll (endMsg
      (sendNak u ci m.first.path nkBudgetFull 0 msn (budgetUsedMib u)) ci msn (.nak nkBudgetFull))))) ∧
  (∀ (s : State) (r : Resv) (n q slot : Nat) (x : Queue), s.ops.budgetQ.find? (·.id == n) = some r → r.who = .wr q slot →
    queueOf s q = some x →
    exec (.budgetWaitExpiry n) s = .next (commit s (chainFail
      (countRefusal { reach s r.until_ with ops.budgetQ := s.ops.budgetQ.filter (·.id != n) } (wrDstKey (x.wr slot)))
      q slot .budgetFull))) ∧
  (∀ (s o : State) (q : Nat) (x : Queue) (r : Run) (regs rs : List Nat), wfWorkRequestStart q = true → queueOf s q = some x →
    x.run = some r → r.stopped = false → r.live = [] → r.done = [] → isSecond s = false → rxOff s = false →
    s.rope.handover = none → (wrOp (x.wr r.next) = woCopy ∨ wrOp (x.wr r.next) = woWrite) → wrLenOk (x.wr r.next) = true →
    wrValidate s x.owner true (wrRegions (x.wr r.next)) = .inr regs →
    reserve (wrAdd s q r.next { slot := r.next, regions := regs, value := 0, inv := (wrTarget (x.wr r.next) r.trig, 0) })
      (.wr q r.next) (wrDst (x.wr r.next)) (wrLen (x.wr r.next)) = (o, .charged rs) →
    exec (.workRequestStart q) s = .next (commit s (wrBegin (modWr o q r.next fun l => { l with resv := rs }) q r.next))) ∧
  (∀ (s : State) (q : Nat) (x : Queue) (r : Run), wfWorkRequestStart q = true → queueOf s q = some x → x.run = some r →
    r.stopped = false → r.live = [] → r.done = [] → isSecond s = false → rxOff s = false → s.rope.handover = none →
    wrOp (x.wr r.next) = woNotify →
    exec (.workRequestStart q) s = .next (commit s
      (wrBegin (wrAdd s q r.next
        { slot := r.next, regions := [], value := 0, inv := (wrTarget (x.wr r.next) r.trig, 0) }) q r.next))) ∧
  (∀ (s : State) (q slot : Nat), wfWorkRequestComplete q slot = true → wrFinished s q slot = true →
    exec (.workRequestComplete q slot) s = .next (commit s (wrDone s q slot))) ∧
  (∀ (s : State) (q slot : Nat) (cause : ChainCause), wfWorkRequestFail q slot = true → (wrRun s q slot).isSome = true →
    exec (.workRequestFail q slot cause) s = .next (commit s (chainFail s q slot cause)))

/-- R139, R145, R146: a free mover whose domain is on takes the job that waits and a promotion takes its slab out of
VALLEY; a unit of a check moves its offset by 4 KiB; a filled unit of a promotion is marked. R126, Table 5-3: the end
of a destage's program makes its slab CLEAN with its valley copy at the page programmed, or DIRTY again when it was
written meanwhile; a failed program goes to another page, and with no other place leaves it DIRTY. -/
def Obligations.MoversAndDestage : Prop :=
  (∀ (s : State) (m n : Nat), wfMoverJobStart m = true → thas s.range.movers m = false → domOn s (102 + m / 8) = true → powerStops s = false →
    s.range.jobs = [{ cls := 1, kind := .promote n }] → segBuilt s (segOf n) = true → frameFree s n = true →
    (slabOf s n).st = .valley →
    ∃ t, exec (.moverJobStart m) s = .next t ∧ (slabOf t n).st = .promoting ∧
      tget t.range.movers m = some { cls := 1, kind := .promote n } ∧ t.range.jobs = []) ∧
  (∀ (s : State) (m : Nat) (j : Job), wfMoverJobStart m = true → thas s.range.movers m = false → domOn s (102 + m / 8) = true →
    powerStops s = false → bestJob s = some j → exec (.moverJobStart m) s = .next (commit s (startJob s m j))) ∧
  (∀ (s : State) (m n : Nat) (j : Job), wfMoverUnitDone m = true → tget s.range.movers m = some j → j.kind = .check n →
    ((objOf s n).map (·.len)).getD 0 ≤ j.offset + 4096 →
    exec (.moverUnitDone m) s = .next (commit s (publishFinish { s with range.movers := tdel s.range.movers m } n))) ∧
  (∀ (s : State) (m g : Nat) (j : Job), wfMoverUnitDone m = true → tget s.range.movers m = some j → j.kind = .rebuild g →
    exec (.moverUnitDone m) s = .next (commit s
      (preempt { s with range.movers := tset s.range.movers m { j with offset := j.offset + 4096 } } m))) ∧
  (∀ (s : State) (m t : Nat) (j : Job), wfMoverUnitDone m = true → tget s.range.movers m = some j → j.kind = .unseal t →
    exec (.moverUnitDone m) s = .next (commit s (unsealUnit s m j t))) ∧
  (∀ (s : State) (m n : Nat) (j : Job), wfMoverUnitDone m = true → tget s.range.movers m = some j → j.kind = .check n →
    s.range.jobs = [] → bgRebuild s = [] → j.offset + 4096 < ((objOf s n).map (·.len)).getD 0 →
    exec (.moverUnitDone m) s = .next (commit s
      { s with range.movers := tset s.range.movers m { j with offset := j.offset + 4096 } })) ∧
  (∀ (s : State) (n u : Nat), wfPromotionUnitFilled n [] = true → (slabOf s n).unit = some u →
    (slabOf s n).st = .promoting → (s.range.movers.any fun j => promotes n j.2.kind) = true →
    ((slabOf s n).vloc.any (readWaits s)) = false →
    let f := putBit (slabOf s n).filled u true
    let cls := ((s.range.movers.find? fun j => promotes n j.2.kind).map (·.2.cls)).getD 0
    let v := (span (n * 256 + u * 64) (n * 256 + u * 64 + 64)).foldl (fun s l => campAsk s true .mover 0 cls l)
      (unitRead (setSlab s n { slabOf s n with filled := f, unit := nextUnit s n f }) n cls)
    let upd := fun (j : Nat × Job) => if promotes n j.2.kind then (j.1, { j.2 with offset := popcount f 4 * 4096 }) else j
    let w := { v with range.movers := v.range.movers.map upd }
    exec (.promotionUnitFilled n []) s = .next (commit s (runAll (if popcount f 4 = 4 then promoted w n else w)))) ∧
  (∀ (s : State) (n v : Nat) (pg : Page), wfDestageProgramDone n = true → (slabOf s n).target = some v →
    tget s.val.progs v = some (.destage n pg) → progRuns s v = true → (slabOf s n).st = .destaging → (slabOf s n).wrote = false →
    let u := dropJobs (joinStripe (putPage s v pg) v) (· == .destage n)
    exec (.destageProgramDone n) s = .next (commit s (orderlyCheck (retireCheck (opCheck (bgCheck (runAll (budgetCheck
      (destagePlan (reclaim (evictAfter (destageMsgs (flushJournal (journal (dropReservation (setSlab u n { slabOf s n with
        st := .clean, target := none, vloc := some v, pois := (u.range.poison.any (· / 256 == n)) }) [n]) n)) n) n))))))))))) ∧
  (∀ (s : State) (n v : Nat) (pg : Page), wfDestageProgramDone n = true → (slabOf s n).target = some v →
    tget s.val.progs v = some (.destage n pg) → progRuns s v = true → (slabOf s n).st = .destaging → (slabOf s n).wrote = true →
    let u := dropJobs (joinStripe (putPage s v pg) v) (· == .destage n)
    let d := setSlab u n { slabOf s n with st := .dirty, target := none, wrote := false }
    exec (.destageProgramDone n) s = .next (commit s (orderlyCheck (retireCheck (opCheck (bgCheck (runAll (budgetCheck
      (destagePlan (reclaim (evictAfter (if destageWaited d n then addJob d 2 (.destage n) else d) n))))))))))) ∧
  (∀ (s : State) (n v : Nat) (pg : Page), wfDestageProgramFail n = true → (slabOf s n).target = some v →
    tget s.val.progs v = some (.destage n pg) → progRuns s v = true → (slabOf s n).st = .destaging →
    let w := retireBlock (progGone s v) (vBlock s v)
    (∀ k, pickPlace w = some k → exec (.destageProgramFail n) s = .next (commit s
      (setSlab (startProg (useFree w) k (.destage n (slabPage w n 1))) n { slabOf w n with target := some k }))) ∧
    (pickPlace w = none →
    exec (.destageProgramFail n) s = .next (commit s (dropJobs
      (setSlab w n { slabOf w n with st := .dirty, target := none, wrote := false }) (· == .destage n)))))

/-- R124, R141, R142, R147, R156: the walker evicts a streaming slab that nothing protects and rests while the
partition has 1,024 free frames; a rebuilt segment is built and what parked on it goes on; a freed park entry lets
every message try again; a parked READ of the deadline class goes straight to the valley; a marker that moved is
logged. -/
def Obligations.RangeWalk : Prop :=
  (∀ (s : State) (part n : Nat), wfWalkerEvict part = true → freeFrames s part < 1024 → walkerNext s part = some n →
    candidate { s with range.walker := tset s.range.walker part n } n = true →
    slabCls { s with range.walker := tset s.range.walker part n } n = 3 →
    exec (.walkerEvict part) s = .next (commit s (runAll (evictSlab { s with range.walker := tset s.range.walker part n } n)))) ∧
  (∀ (s : State) (part : Nat), wfWalkerEvict part = true → 1024 ≤ freeFrames s part →
    exec (.walkerEvict part) s = .next (commit s (runAll s))) ∧
  (∀ (s : State) (g : Nat), wfSegmentRebuildDone g = true → (s.range.movers.any fun j => j.2.kind == .rebuild g) = true →
    exec (.segmentRebuildDone g) s = .next (commit s (segmentDone s g)) ∧ segBuilt (segLoad s g) g = true) ∧
  (∀ s : State, exec .parkEntryFree s = .next (commit s (runAll s))) ∧
  (∀ (s : State) (c msn d : Nat) (k : Conn) (m : Msg) (x : RangeX), wfValleyDirectTimer c msn = true → connOf s c = some k →
    msgOf s (connIdx c) msn = some m → msgDeadline s m = some d → rangeOf m.first = some x → m.parked = true →
    m.first.ty = tyRead →
    let u := reach s (d - us (getF s Reg.campRangeCfgVdirectUs))
    let f := (slabsOf x.addr x.len).any fun n => segBuilt u (segOf n) && ! readReady u x.addr x.len n
    exec (.valleyDirectTimer c msn) s = .next (commit s (runConn
      (modMsg u (connIdx c) msn fun m => { m with vdirect := true, fault := m.fault || f }) (connIdx c)))) ∧
  (∀ (s : State) (n : Nat) (t : Topo), wfMarkerLogTimer n = true → tget s.tables.topos n = some t → t.marker ≠ t.logged →
    (∀ b, t.loggedAt = some b → let u := reach s (b + sec 1)
      exec (.markerLogTimer n) s = .next (commit s (tableLog { u with
        tables.topos := tset s.tables.topos n { t with logged := t.marker, loggedAt := some u.timebase } }))) ∧
    (t.loggedAt = none →
    exec (.markerLogTimer n) s = .next (commit s (tableLog { s with
      tables.topos := tset s.tables.topos n { t with logged := t.marker, loggedAt := some s.timebase } }))))

/-- R169, R175, R177, Table 6-4: in a command slot of a channel in service what is due of refresh goes before every
request; an interval puts both subchannels' ranks one refresh further into debt; the rate that MR4 reports holds for
both. R172, R179 to R181, R186, R191: the other timers of camp: a DIMM at the limit makes its channel hot; the
rockfall window's end clears every sampled count; a throttle gains a token up to its bucket and ends with its hold;
ZQ calibration goes to every rank in service; drift within RETRAIN_PS ends centring; a slab copied off a retired
frame stands in the new one. R184, R232: a stage of training that ends on the unit in progress begins the next, and
T6 with nothing to repair puts the channel in service; a code word that reads clean changes nothing but lets what
waited go on. -/
def Obligations.CampRefreshAndTimers : Prop :=
  (∀ (s t : State) (ch sub : Nat), wfDdrCommandIssue ch sub = true → chState s ch = 2 →
    let k := ch * 2 + sub
    let u := markThrottled (measure s) k
    let q := subQ u k
    rankOne (setSubQ u k { q with drain := decide (getF u Reg.campSchedCfgWqHigh ≤ q.wr.length) ||
      (q.drain && decide (getF u Reg.campSchedCfgWqLow < q.wr.length)) }) k = some t →
    exec (.ddrCommandIssue ch sub) s = .next (commit s t)) ∧
  (∀ (s : State) (ch sub : Nat), wfDdrCommandIssue ch sub = true → chState s ch = 2 →
    let k := ch * 2 + sub
    let u := markThrottled (measure s) k
    let q := subQ u k
    let v := setSubQ u k { q with drain := decide (getF u Reg.campSchedCfgWqHigh ≤ q.wr.length) ||
      (q.drain && decide (getF u Reg.campSchedCfgWqLow < q.wr.length)) }
    rankOne v k = none → ∀ l x, (candRanks v k).findSome? (fun l => (pickCand v (subQ v k).ptr l).map fun x => (l, x)) = some (l, x) →
      exec (.ddrCommandIssue ch sub) s = .next (commit s (serveCand v k l x))) ∧
  (∀ (s : State) (ch rank : Nat), wfRefreshInterval ch rank = true → chState s ch = 2 → rank < (campCh s ch).ranks →
    ∃ t, exec (.refreshInterval ch rank) s = .next t ∧
      (rankSt t (ch * 32 + rank)).debt = (rankSt s (ch * 32 + rank)).debt + 1 ∧
      (rankSt t (ch * 32 + 16 + rank)).debt = (rankSt s (ch * 32 + 16 + rank)).debt + 1 ∧ t.regs = s.regs) ∧
  (∀ (s : State) (ch rank : Nat) (b : Bool), wfMr4Poll ch rank = true → chState s ch = 2 → rank < (campCh s ch).ranks →
    ∃ t, exec (.mr4Poll ch rank b) s = .next t ∧ (rankSt t (ch * 32 + rank)).x2 = b ∧
      (rankSt t (ch * 32 + 16 + rank)).x2 = b) ∧
  (∀ (s : State) (rk : Nat), rankSt s rk = { debt := 8 } → s.camp.open_ = [] →
    (dueRefresh s rk).camp.issued = s.camp.issued ++ [(rk / 16, .refAb (rk % 16))] ∧ (rankSt (dueRefresh s rk) rk).debt = 7) ∧
  (∀ (s : State) (ch d c : Nat), wfDimmTempPoll ch d c = true → d < (campCh s ch).dimms → d ∉ (campCh s ch).hotDimms →
    getF s Reg.campRefCfgDimmHotC ≤ c →
    ∃ t, exec (.dimmTempPoll ch d c) s = .next t ∧ isSet t (Reg.campChStatusHot ch) = true ∧
      d ∈ (campCh t ch).hotDimms) ∧
  (∀ s : State, ∃ t, exec .rfgWindowClear s = .next t ∧ (∀ b ∈ t.camp.bank, ∀ r ∈ b.2.rows, r.count = 0) ∧
    t.camp.bank.map (·.1) = s.camp.bank.map (·.1)) ∧
  (∀ (s : State) (b i : Nat) (x : Throttle), wfRfgToken b i = true → tget (bankSt s b).thr i = some x →
    ∃ t y, exec (.rfgToken b i) s = .next t ∧ tget (bankSt t b).thr i = some y ∧
      y = { x with tokens := min x.bucket (x.tokens + 1) }) ∧
  (∀ (s : State) (b i : Nat) (x : Throttle), wfRfgHoldExpiry b i = true → tget (bankSt s b).thr i = some x →
    ∃ t, exec (.rfgHoldExpiry b i) s = .next t ∧ tget (bankSt t b).thr i = none ∧ x.until_ ≤ t.timebase) ∧
  (∀ (s : State) (ch r : Nat), ch < 16 → chState s ch = 2 → r < (campCh s ch).ranks →  r < 16 →
    ∃ t, exec .zqTimer s = .next t ∧ (ch * 2, DdrCmd.zq r) ∈ t.camp.issued) ∧
  (∀ (s : State) (ch r ps : Nat), wfDqsoscRead ch r = true → chState s ch = 2 → r < (campCh s ch).ranks →
    ps ≤ getF s Reg.campRefCfgRetrainPs →
    ∃ t, exec (.dqsoscRead ch r ps) s = .next t ∧ thas t.camp.centring (ch * 32 + r) = false ∧
      ch * 32 + r ∉ t.camp.urgent) ∧
  (∀ (s : State) (ch r ps : Nat), wfDqsoscRead ch r = true → chState s ch = 2 → r < (campCh s ch).ranks →
    getF s Reg.campRefCfgRetrainPs < ps →
    exec (.dqsoscRead ch r ps) s = .next (commit s
      (logEv ([ch * 32 + r, ch * 32 + 16 + r].foldl centreRank s) (srcCamp ch) .rankCentring r [ps]))) ∧
  (∀ (s : State) (ch r b : Nat), wfCentringEscalation ch r = true → tget s.camp.centring (ch * 32 + r) = some b →
    ∃ t, exec (.centringEscalation ch r) s = .next t ∧ ch * 32 + r ∈ t.camp.urgent ∧ b + ms 10 ≤ t.timebase) ∧
  (∀ (s : State) (n f : Nat), wfFrameMoveDone n = true → tget s.camp.moves n = some f → (slabOf s n).st = .clean →
    ∃ t, exec (.frameMoveDone n) s = .next t ∧ (slabOf t n).frame = f ∧ tget t.camp.moves n = none) ∧
  (∀ (s : State) (p : CampPort) (b : Nat), tget (measure s).camp.raised (whKey p) = some b → p ∈ (measure s).camp.whistle →
    exec (.whistleLong p) s = .next (commit s (whistleLong s p)) ∧
      tget (whistleLong s p).camp.raised (whKey p) = none) ∧
  (∀ (s : State) (ch d : Nat), wfCampTrainStageDone ch = true → chState s ch = 1 → (campCh s ch).stage = 2 →
    (campCh s ch).dimm = d →
    exec (.campTrainStageDone ch (.t2 d)) s = .next (commit s (setCampCh s ch { campCh s ch with stage := 3 }))) ∧
  (∀ (s : State) (ch : Nat) (l : List DimmSpd), wfCampTrainStageDone ch = true → chState s ch = 1 → (campCh s ch).stage = 1 →
    exec (.campTrainStageDone ch (.t1 l)) s = .next (commit s (trainT1 s ch
      { campCh s ch with spd := l, dimm := 0, group := 0, retried := false, failed := [] }))) ∧
  (∀ (s : State) (ch g : Nat), wfCampTrainStageDone ch = true → chState s ch = 1 → (campCh s ch).stage = 5 →
    (campCh s ch).group = g → (campCh s ch).groups ≤ g + 1 → (campCh s ch).reinit = false →
    exec (.campTrainStageDone ch (.t5 g true)) s = .next (commit s
      (setCampCh s ch { campCh s ch with stage := 6, retried := false }))) ∧
  (∀ (s : State) (ch : Nat), wfCampTrainStageDone ch = true → chState s ch = 1 → (campCh s ch).stage = 6 →
    s.camp.pendingRows = [] →
    ∃ t, exec (.campTrainStageDone ch .t6) s = .next t ∧ chState t ch = 2 ∧ (campCh t ch).selfRef = false) ∧
  (∀ (s : State) (cpa : Nat) (w : Bytes) (p : CampPort), wfCampReadDone cpa w = true → chState s (campLoc s cpa).ch = 2 →
    s.code.merges = [] →
    decodeWord (w.map (·.toNat)) ((tget s.code.marked (rankKey (campLoc s cpa))).map (·.1)) = .clean →
    exec (.campReadDone cpa w p) s = .next (commit s (runAll s))) ∧
  (∀ (s : State) (cpa : Nat) (w : Bytes) (p : CampPort), wfCampReadDone cpa w = true → chState s (campLoc s cpa).ch = 2 →
    exec (.campReadDone cpa w p) s = .next (commit s (runAll (wordRead s cpa w false))))

/-! ## Valley, cairn, protection, summit, keys (7 to 10) -/

/-- R202, R212, R203, R209: a read is counted for its die and block by the level that it reached, one that needed no rebuild
shows that its channel answers, and one that no level recovers loses its codeword; a failed die leaves use, once, recorded,
in the root and in the journal; a program that waits is raised; a verify read of a page that needed more than L0 moves the
page, and one of a page no longer there is nothing; a pass reads every page that is in use once. -/
def Obligations.ValleyReads : Prop :=
  (∀ (s : State) (v cw bits : Nat) (level : DecodeLevel), wfValleyReadDone v cw = true → levelNum (levelReached s v level) < 4 →
    exec (.valleyReadDone v cw level bits) s = .next (commit s
      (channelAnswers (readCounted s v (levelReached s v level) bits) (vCh v)))) ∧
  (∀ (s : State) (v cw bits : Nat) (level : DecodeLevel), wfValleyReadDone v cw = true → levelReached s v level = .l4 →
    exec (.valleyReadDone v cw level bits) s = .next (commit s (readCounted s v .l4 bits))) ∧
  (∀ (s : State) (v cw bits : Nat) (level : DecodeLevel), wfValleyReadDone v cw = true → levelReached s v level = .failed →
    exec (.valleyReadDone v cw level bits) s = .next (commit s
      (runAll (pageLost (readCounted s v .failed bits) v (cw * 64) 64)))) ∧
  (∀ (s : State) (v : Nat), dieDown s (vDie v) = true → levelNum (levelReached s v .l0) = if stripeSound s v then 4 else 5) ∧
  (∀ (s : State) (d : Nat), wfNandResetTimeout d = true → (dieOf s d).failed = true →
    exec (.nandResetTimeout d) s = .next (commit s s)) ∧
  (∀ (s : State) (d : Nat), wfNandResetTimeout d = true → (dieOf s d).failed = false →
    let u := logEv (putF (setDie s d { dieOf s d with failed := true }) (Reg.valNvStatusFailedDies (d / 32)) (d % 32) true)
      (srcValley (d / 32)) .dieFailed (d % 32) [d / 32, d % 32] true
    let w := writeRoot u (rootStop u)
    (dieOf u d).failed = true ∧ (diePagesLive u d = [] → diePagesLive w d = [] →
      exec (.nandResetTimeout d) s = .next (commit s (opCheck (journalRec
        (setB w Reg.valWearStatusRebuildActive (! w.val.rebuild.isEmpty)) (.dieFailed d)))))) ∧
  (∀ (s : State) (d : Nat), wfNandResetTimeout d = true → exec (.nandResetTimeout d) s = .next (commit s (failDie s d))) ∧
  (∀ (s : State) (d : Nat), wfProgramWaitExpiry d = true → ((dieOf s d).wait.any fun w => decide (4 ≤ w.rank)) = true →
    exec (.programWaitExpiry d) s = .next (commit s (setDie s d { dieOf s d with raised := true }))) ∧
  (∀ (s : State) (v bits : Nat) (level : DecodeLevel), wfVerifyPassRead (.tlc v) = true → thas s.val.pages v = false →
    exec (.verifyPassRead (.tlc v) level bits) s = .next (commit s s)) ∧
  (∀ (s : State) (v bits : Nat) (level : DecodeLevel) (x : Page), wfVerifyPassRead (.tlc v) = true →
    tget s.val.pages v = some x → pageLive s (v, x) = true →
    1 ≤ levelNum (levelReached s v level) → levelNum (levelReached s v level) < 4 →
    exec (.verifyPassRead (.tlc v) level bits) s = .next (commit s (verifyNext (relocate (channelAnswers
      (pageRead (reach s (verifyDue s)) (vBlock s v) (levelReached s v level) bits) (vCh v)) v) (.tlc v)))) ∧
  (∀ (s : State) (b n bits : Nat) (level : DecodeLevel), wfVerifyPassRead (.slc b n) = true → isSys s b = true →
    n < slcPages s → levelNum level < 4 →
    exec (.verifyPassRead (.slc b n) level bits) s = .next (commit s
      (verifyNext (channelAnswers (pageRead (reach s (verifyDue s)) b level bits) (b % 32)) (.slc b n)))) ∧
  (∀ (s : State) (p : VerifyPage), p ∉ s.val.verified → s.val.verified.length + 1 < passPages s →
    (verifyNext s p).val.verified = s.val.verified ++ [p] ∧ (verifyNext s p).val.blocks = s.val.blocks) ∧
  (∀ (s : State) (p : VerifyPage), p ∈ s.val.verified → s.val.verified.length < passPages s →
    (verifyNext s p).val = s.val) ∧
  (∀ (s : State) (p : VerifyPage), p ∉ s.val.verified → passPages s ≤ s.val.verified.length + 1 →
    (verifyNext s p).val.verified = [] ∧ (∀ b ∈ (verifyNext s p).val.blocks, b.2.l4 = 0) ∧
    getF (verifyNext s p) Reg.valWearStatusVerifyPassPct = 0)

/-- R203, R206, R211, R219: an end of a program or erase that its die does not run is nothing; a program's end is timed for
its die; a relocated page that its slab still names takes over the slab's valley copy; a failed parity page leaves its stripe;
an erase that ends well empties its block and closes its intent, and one slower than twice its baseline retires it. -/
def Obligations.ValleyPrograms : Prop :=
  (∀ (s : State) (v pct : Nat) (ok : Bool), wfValleyProgramDone v = true → (tget s.val.progs v = none ∨ progRuns s v = false) →
    exec (.valleyProgramDone v ok pct) s = .next (commit s s)) ∧
  (∀ (s : State) (v pct n frm : Nat) (pg : Page), wfValleyProgramDone v = true → progRuns s v = true →
    tget s.val.progs v = some (.relocate n frm pg) → pct ≤ 200 →
    exec (.valleyProgramDone v true pct) s = .next (commit s (runAll (opCheck (reclaim (wearCheck
      (relocated (channelAnswers (programTimed s v pct) (vCh v)) n frm v pg) (vDie v))))))) ∧
  (∀ (s : State) (v pct : Nat) (k : ProgKind), wfValleyProgramDone v = true → progRuns s v = true → tget s.val.progs v = some k →
    200 < pct →
    let u := programEnds (channelAnswers (programTimed s v pct) (vCh v)) v true k
    exec (.valleyProgramDone v true pct) s = .next (commit s (runAll (opCheck (reclaim (wearCheck
      (retireBlock u (vBlock s v)) (vDie v))))))) ∧
  (∀ (s : State) (v pct st : Nat), wfValleyProgramDone v = true → progRuns s v = true → tget s.val.progs v = some (.parity st) →
    let u := stripeGone (progGone (programTimed s v pct) v) st
    exec (.valleyProgramDone v false pct) s = .next (commit s (runAll (opCheck (reclaim (wearCheck
      (retireBlock u (vBlock s v)) (vDie v))))))) ∧
  (∀ (s : State) (b pct : Nat) (ok : Bool), wfValleyEraseDone b = true →
    ((blockOf s b).intent = none ∨ (dieOf s (blockDie b)).run ≠ some (.erase b)) →
    exec (.valleyEraseDone b ok pct) s = .next (commit s s)) ∧
  (∀ (s : State) (b pct i : Nat), wfValleyEraseDone b = true → (blockOf s b).intent = some i →
    (dieOf s (blockDie b)).run = some (.erase b) → pct ≤ 200 →
    exec (.valleyEraseDone b true pct) s = .next (commit s (runAll (opCheck (levelWear
      (wearCheck (eraseEnds (eraseTimed s b pct) b true) (blockDie b)) (blockDie b)))))) ∧
  (∀ (s : State) (b pct i : Nat), wfValleyEraseDone b = true → (blockOf s b).intent = some i →
    (dieOf s (blockDie b)).run = some (.erase b) → 200 < pct →
    exec (.valleyEraseDone b true pct) s = .next (commit s (runAll (opCheck (levelWear
      (wearCheck (retireBlock (eraseEnds (eraseTimed s b pct) b true) b) (blockDie b)) (blockDie b)))))) ∧
  (∀ (s : State) (b : Nat), (∀ p ∈ (eraseEnds s b true).val.pages, vBlock s p.1 ≠ b) ∧
    blockOf (eraseEnds s b true) b = { blockOf s b with
      erases := (blockOf s b).erases + 1, intent := none, erased := true } ∧
    (eraseEnds s b false).val.pages = s.val.pages)

/-- R199, R216, R218, R221, R227: the page timers: an open stripe is closed STRIPE_CLOSE_MS after it opened, once no program of
its runs; the journal page is programmed with every waiting record, each numbered; the table-log page is programmed and what
waited for it is answered; the logbook's last page is programmed where it has changed; a flush of the pitch logs within an hour of the last is skipped and counted, and one
after it makes an image. -/
def Obligations.StoredTimers : Prop :=
  (∀ (s : State) (k : Nat) (x : Stripe), tget s.val.stripes k = some x →
    exec (.stripeCloseTimer k) s = .next (commit s
      (closeStripe (reach s (x.openedAt + ms (getF s Reg.valCfgStripeCloseMs))) k)) ∧
    (stripeBusy s k = false →
      tget (closeStripe (reach s (x.openedAt + ms (getF s Reg.valCfgStripeCloseMs))) k).val.stripes k = none)) ∧
  (∀ (s : State) (b : Nat), s.val.jrnlSince = some b →
    exec .journalPageTimer s = .next (commit s (flushJournal (reach s (b + us 500))))) ∧
  (∀ s : State, (programRecs s).val.jopen = [] ∧ (programRecs s).val.jrnlSince = none ∧
    (programRecs s).val.jnext = s.val.jnext + s.val.jopen.length ∧ (programRecs s).range = s.range) ∧
  (∀ (s : State) (b : Nat), s.val.tlogSince = some b →
    exec .tableLogPageTimer s = .next (commit s (flushTables (reach s (b + us 500)))) ∧
    (programTables (tableLog (reach s (b + us 500))) true).tables = s.tables ∧
    (programTables (tableLog (reach s (b + us 500))) true).range = s.range) ∧
  (∀ s : State, s.log.loaded = true → s.log.changed = true → s.log.recs ≠ [] → s.log.recs.length ≤ 255 →
    ∃ t p, exec .logbookPageTimer s = .next t ∧ t.log.area.getLast? = some p ∧ p.page = 0 ∧ p.recs = s.log.recs ∧
      p.seq = s.log.pageSeq ∧ t.log.changed = false ∧ t.log.recs = s.log.recs) ∧
  (∀ s : State, (s.log.loaded = false ∨ s.log.changed = false) → exec .logbookPageTimer s = .next (commit s s)) ∧
  (∀ (s : State) (b : Nat), s.cairn.lastFlush = some b → s.timebase < b + sec 3600 →
    ∃ t, exec .pitchLogFlushTimer s = .next t ∧ t.cairn = s.cairn ∧
      getF t Reg.valCairnStatusFlushSkipped =
        min (getF s Reg.valCairnStatusFlushSkipped + 1) (2 ^ Reg.valCairnStatusFlushSkipped.w - 1)) ∧
  (∀ (s : State) (b : Nat), s.cairn.lastFlush = some b → b + sec 3600 ≤ s.timebase →
    ∃ t i, exec .pitchLogFlushTimer s = .next t ∧ t.cairn.images.getLast? = some i ∧ i.logs = s.plog ∧ i.cause = 1 ∧
      t.cairn.images.length ≤ max 6 s.cairn.images.length ∧ t.cairn.lastFlush = some s.timebase ∧ t.plog = s.plog)

/-- R223 to R225, R295, Table 7-11: the cairn ROM service: an erase or program that holds within its tries answers 0
and does what it says; one that does not is remapped to a spare sector and answers 1, or 2 with no spare left, its row lost; the
calibration row and the running bank are protected (3); an address outside the cairn is 4; a margin read that
differs, a commit whose check fails and an image that does not verify are 5. -/
def Obligations.CairnService : Prop :=
  (∀ (s : State) (n tries : Nat), n < 4096 → csProtected s (n * 4096) = false → tries ≤ 3 →
    ∃ t, exec (.csErase n tries) s = .next t ∧ t.cairn.status = 0 ∧ (∀ r ∈ t.cairn.rows, r.1 / 16 ≠ n) ∧
      tcnt t.cairn.erases n = tcnt s.cairn.erases n + 1 ∧ t.val = s.val ∧ t.log = s.log) ∧
  (∀ (s : State) (n tries : Nat), n < 4096 → csProtected s (n * 4096) = true →
    exec (.csErase n tries) s = .next (commit s { s with cairn.status := 3 })) ∧
  (∀ (s : State) (n tries : Nat), 4096 ≤ n → exec (.csErase n tries) s = .next (commit s { s with cairn.status := 4 })) ∧
  (∀ (s : State) (off tries : Nat) (d : Bytes), wfCsProgram d = true → off % 256 = 0 → off < 0x1000000 →
    csProtected s off = false → tries ≤ 4 → exec (.csProgram off d tries) s = .next (commit s
      { s with cairn.rows := tset s.cairn.rows (off / 256) d, cairn.status := 0,
               cairn.weak := s.cairn.weak.filter (· != off / 4096) })) ∧
  (∀ (s : State) (off tries : Nat) (d : Bytes), wfCsProgram d = true → off % 256 = 0 → off < 0x1000000 →
    csProtected s off = false → 4 < tries → 9 ≤ getF s Reg.valCairnStatusSparesLeft →
    ∃ t, exec (.csProgram off d tries) s = .next t ∧ t.cairn.status = 1 ∧
      t.cairn.remapped = s.cairn.remapped ++ [off / 4096] ∧
      getF t Reg.valCairnStatusSparesLeft = getF s Reg.valCairnStatusSparesLeft - 1 ∧ t.log = s.log) ∧
  (∀ (s : State) (off tries : Nat) (d : Bytes), wfCsProgram d = true → off % 256 = 0 → off < 0x1000000 →
    csProtected s off = false → 4 < tries → getF s Reg.valCairnStatusSparesLeft = 0 →
    ∃ t, exec (.csProgram off d tries) s = .next t ∧ t.cairn.status = 2 ∧ tget t.cairn.rows (off / 256) = none ∧
      off / 4096 ∈ t.cairn.weak) ∧
  (∀ (s : State) (off len : Nat) (g r : Bytes), wfCsVerify g = true → off + len ≤ 0x1000000 →
    exec (.csVerify off len g r) s = .next (commit s
      { s with cairn.status := if r.length = len ∧ sha384 r = g then 0 else 5 })) ∧
  (∀ (s : State) (n : Nat), n < 2 → bankRunning s ≠ some n →
    ∃ t, exec (.csCommit (.bank n) true) s = .next t ∧ (bankOf t n).committed = true ∧ t.cairn.status = 0 ∧
      bankOf t (1 - n) = bankOf s (1 - n)) ∧
  (∀ (s : State) (n : Nat), n < 2 → bankRunning s ≠ some n →
    exec (.csCommit (.bank n) false) s = .next (commit s { s with cairn.status := 5 })) ∧
  (∀ (s : State) (b : Nat) (i : BankImage), wfCsBankVerify b = true →
    exec (.csBankVerify b i) s = .next (commit s (if bankOk s i
      then csStatus (setBank2 s b { bankOf s b with secVersion := i.secVersion, build := i.build }) 0 else csStatus s 5))) ∧
  (∀ (s : State) (b : Nat) (i : BankImage), wfCsBankVerify b = true → i.secVersion < fuseSecCounter s →
    exec (.csBankVerify b i) s = .next (commit s { s with cairn.status := 5 })) ∧
  (∀ s : State, exec .csWear s = .next (commit s { s with
    cairn.wearOut := ((List.range 4096).map (tcnt s.cairn.erases)) ++ [getF s Reg.valCairnStatusSparesLeft],
    cairn.status := 0 }))

/-- R237, R244, R246, R248, Table 8-10: a repaired line holds the good data and is poisoned no more, one that no
source could repair is poisoned; counts leave their windows; the patrol writes back a word that it has corrected, passes to
the next, and skips a channel out of service; an SRAM word with one bad bit is counted, and one with two in a clean summit slot is filled again. -/
def Obligations.Protection : Prop :=
  (∀ (s : State) (l k : Nat) (d : Bytes), wfLineRepairDone l = true → tget s.code.repairing l = some k → k ≠ 2 →
    exec (.lineRepairDone l (some d)) s = .next (commit s (runAll (lineGood s l (bfit d 64)))) ∧
    lineBad (lineGood s l (bfit d 64)) l = false) ∧
  (∀ (s : State) (l : Nat) (d : Option Bytes), wfLineRepairDone l = true → tget s.code.repairing l = some 2 →
    exec (.lineRepairDone l d) s = .next (commit s (runAll (repairFromPage s l d)))) ∧
  (∀ (s : State) (l k : Nat), wfLineRepairDone l = true → tget s.code.repairing l = some k → k ≠ 2 →
    exec (.lineRepairDone l none) s = .next (commit s
      (runAll (poisonLine { s with code.repairing := tdel s.code.repairing l } l))) ∧
    lineBad (poisonLine { s with code.repairing := tdel s.code.repairing l } l) l = true) ∧
  (∀ s : State, ∃ t, exec (.faultWindowBucket true) s = .next t ∧ (∀ x ∈ t.code.win.word, x.2 ≠ [] ∧ ∀ y ∈ x.2, in24h t y = true) ∧
    (∀ x ∈ t.code.win.row, ∀ y ∈ x.2, in24h t y.2 = true) ∧ t.code.win.rank = s.code.win.rank ∧ t.regs = s.regs) ∧
  (∀ s : State, ∃ t, exec (.faultWindowBucket false) s = .next t ∧
    (∀ x ∈ t.code.win.rank, ∀ y ∈ x.2, in1h t y.2.2 = true) ∧ t.code.win.word = s.code.win.word) ∧
  (∀ (s : State) (w : Bytes), wfScrubStep w = true → isSet s Reg.campCodeCfgScrubEn = false →
    exec (.scrubStep w) s = .next (commit s s)) ∧
  (∀ (s : State) (w : Bytes), wfScrubStep w = true → isSet s Reg.campCodeCfgScrubEn = true →
    chState s (campLoc s s.code.patrol).ch ≠ 2 → s.code.patrol + 64 < campGib s * 2 ^ 30 →
    ∃ t, exec (.scrubStep w) s = .next t ∧ t.code.patrol = s.code.patrol + 64 ∧ t.camp.ch = s.camp.ch ∧
      t.range.slabs = s.range.slabs ∧ ∀ a, memGet t.range.mem a = memGet s.range.mem a) ∧
  (∀ (s : State) (w : Bytes), wfScrubStep w = true → isSet s Reg.campCodeCfgScrubEn = true → campGib s ≠ 0 →
    chState s (campLoc s s.code.patrol).ch = 2 →
    let m := (tget s.code.marked (rankKey (campLoc s s.code.patrol))).map (·.1)
    let u := wordRead (scrubTaken s) s.code.patrol w true
    (∀ e, decodeWord (w.map (·.toNat)) m = .corrected e →
      exec (.scrubStep w) s = .next (commit s (runAll (scrubAsk (patrolNext (scrubWrite u s.code.patrol)))))) ∧
    ((∀ e, decodeWord (w.map (·.toNat)) m ≠ .corrected e) →
      exec (.scrubStep w) s = .next (commit s (runAll (scrubAsk (patrolNext u)))))) ∧
  (∀ (s : State) (st : SramStore) (a : Nat), isSet s Reg.campCodeCfgScrubEn = true → tget s.code.win.sram (sramKey st a) = none →
    1 < getF s Reg.campCodeCfgSramThresh →
    ∃ t, exec (.sramScrubStep st a 1) s = .next t ∧ tget t.code.win.sram (sramKey st a) = some [s.timebase] ∧
      t.code.soft = s.code.soft ∧ t.code.disabled = s.code.disabled ∧
      getF t Reg.fabSramStatusSecCorr = min (getF s Reg.fabSramStatusSecCorr + 1) (2 ^ Reg.fabSramStatusSecCorr.w - 1)) ∧
  (∀ (s : State) (st : SramStore) (a bad : Nat), isSet s Reg.campCodeCfgScrubEn = true → 2 ≤ bad →
    exec (.sramScrubStep st a bad) s = .next (commit s
      (runAll (sramLasting (sramUncorrectable (bumpF s Reg.fabSramStatusUncorr) st a) st a)))) ∧
  (∀ (s : State) (n : Nat), (sramUncorrectable s (.keySlot n) 0).key.slots =
    tmod s.key.slots n (fun k => { k with keyLost := true })) ∧
  (∀ (s : State) (st : SramStore) (a : Nat), isSet s Reg.campCodeCfgScrubEn = true →
    exec (.sramScrubStep st a 0) s = .next (commit s s))

/-- R256 to R258, R261, R266: a fill that ends puts its line in its slot; an admitted eviction counts and lets the
fill's read follow; raising LOCK_WAYS queues a clean of each new way and holds when the last one ends; a way that has
been cleaned to be switched off goes off with its domain. -/
def Obligations.Summit : Prop :=
  (∀ (s : State) (l key : Nat), wfSummitFillDone l = true → tget s.sum.fills l = some key →
    (s.sum.evicting.any fun x => x.2 == key) = false → zeroLine s l = false →
    bitF s Reg.sumStatusWaysOn (key % 16) = true → key ∉ s.code.disabled → s.sum.stopped = false →
    let u := { s with sum.fills := tdel s.sum.fills l }
    exec (.summitFillDone l) s = .next (commit s (runAll (sumTouch
      { u with sum.lines := tset s.sum.lines key { line := l, poison := lineBad s l } } key)))) ∧
  (∀ (s : State) (l key : Nat), wfSummitFillDone l = true → tget s.sum.fills l = some key →
    (s.sum.evicting.any fun x => x.2 == key) = false →
    (bitF s Reg.sumStatusWaysOn (key % 16) = false ∨ key ∈ s.code.disabled ∨ s.sum.stopped = true) →
    exec (.summitFillDone l) s = .next (commit s (runAll { s with sum.fills := tdel s.sum.fills l }))) ∧
  (∀ (s : State) (l : Nat), wfSummitFillDone l = true → tget s.sum.fills l = none →
    exec (.summitFillDone l) s = .next (commit s s)) ∧
  (∀ (s : State) (l key : Nat), wfDirtyEvictAdmitted l = true → tget s.sum.evicting l = some key →
    (s.sum.fills.find? fun x => x.2 == key) = none →
    exec (.dirtyEvictAdmitted l) s = .next (commit s (runAll (campAsk
      (bumpF { s with sum.evicting := tdel s.sum.evicting l } Reg.sumEvictDirtyEvict) true .demand 0 0 l)))) ∧
  (∀ (s : State) (l key : Nat) (f : Nat × Nat), wfDirtyEvictAdmitted l = true → tget s.sum.evicting l = some key →
    (s.sum.fills.find? fun x => x.2 == key) = some f →
    let u := campAsk (bumpF { s with sum.evicting := tdel s.sum.evicting l } Reg.sumEvictDirtyEvict) true .demand 0 0 l
    exec (.dirtyEvictAdmitted l) s = .next (commit s
      (runAll (campAsk u false (waiterOf u f.1).1 (waiterOf u f.1).2 0 f.1)))) ∧
  (∀ (s : State) (off : Nat) (d : Bytes), wfLockWaysWrite off d = true → s.mgmt.linkUp = true →
    exec (.lockWaysWrite off d) s = .next (commit s (windowReg s off d))) ∧
  (∀ (s : State) (off : Nat) (d : Bytes), wfLockWaysWrite off d = true → s.mgmt.linkUp = false →
    exec (.lockWaysWrite off d) s = .next (commit s s)) ∧
  (∀ (s : State) (v : Nat), lockWaysBad s v = true → lockWaysSet s v = s) ∧
  (∀ (s : State) (v : Nat), lockWaysBad s v = false → lockWays s < v → s.sum.raising = none → s.sum.walks = [] →
    lockWays (lockWaysSet s v) = lockWays s ∧ (lockWaysSet s v).sum.raising = some v ∧
    (lockWaysSet s v).sum.walks = (span (lockWays s + 1) (v + 1)).map Walk.lock) ∧
  (∀ s : State, s.sum.walks = [] → exec .wayCleanDone s = .next (commit s s)) ∧
  (∀ (s : State) (w v : Nat), s.sum.walks = [.lock w] → s.sum.raising = some v → v ≤ 8 →
    (∀ k ∈ tkeys s.sum.lines, k % 16 ≠ w) →
    ∃ t, exec .wayCleanDone s = .next t ∧ lockWays t = v ∧ t.sum.walks = [] ∧ t.sum.raising = none ∧
      isSet t Reg.sumStatusCleaning = false ∧ t.sum.lines = s.sum.lines) ∧
  (∀ (s : State) (w : Nat), s.sum.walks = [.off w none] → w < 16 → (∀ k ∈ tkeys s.sum.lines, k % 16 ≠ w) →
    ∃ t, exec .wayCleanDone s = .next t ∧ bitF t Reg.sumStatusWaysOn w = false ∧ domOn t (42 + w) = false ∧
      t.sum.lines = s.sum.lines)

/-- R274, R276, R281, R282, R290, R439: the cipher engine ends its oldest request: the last unit of a title READ lets
the READ answer, a bad tag stops it, a request of a slot whose key is lost waits, one ends in no gated pipeline, and the end of
one of 4,096 lets what waited for the queue in; a derived key is held again once
its root is; a root that was lost is unwrapped from its blob; a self-test that passes is marked and one that fails
takes its unit out of use. -/
def Obligations.Keys : Prop :=
  (∀ s : State, ∀ ok, s.key.queue = [] → exec (.cipherRequestDone ok) s = .next (commit s s)) ∧
  (∀ (s : State) (ok : Bool) (r : CipherReq) (rest : List CipherReq) (k : KeySlot), s.key.queue = r :: rest →
    tget s.key.slots r.slot = some k → k.keyLost = true → thas s.key.roots k.root = true → s.key.queue.length < 4096 →
    exec (.cipherRequestDone ok) s = .next (commit s s)) ∧
  (∀ (s : State) (r : CipherReq) (rest : List CipherReq) (k : KeySlot) (c m u : Nat) (ok : Bool), s.key.queue = r :: rest →
    tget s.key.slots r.slot = some k → k.keyLost = false → r.use = .title c m u → cipherAwake s = true →
    s.key.queue.length < 4096 →
    exec (.cipherRequestDone ok) s = .next (commit s (titleDone { s with key.queue := rest } r.slot c m u ok))) ∧
  (∀ (s : State) (r : CipherReq) (rest : List CipherReq) (k : KeySlot) (t u : Nat) (ok : Bool), s.key.queue = r :: rest →
    tget s.key.slots r.slot = some k → k.keyLost = false → r.use = .unseal t u → cipherAwake s = true →
    s.key.queue.length < 4096 →
    exec (.cipherRequestDone ok) s = .next (commit s
      (unsealDone (countUnits { s with key.queue := rest } r.slot 1) r.slot t u ok))) ∧
  (∀ (s : State) (ok : Bool), cipherAwake s = false → s.key.queue.length < 4096 →
    exec (.cipherRequestDone ok) s = .next (commit s s)) ∧
  (∀ (s : State) (ok : Bool), 4096 ≤ s.key.queue.length →
    exec (.cipherRequestDone ok) s = .next (commit s (workWakes (cipherDone s ok)))) ∧
  (∀ (s : State) (r : CipherReq) (rest : List CipherReq) (c m u : Nat) (ok : Bool), s.key.queue = r :: rest →
    tget s.key.slots r.slot = none → r.use = .title c m u → cipherAwake s = true → s.key.queue.length < 4096 →
    exec (.cipherRequestDone ok) s = .next (commit s
      (integrityStop (logEv { s with key.queue := rest } srcKey .internalFault noUnit [r.slot]) (connIdx c) m))) ∧
  (∀ (s : State) (n : Nat) (k : KeySlot) (r : RootKey) (b : Bytes), wfKeyDerivationDone n = true → tget s.key.slots n = some k →
    tget s.key.roots k.root = some r → r.key = some b →
    exec (.keyDerivationDone n) s =
      .next (commit s { s with key.slots := tset s.key.slots n { k with rootKey := b, keyLost := false } })) ∧
  (∀ (s : State) (n : Nat) (r : RootKey) (b : Bytes), wfRootReunwrap n = true → tget s.key.roots n = some r → r.key = none →
    tget s.key.blobs n = some b →
    exec (.rootReunwrap n) s = .next (commit s (runAll (loadBlob s n b)))) ∧
  (∀ (s : State) (n : Nat) (r : RootKey), wfRootReunwrap n = true → tget s.key.roots n = some r → r.key.isSome = true →
    exec (.rootReunwrap n) s = .next (commit s s)) ∧
  (∀ (s : State) (u : Nat), wfKnownAnswerTest u = true →
    exec (.knownAnswerTest false u true) s = .next (commit s { s with key.pipePass := tset s.key.pipePass u s.timebase })) ∧
  (∀ (s : State) (u : Nat), u < 16 →
    exec (.knownAnswerTest true u true) s = .next (commit s { s with key.unitPass := tset s.key.unitPass u s.timebase })) ∧
  (∀ (s : State) (u : Nat), u < 16 → ∃ t, exec (.knownAnswerTest true u false) s = .next t ∧ u ∈ t.key.unitsOut ∧
    t.key.pipesOut = s.key.pipesOut) ∧
  (∀ (s : State) (u : Nat), wfKnownAnswerTest u = true →
    ∃ t, exec (.knownAnswerTest false u false) s = .next t ∧ u ∈ t.key.pipesOut ∧ t.key.unitsOut = s.key.unitsOut)

/-! ## The rope team (11) -/

/-- R304, R315, R316: an instance that is down takes no frame; one of a lower epoch is dropped and counted; a
sequenced frame is taken only at the expected sequence, which then moves on; an acknowledgement releases what it
covers; the retransmit timer sends the held frames again, and after 7 retries the ladder trains the instance; an
instance that is down stays down until its training ends; a lane that fails leaves a narrower instance where the
partner agrees, and trains again where it does not. R319, R338, R339: the Lead answers a fill request from the payloads it keeps; fill data takes the
place of the Second's own copy; a repair fetch is answered at once, a line fetch when every record received has been
applied; an answer is taken; a repair that is not answered in time is counted, and poisons the line that waited; a
record that waited 50 µs for its payload asks for a fill. -/
def Obligations.RopeFramesAndFills : Prop :=
  (∀ (s : State) (h : RopeHdr) (b : Bool), (ropeInst s h.inst).up = false → ropeIn s h b = (s, false)) ∧
  (∀ (s : State) (h : RopeHdr) (b : Bool), (ropeInst s h.inst).up = true → s.start.inReset = false → h.epoch < s.cairn.epoch →
    ropeIn s h b = ({ s with rope.oldEpoch := s.rope.oldEpoch + 1 }, false)) ∧
  (∀ (s : State) (h : RopeHdr), (ropeInst s h.inst).up = true → s.start.inReset = false → h.epoch = s.cairn.epoch →
    h.seq = (ropeInst s h.inst).rx → (ropeIn s h true).2 = true ∧
      (ropeInst (ropeIn s h true).1 h.inst).rx = psnNext h.seq ∧ (ropeIn s h true).1.conns = s.conns ∧
      (ropeIn s h true).1.tables = s.tables) ∧
  (∀ (s : State) (h : RopeHdr), (ropeInst s h.inst).up = true → s.start.inReset = false → h.epoch = s.cairn.epoch →
    h.seq ≠ (ropeInst s h.inst).rx → (ropeIn s h true).2 = false ∧
      (ropeInst (ropeIn s h true).1 h.inst).rx = (ropeInst s h.inst).rx) ∧
  (∀ (s : State) (h : RopeHdr), wfRopeAck h = true → (ropeInst s h.inst).up = true → s.start.inReset = false →
    h.epoch = s.cairn.epoch → ∃ t, exec (.ropeAck h) s = .next t ∧
      (ropeInst t h.inst).held = (ropeInst s h.inst).held.filter (fun f => ! psnBehind f.seq h.ack) ∧
      t.port = s.port ∧ t.tables = s.tables) ∧
  (∀ (s : State) (i b : Nat), wfRopeRetransmitTimer i = true → (ropeInst s i).timer = some b → (ropeInst s i).up = true →
    (ropeInst s i).retry < 7 → exec (.ropeRetransmitTimer i) s = .next (commit s
      (ropeAgain (setRopeInst (reach s b) i { ropeInst s i with retry := (ropeInst s i).retry + 1 }) i))) ∧
  (∀ (s : State) (i b : Nat), wfRopeRetransmitTimer i = true → (ropeInst s i).timer = some b → (ropeInst s i).up = true →
    7 ≤ (ropeInst s i).retry → exec (.ropeRetransmitTimer i) s = .next (commit s
      (returnOver (reach s b) (rung2 (reach s b) (fnKey 7 i) false)))) ∧
  (∀ (s : State) (i : Nat), wfRopeInstanceDown i = true → (ropeInst s i).up = false →
    exec (.ropeInstanceDown i) s = .next (commit s s)) ∧
  (∀ (s : State) (i : Nat), wfRopeInstanceDown i = true →
    exec (.ropeInstanceDown i) s = .next (commit s (returnOver s (instDown s i)))) ∧
  (∀ (s : State) (i : Nat), wfRopeInstanceDown i = true → (ropeInst s i).up = true → (ropeInst s (1 - i)).up = true →
    (ropeInst s i).held = [] → ∃ t, exec (.ropeInstanceDown i) s = .next t ∧ (ropeInst t i).up = false ∧
      (ropeInst t (1 - i)).up = true ∧ team t = team s ∧ role t = role s) ∧
  (∀ (s : State) (i : Nat), wfRopeInstanceUp i = true → (ladFn s (fnKey 7 i)).held = false → s.fab.sdOk = true →
    (ropeInst s i).up = false → s.start.inReset = false →
    exec (.ropeInstanceUp i) s = .next (commit s (rungOk (instUp s i) (fnKey 7 i)))) ∧
  (∀ (s : State) (i : Nat), wfRopeInstanceUp i = true →
    ((ladFn s (fnKey 7 i)).held = true ∨ s.fab.sdOk = false ∨ (ropeInst s i).up = true ∨ s.start.inReset = true) →
    exec (.ropeInstanceUp i) s = .next (commit s s)) ∧
  (∀ (s : State) (i lane : Nat), wfRopeLaneLoss i lane = true → (ropeInst s i).up = true → (ropeInst s i).lanes ≠ 4 →
    ∃ t, exec (.ropeLaneLoss i lane true) s = .next t ∧ (ropeInst t i) = { ropeInst s i with lanes := 4 } ∧
      team t = team s) ∧
  (∀ (s : State) (i lane : Nat) (b : Bool), wfRopeLaneLoss i lane = true → (ropeInst s i).up = true →
    (b = false ∨ (ropeInst s i).lanes = 4) →
    let u := logEv s srcRope .ropeLaneLoss i [i, lane] true
    exec (.ropeLaneLoss i lane b) s = .next (commit s (returnOver u (instDown u i)))) ∧
  (∀ (s : State) (i lane : Nat) (b : Bool), wfRopeLaneLoss i lane = true → (ropeInst s i).up = false →
    exec (.ropeLaneLoss i lane b) s = .next (commit s s)) ∧
  (∀ (s u : State) (h : RopeHdr) (i : Nat) (d : Bytes), wfFillReq h = true → ropeIn s h true = (u, true) →
    tget u.rope.payload i = some d → tget u.rope.sent i = none →
    exec (.fillReq h [i]) s = .next (commit s (ropeSend u true (.fillData i 0 d)))) ∧
  (∀ (s u : State) (h : RopeHdr) (i x rel ty aop conn msn key addr status len digest : Nat) (ap w sg : Bool) (res d : Bytes),
    wfFillReq h = true → ropeIn s h true = (u, true) → tget u.rope.payload i = some d →
    tget u.rope.sent i = some ⟨x, rel, .operation ap w sg ty aop conn msn key addr status len digest res⟩ →
    exec (.fillReq h [i]) s = .next (commit s
      (ropeSend (campLines u false .ropeApply 0 (linesOf addr len)) true (.fillData i 0 d)))) ∧
  (∀ (s u : State) (h : RopeHdr) (i : Nat), wfFillReq h = true → ropeIn s h true = (u, true) →
    tget u.rope.payload i = none → exec (.fillReq h [i]) s = .next (commit s u)) ∧
  (∀ (s u : State) (h : RopeHdr) (i : Nat) (d : Bytes), wfFillData h = true → ropeIn s h true = (u, true) →
    isSecond u = true → u.rope.applied < i → tget u.rope.payload i = none → i ∉ u.rope.filled →
    exec (.fillData h i 0 d) s = .next (commit s
      { u with rope.payload := tset u.rope.payload i d, rope.filled := u.rope.filled ++ [i] })) ∧
  (∀ (s : State) (i b : Nat) (rest : Tab Nat), s.rope.fillAt = (i, b) :: rest → tget s.rope.recs i = none →
    exec .fillWaitExpiry s = .next (commit s (reach { s with rope.fillAt := tdel s.rope.fillAt i } b))) ∧
  (∀ (s : State) (i b x rel aop msn key addr status len digest : Nat) (rest : Tab Nat) (ap w sg : Bool) (res : Bytes),
    s.rope.fillAt = (i, b) :: rest →
    tget s.rope.recs i = some ⟨x, rel, .operation ap w sg tyWrite aop 0 msn key addr status len digest res⟩ →
    let u := reach { s with rope.fillAt := tdel s.rope.fillAt i } b
    ((recPayload u i 0 msn digest).1.isSome = false → exec .fillWaitExpiry s = .next (commit s
      (ropeSend { bumpF u Reg.rlStatusFills with rope.filled := u.rope.filled ++ [i] } true (.fillReq [i])))) ∧
    ((recPayload u i 0 msn digest).1.isSome = true → exec .fillWaitExpiry s = .next (commit s u))) ∧
  (∀ s : State, s.rope.fillAt = [] → exec .fillWaitExpiry s = .next (commit s s)) ∧
  (∀ (s u : State) (h : RopeHdr) (f : Fetch), wfFetchReq h = true → ropeIn s h true = (u, true) → f.published = true →
    exec (.fetchReq h f) s = .next (commit s (answerFetch u f))) ∧
  (∀ (s u : State) (h : RopeHdr) (f : Fetch), wfFetchReq h = true → ropeIn s h true = (u, true) → f.published = false →
    allApplied u = false →
    exec (.fetchReq h f) s = .next (commit s { u with rope.fetches := u.rope.fetches ++ [(f, u.rope.applied)] })) ∧
  (∀ (s u : State) (h : RopeHdr) (f : Fetch), wfFetchReq h = true → ropeIn s h true = (u, true) → f.published = false →
    allApplied u = true → u.rope.fetches = [] → u.rope.recopy = [] →
    exec (.fetchReq h f) s = .next (commit s
      { answerFetch { u with rope.fetches := [] } f with rope.recopy := [] })) ∧
  (∀ (s u : State) (h : RopeHdr) (f : Fetch) (a : FetchAnswer), wfFetchData h = true → ropeIn s h true = (u, true) →
    exec (.fetchData h f a) s = .next (commit s (fetched u f a))) ∧
  (∀ (s : State) (n b : Nat), wfRepairTimeout n = true → tget s.rope.repairAt n = some b →
    (∀ x ∈ s.code.repairing, x.1 / 256 = n → x.2 ≠ 4) →
    let u := reach { s with rope.repairAt := tdel s.rope.repairAt n } b
    exec (.repairTimeout n) s = .next (commit s
      (runAll (logEv (bumpF u Reg.rlStatusRepairTimeouts) srcRope .repairTimeout noUnit [n])))) ∧
  (∀ (s : State) (n b l : Nat), wfRepairTimeout n = true → tget s.rope.repairAt n = some b →
    s.code.repairing = [(l, 4)] → l / 256 = n →
    let u := reach { s with rope.repairAt := tdel s.rope.repairAt n } b
    let v := poisonLine { u with code.repairing := tdel u.code.repairing l } l
    exec (.repairTimeout n) s = .next (commit s
      (runAll (logEv (bumpF v Reg.rlStatusRepairTimeouts) srcRope .repairTimeout noUnit [n])))) ∧
  (∀ (s : State) (n : Nat), wfRepairTimeout n = true → tget s.rope.repairAt n = none →
    exec (.repairTimeout n) s = .next (commit s s))

/-- R317, R318, R321, R334, Table 11-7: the Second keeps the records of an ORDER frame that it has not applied, and
applies them strictly in index order, each by its own kind; what is not next changes nothing; a HANDOVER that names
the applied index passes the token; CONFIRM at the Lead lets what waited go. -/
def Obligations.OrderStream : Prop :=
  (∀ (s u : State) (h : RopeHdr) (r : OrderRec), wfOrder h [r] = true → ropeIn s h true = (u, true) → isSecond u = true →
    u.rope.applied < r.idx → u.rope.recs = [] →
    exec (.order h [r]) s = .next (commit s { u with
      rope.recs := [(r.idx, r)], rope.release := max u.rope.release r.release })) ∧
  (∀ (s u : State) (h : RopeHdr) (l : List OrderRec), wfOrder h l = true → ropeIn s h true = (u, false) →
    exec (.order h l) s = .next (commit s u)) ∧
  (∀ (s u : State) (h : RopeHdr) (l : List OrderRec), wfOrder h l = true → ropeIn s h true = (u, true) →
    isSecond u = false → exec (.order h l) s = .next (commit s u)) ∧
  (∀ s : State, nextRec s = none → ∀ c, (c = .operation ∨ c = .command ∨ c = .topo ∨ c = .chain ∨ c = .partMsg ∨
      c = .ivReserve ∨ c = .epochMark ∨ c = .handover) → exec c s = .next (commit s s)) ∧
  (∀ (s : State) (r : OrderRec), nextRec s = some r →
    (∀ op tag who nums body, r.body = .command op tag who nums body →
      exec .command s = .next (commit s (appliedTo (applyBody s r.body) r.idx)) ∧ exec .topo s = .next (commit s s)) ∧
    (∀ n m, r.body = .topo n m → exec .topo s = .next (commit s (appliedTo (setMarker s n m) r.idx))) ∧
    (∀ q ev conn msn, r.body = .chain q ev conn msn →
      exec .chain s = .next (commit s (appliedTo (applyChain s q ev conn msn) r.idx))) ∧
    (∀ conn msn code qual detail p, r.body = .partMsg conn msn code qual detail p →
      exec .partMsg s = .next (commit s
        (appliedTo (modConn s (connIdx conn) fun c => { c with partMsn := msnAdd msn 1 }) r.idx))) ∧
    (∀ conn limit, r.body = .ivReserve conn limit → exec .ivReserve s = .next (commit s
      (appliedTo { s with rope.ivRes := tset s.rope.ivRes (connIdx conn) limit } r.idx))) ∧
    (∀ b, r.body = .epochMark b → exec .epochMark s = .next (commit s (appliedTo s r.idx))) ∧
    (∀ last, r.body = .handover last → last = s.rope.applied →
      exec .handover s = .next (commit s (clockFence (takeHandover (appliedTo s r.idx) r.idx)))) ∧
    (∀ last, r.body = .handover last → last ≠ s.rope.applied → exec .handover s = .next (commit s s))) ∧
  (∀ (s : State) (r : OrderRec) (w sg : Bool) (ty aop conn msn key addr status len digest : Nat) (res : Bytes),
    nextRec s = some r → r.body = .operation false w sg ty aop conn msn key addr status len digest res →
    exec .operation s = .next (commit s (appliedTo (recordDone s conn msn (recPkt ty conn msn key addr len)) r.idx))) ∧
  (∀ (s : State) (r : OrderRec) (w sg : Bool) (conn msn key addr len digest : Nat) (f : Bool), len ≠ 0 →
    nextRec s = some r → r.body = .operation true w sg tyWrite 0 conn msn key addr 0 len digest [] →
    recPayload s r.idx conn msn digest = (none, f) →
    exec .operation s = .next (commit s (awaitFill s r.idx conn f))) ∧
  (∀ (s : State) (r : OrderRec) (w sg : Bool) (conn msn key addr len digest : Nat) (d : Bytes), len ≠ 0 →
    nextRec s = some r → r.body = .operation true w sg tyWrite 0 conn msn key addr 0 len digest [] →
    recPayload s r.idx conn msn digest = (some d, false) → (slabsOf addr d.length).all (applyReady s addr d.length) = true →
    writeThrough s = true →
    exec .operation s = .next (commit s
      (appliedTo (recordDone (destagePlan (writeRange s conn addr d)) conn msn (recPkt tyWrite conn msn key addr len)) r.idx))) ∧
  (∀ (s u : State) (h : RopeHdr) (idx : Nat), wfConfirm h idx = true → ropeIn s h false = (u, true) → hasSecond u = true →
    u.rope.confirmed < idx → idx ≤ u.rope.index → (confirmTaken u idx).rope.handover = none →
    exec (.confirm h idx) s = .next (commit s (handoverDone (runAll (confirmTaken u idx))))) ∧
  (∀ (s u : State) (h : RopeHdr) (idx : Nat), wfConfirm h idx = true → ropeIn s h false = (u, true) →
    (hasSecond u = false ∨ idx ≤ u.rope.confirmed ∨ u.rope.index < idx) → exec (.confirm h idx) s = .next (commit s u))

/-- R323 to R325, R327, R435, R436, R30, Table 11-8: a renewal moves the Second's expiry to 200 µs from its arrival and is
acknowledged by both paths; an acknowledgement moves the Lead's lease end to 200 µs from that renewal's sending; the
Lead fences at its lease end; the Second waits 30 µs after its expiry, or 107 µs on its internal oscillator, and then
takes over; a Lead that has lost its clock stops renewing, fences and departs; a departure word lets a Lead go on alone; 50 µs without a belay word clears BELAY_UP. -/
def Obligations.Lease : Prop :=
  (∀ (s u : State) (h : RopeHdr) (n : Nat), wfRenew n = true → ropeIn s h false = (u, true) → isSecond u = true →
    ∃ t, exec (.renew (.rope h) n) s = .next t ∧ t.rope.expiry = some (u.timebase + us 200) ∧ t.rope.guard = none ∧
      t.rope.renewSeq = n ∧ t.pins.belayOut = u.pins.belayOut ++ [belayWord belayAck u.pins.twinId n] ∧ t.tables = s.tables) ∧
  (∀ (s : State) (w : BitVec 32) (n : Nat), wfRenew n = true → belayCrcOk w = false →
    exec (.renew (.belay w) n) s = .next (commit s s)) ∧
  (∀ (s : State) (w : BitVec 32) (n b : Nat), wfRenewAck n = true → belayOk s w belayAck = true → hasSecond s = true →
    s.rope.handover = none → tget s.rope.renewAt (belaySeqOf w) = some b →
    ∃ t, exec (.renewAck (.belay w) n) s = .next t ∧
      t.rope.leaseEnd = some (max (s.rope.leaseEnd.getD 0) (b + us 200)) ∧ isSet t Reg.rlStatusBelayUp = true) ∧
  (∀ (s u : State) (h : RopeHdr) (n : Nat), wfRenewAck n = true → ropeIn s h false = (u, true) → hasSecond u = false →
    exec (.renewAck (.rope h) n) s = .next (commit s u)) ∧
  (∀ s : State, hasSecond s = true → isSet s Reg.fabTbStatusClkLoss = true →
    exec .renewalTimer s = .next (commit s (departFenced s))) ∧
  (∀ s : State, hasSecond s = true → s.rope.handover = none → isSet s Reg.fabTbStatusClkLoss = false →
    ∃ t, exec .renewalTimer s = .next t ∧ t.rope.renewSeq = (s.rope.renewSeq + 1) % 65536 ∧
      tget t.rope.renewAt t.rope.renewSeq = some s.timebase ∧
      t.pins.belayOut = s.pins.belayOut ++ [belayWord belayRenew s.pins.twinId t.rope.renewSeq]) ∧
  (∀ s : State, hasSecond s = false → exec .renewalTimer s = .next (commit s s)) ∧
  (∀ (s : State) (b : Nat), s.rope.leaseEnd = some b → hasSecond s = true → s.rope.handover = none →
    ∃ t, exec .leaseEnd s = .next t ∧ t.rope.fenced = true ∧ role t = roleFenced ∧ team t = teamFenced ∧
      t.rope.leaseEnd = none ∧ b ≤ t.timebase ∧ t.port.wire = s.port.wire) ∧
  (∀ (s : State) (b : Nat), s.rope.expiry = some b → isSecond s = true →
    ∃ t, exec .leaseExpiry s = .next t ∧ t.rope.expiry = none ∧
      t.rope.guard = some (b + us (if isSet s Reg.fabTbStatusClkLoss then 107 else 30)) ∧ role t = role s) ∧
  (∀ (s : State) (g : Nat), s.rope.guard = some g → isSecond s = true →
    exec .guardEnd s = .next (commit s (takeover (reach { s with rope.guard := none } g)))) ∧
  (∀ s : State, s.rope.guard = none → s.rope.expiry = none → s.rope.leaseEnd = none →
    exec .guardEnd s = .next (commit s s) ∧ exec .leaseExpiry s = .next (commit s s) ∧ exec .leaseEnd s = .next (commit s s)) ∧
  (∀ (s : State) (w : BitVec 32), belayOk s w belayDepart = true →
    exec (.departure w) s = .next (commit s (departed (belayHeard s)))) ∧
  (∀ (s : State) (b : Nat), s.rope.lastWord = some b → isSet s Reg.rlStatusBelayUp = true →
    ∃ t, exec .belayWiresLost s = .next t ∧ isSet t Reg.rlStatusBelayUp = false ∧ t.rope.lastWord = none ∧
      b + us 50 ≤ t.timebase)

/-- R305, R330 to R335, R328, R329, R436: HELLO on the rope link is weighed and on the belay wires shows a twin; a
negotiation that ends alone opens single only where the part may, else waits; a catch-up slab waits for its stamp; a
control frame does what it carries; a return starts from a ROPED Lead and is asked for by the preferred Lead after
its hold-off; an ended hold lets a roped request complete with SINGLE_COPY; the mark timer saves the bitmap. -/
def Obligations.TeamJoin : Prop :=
  (∀ (s u : State) (r : RopeHdr) (h : Hello), (ropeIn s { r with epoch := max r.epoch s.cairn.epoch } true) = (u, true) →
    exec (.hello (some r) h) s = .next (commit s (weigh { u with cairn.epoch := s.cairn.epoch } h))) ∧
  (∀ (s : State) (h : Hello), team s ≠ teamNegotiating → ∃ t, exec (.hello none h) s = .next t ∧
    isSet t Reg.rlStatusBelayUp = true ∧ t.rope.lastWord = some s.timebase ∧ team t = team s ∧ role t = role s) ∧
  (∀ (s : State) (h : Hello), isSecond s = false → serviceOpen s = true → h.serving = true → silent s = false →
    weigh s h = s) ∧
  (∀ (s : State) (b : Nat), s.rope.helloAt = some b → team s = teamNegotiating → isSet s Reg.rlCfgSoloOpen = false →
    s.start.soloOrdered = false → ∃ t, exec .negotiateTimeout s = .next t ∧ getF t Reg.fabStartStatusWait = 4 ∧
      role t = role s ∧ team t = team s) ∧
  (∀ (s : State) (b : Nat), s.rope.helloAt = some b → team s = teamNegotiating → isSet s Reg.rlCfgSoloOpen = false →
    s.start.soloOrdered = false → exec .negotiateTimeout s = .next (commit s (setF
      (logEv (reach { s with rope.helloAt := none } b) srcRope .twinAbsent noUnit [] true) Reg.fabStartStatusWait 4))) ∧
  (∀ (s : State) (b : Nat), s.rope.helloAt = some b → team s ≠ teamNegotiating →
    exec .negotiateTimeout s = .next (commit s (reach { s with rope.helloAt := none } b))) ∧
  (∀ (s : State) (b : Nat), s.rope.helloAt = some b → team s = teamNegotiating → isSet s Reg.rlCfgSoloOpen = true →
    ∃ t, exec .negotiateTimeout s = .next t ∧ role t = roleSingle ∧ team t = teamSingle) ∧
  (∀ (s u : State) (h : RopeHdr) (n stamp : Nat) (d : Bytes) (p : List Nat), wfCatchup h n d = true →
    ropeIn s h true = (u, true) → isSecond u = true → u.rope.applied < stamp → u.rope.catchBuf = [] →
    exec (.catchup h n d p stamp) s = .next (commit s { u with rope.catchBuf := [(n, d, p, stamp)] })) ∧
  (∀ (s u : State) (h : RopeHdr) (n stamp : Nat) (d : Bytes) (p : List Nat), wfCatchup h n d = true →
    ropeIn s h true = (u, true) → isSecond u = true → stamp ≤ u.rope.applied → u.rope.catchBuf = [] →
    (slabOf u n).st ≠ .promoting →
    exec (.catchup h n d p stamp) s = .next (commit s (catchupEnd (installSlab { u with rope.catchBuf := [] } n d p)))) ∧
  (∀ (s u : State) (h : RopeHdr) (n stamp : Nat) (d : Bytes) (p : List Nat), wfCatchup h n d = true →
    ropeIn s h true = (u, true) → isSecond u = false → hasSecond u = true →
    exec (.catchup h n d p stamp) s = .next (commit s (recopied u n d p))) ∧
  (∀ (s u : State) (h : RopeHdr) (c : Control), wfControl h = true → ropeIn s h true = (u, true) →
    exec (.control h c) s = .next (commit s (controlIn u c))) ∧
  (∀ (s : State) (l : List Nat), controlIn s (.titleBindings l) = { s with rope.titles := l }) ∧
  (∀ (s u : State) (h : RopeHdr), wfReturnRequest h = true → ropeIn s h true = (u, true) → role u = roleLead →
    team u = teamRoped → exec (.returnRequest h) s = .next (commit s
      (sendCatchup (setTeam u teamReturning) (writtenSlabs u fun o => o.mirror == mirUnroped)))) ∧
  (∀ (s u : State) (h : RopeHdr), wfReturnRequest h = true → ropeIn s h true = (u, true) → team u ≠ teamRoped →
    exec (.returnRequest h) s = .next (commit s u)) ∧
  (∀ (s : State) (b : Nat), s.rope.roped = some b → isSecond s = true → team s = teamRoped →
    isSet s Reg.rlCfgReturnEn = true → s.pins.twinId = getF s Reg.rlCfgPreferred →
    isSet s Reg.fabTbStatusClkLoss = false →
    exec .returnHoldoff s = .next (commit s (ropeSend
      { reach s (b + sec s.rope.holdoff) with rope.returnReq := true } true .returnRequest))) ∧
  (∀ s : State, s.rope.roped = none → exec .returnHoldoff s = .next (commit s s)) ∧
  (∀ (s : State) (i b : Nat), tget s.rope.hold i = some b → s.conns = [] →
    exec (.holdTimeExpiry i) s = .next (commit s (reach { s with rope.hold := tdel s.rope.hold i } b))) ∧
  (∀ (s : State) (i b : Nat), tget s.rope.hold i = some b →
    (∀ x ∈ s.conns, ∀ y ∈ x.2.msgs, ∀ r, y.2.st ≠ .rope i r) →
    exec (.holdTimeExpiry i) s = .next (commit s (reach { s with rope.hold := tdel s.rope.hold i } b))) ∧
  (∀ (s : State) (i : Nat), tget s.rope.hold i = none → exec (.holdTimeExpiry i) s = .next (commit s s)) ∧
  (∀ (s : State) (i b ci msn : Nat) (k : Conn) (m : Msg) (r : Result), tget s.rope.hold i = some b → s.conns = [(ci, k)] →
    k.msgs = [(msn, m)] → m.st = .rope i r →
    exec (.holdTimeExpiry i) s = .next (commit s
      (doneMsg (reach { s with rope.hold := tdel s.rope.hold i } b) ci msn r.single))) ∧
  (∀ s : State, role s = roleLead → silent s = false → team s = teamSingle →
    exec .epochMarkTimer s = .next (commit s (saveMap s))) ∧
  (∀ s : State, role s = roleLead → silent s = false → team s = teamRoped → s.rope.handover = none →
    let u := (order s (.epochMark s.timebase)).1
    exec .epochMarkTimer s = .next (commit s (saveMap { u with rope.oldMap := u.rope.bitmap, rope.bitmap := [] }))) ∧
  (∀ s : State, role s ≠ roleLead → exec .epochMarkTimer s = .next (commit s s))

/-! ## Commands (14) -/

/-- R385 to R391, R394, Table 14-5: the steps of acceptance: a format fault, an unknown opcode, a wrong channel or
scope, a level too low, a missing key, a wrong HMAC and a value already accepted each refuse the command, and change
nothing but the freshness record; a command that passes is held until a guide takes it. R92, R392, R395, R397: a
whole MGMT message hands its command over and completes; a seventeenth command of a connection is BUSY; a command
still executing after 100 ms is answered PENDING, once, and with it every revocation that has joined it; one that no guide takes within 10 ms ends with NO_GUIDE. -/
def Obligations.Acceptance : Prop :=
  (∀ (s : State) (ch : Chan) (b : Bytes) (off : Nat), formatFault b = some off →
    acceptCmd s ch b = (s, { status := scMalformed, detail := off })) ∧
  (∀ (s : State) (ch : Chan) (b : Bytes), formatFault b = none → opInfo (cmdHdr b).op = none →
    acceptCmd s ch b = (s, { status := scUnknownOpcode, detail := (cmdHdr b).op })) ∧
  (∀ (s : State) (ch : Chan) (b : Bytes) (lvl chans : Nat), formatFault b = none →
    opInfo (cmdHdr b).op = some (lvl, chans) → channelOk s ch chans (cmdHdr b) = false →
    acceptCmd s ch b = (s, { status := scChannel })) ∧
  (∀ (s : State) (ch : Chan) (b : Bytes) (lvl chans : Nat), formatFault b = none →
    opInfo (cmdHdr b).op = some (lvl, chans) → channelOk s ch chans (cmdHdr b) = true →
    (cmdHdr b).level < needsLevel s (cmdHdr b) (bsub b 32 (cmdHdr b).plen) lvl →
    (acceptCmd s ch b).1 = s ∧ (acceptCmd s ch b).2.status = scAuthority) ∧
  (∀ (s : State) (ch : Chan) (b k : Bytes) (lvl chans : Nat), formatFault b = none →
    opInfo (cmdHdr b).op = some (lvl, chans) → channelOk s ch chans (cmdHdr b) = true →
    needsLevel s (cmdHdr b) (bsub b 32 (cmdHdr b).plen) lvl ≤ (cmdHdr b).level → (cmdHdr b).level ≠ 0 →
    keyFor s (cmdHdr b).mgmt (cmdHdr b).ident (cmdHdr b).level = some k →
    hmac k (b.take (32 + (cmdHdr b).plen)) ≠ bsub b (32 + (cmdHdr b).plen) 32 →
    acceptCmd s ch b = (s, { status := scAuthFailed, detail := 1 })) ∧
  (∀ (s : State) (ch : Chan) (b k : Bytes) (lvl chans : Nat), formatFault b = none →
    opInfo (cmdHdr b).op = some (lvl, chans) → channelOk s ch chans (cmdHdr b) = true →
    needsLevel s (cmdHdr b) (bsub b 32 (cmdHdr b).plen) lvl ≤ (cmdHdr b).level → (cmdHdr b).level ≠ 0 →
    keyFor s (cmdHdr b).mgmt (cmdHdr b).ident (cmdHdr b).level = some k →
    hmac k (b.take (32 + (cmdHdr b).plen)) = bsub b (32 + (cmdHdr b).plen) 32 →
    freshTake s (freshKey (cmdHdr b).mgmt (cmdHdr b).ident (cmdHdr b).level) (cmdHdr b).fresh = none →
    acceptCmd s ch b = (s, { status := scAuthFailed, detail := 2 })) ∧
  (∀ (s : State) (b : Bytes) (v : Verdict), acceptCmd s .i3c b = (s, v) → v.drop = false → v.reply = none → v.status ≠ scOk →
    (frontEnd s .i3c b none).cmd = s.cmd ∧
    (frontEnd s .i3c b none).i3c.replies.map (·.2.status) = s.i3c.replies.map (·.2.status) ++ [v.status] ∧
    (frontEnd s .i3c b none).tables = s.tables ∧ (frontEnd s .i3c b none).regs = s.regs) ∧
  (∀ (s u : State) (ch : Chan) (b : Bytes) (v : Verdict), acceptCmd s ch b = (u, v) → v.drop = false → v.reply = none →
    v.status = scOk → ∃ tk, tget (frontEnd s ch b none).cmd.tickets u.cmd.nextTicket = some tk ∧ tk.op = (cmdHdr b).op ∧
      tk.tag = (cmdHdr b).tag ∧ tk.chan = ch ∧ tk.par = bsub b 32 (cmdHdr b).plen ∧ tk.st = .waiting ∧
      (frontEnd s ch b none).tables = u.tables) ∧
  (∀ (s : State) (p : Pkt), wfMgmt p = true → exec (.mgmt p) s = .next (commit s
    (mgmtTake (receive pathDown s p) p.conn p.msn (if brakeEntry s p then some p.sub else none)))) ∧
  (∀ (s : State) (num msn : Nat) (sub : Option Nat) (m : Msg), msgOf s (connIdx num) msn = some m → m.first.ty = tyMgmt →
    m.st = .running → m.chk = none → outstanding s num < 16 →
    mgmtTake s num msn sub = doneMsg (frontEnd s (.net num) (msgPayload m) sub) (connIdx num) msn (.comp csOk 0)) ∧
  (∀ (s : State) (num msn : Nat) (sub : Option Nat) (m : Msg), msgOf s (connIdx num) msn = some m → m.first.ty = tyMgmt →
    m.st = .running → m.chk = none → 16 ≤ outstanding s num →
    mgmtTake s num msn sub =
      doneMsg (deliver s (.net num) (busyReply s (msgPayload m))) (connIdx num) msn (.comp csOk 0)) ∧
  (∀ (s : State) (num msn : Nat) (sub : Option Nat) (m : Msg) (k : Bytes), msgOf s (connIdx num) msn = some m →
    m.first.ty = tyMgmt → m.st = .running → m.chk = some k → beNat k ≠ crc64 (msgPayload m) →
    mgmtTake s num msn sub =
      doneMsg (checkFailed s (connIdx num) msn) (connIdx num) msn (.comp csMessageCheck 0)) ∧
  (∀ (s : State) (t : Nat) (tk : Ticket), tget s.cmd.tickets t = some tk → tk.st = .executing → tk.pendingSent = false →
    tk.chan = .i3c → (∀ x ∈ s.tables.regions, t ∉ x.2.revokers) → (∀ x ∈ s.tables.objects, t ∉ x.2.waiters) →
    ∃ u r, exec (.commandPendingTimer t) s = .next u ∧ u.i3c.replies = s.i3c.replies ++ [(false, r)] ∧
      r.status = scPending ∧ r.tag = tk.tag ∧ tget u.cmd.tickets t = some { tk with pendingSent := true } ∧
      tk.since + ms 100 ≤ u.timebase) ∧
  (∀ (s : State) (t w i : Nat) (tk tw : Ticket) (r : Region), tget s.cmd.tickets t = some tk → tk.st = .executing →
    tk.pendingSent = false → tk.chan = .i3c → t ≠ w → tget s.cmd.tickets w = some tw → tw.pendingSent = false → tw.chan = .i3c →
    s.tables.regions = [(i, r)] → r.revokers = [t, w] → s.tables.objects = [] →
    ∃ u a b, exec (.commandPendingTimer t) s = .next u ∧ u.i3c.replies = s.i3c.replies ++ [(false, a), (false, b)] ∧
      a.tag = tk.tag ∧ b.tag = tw.tag ∧ a.status = scPending ∧ b.status = scPending ∧
      u.tables.regions = [(i, { r with pendingSent := true })]) ∧
  (∀ (s : State) (t : Nat), exec (.commandPendingTimer t) s = .next (commit s (pendingNow s t))) ∧
  (∀ (s : State) (t : Nat) (tk : Ticket), tget s.cmd.tickets t = some tk → tk.pendingSent = true →
    exec (.commandPendingTimer t) s = .next (commit s s)) ∧
  (∀ (s : State) (t : Nat) (tk : Ticket), tget s.cmd.tickets t = some tk → tk.st = .waiting → brakeOp tk.op = false →
    ladderOp tk.op = false → exec (.guideWaitTimeout t) s = .next (commit s (answer (reach s (tk.since + ms 10)) t scNoGuide))) ∧
  (∀ (s : State) (t : Nat) (tk : Ticket), tget s.cmd.tickets t = some tk → tk.st = .executing →
    exec (.guideWaitTimeout t) s = .next (commit s s))

/-- R390: a freshness value that a key has accepted is refused ever after, whatever values of this and other keys are
taken in between, and so is one of another boot count. -/
def Obligations.FreshValues : Prop :=
  (∀ (s u : State) (k v : Nat) (l : List (Nat × Nat)), freshTake s k v = some u →
    freshTake (l.foldl (fun s x => (freshTake s x.1 x.2).getD s) u) k v = none) ∧
  (∀ (s : State) (k v : Nat), v / 2 ^ 32 ≠ getF s Reg.idBootCount → freshTake s k v = none) ∧
  (∀ (s : State) (k v : Nat) (r : Fresh), v / 2 ^ 32 = getF s Reg.idBootCount → tget s.cmd.fresh k = some r →
    r.high < v % 2 ^ 32 → (freshTake s k v).isSome = true) ∧
  (∀ (s : State) (k v : Nat) (r : Fresh), v / 2 ^ 32 = getF s Reg.idBootCount → tget s.cmd.fresh k = some r →
    v % 2 ^ 32 + 64 < r.high → freshTake s k v = none)

/-- R389, R397, R401, Tables 14-6 to 14-10: the reply to a query of the management principal carries what the tables
say, and the query changes nothing but its ticket and its reply; a command by I3C is answered into the private read
alone. -/
def Obligations.Queries : Prop :=
  (∀ (s : State) (t st d : Nat) (b : Bytes) (tk : Ticket), tget s.cmd.tickets t = some tk → tk.chan = .i3c → tk.op / 256 ≠ 11 →
    answer s t st d b = { s with
      cmd.tickets := tdel s.cmd.tickets t, i3c.replies := s.i3c.replies ++ [(true, mkReply s tk st d b true)], i3c.ibiPending := s.i3c.ibi }) ∧
  (∀ (s : State) (t : Nat) (tk : Ticket), tk.mgmt = true →
    (Waits s t 0x0101 tk → exec (.idQuery t) s = .next (commit s (answer s t scOk 0 (idBytes s)))) ∧
    (Waits s t 0x0102 tk → exec (.limitsQuery t) s = .next (commit s
      (answer s t scOk 0 ((limits s).map fun x => leBytes 8 x.1 ++ leBytes 8 x.2).flatten))) ∧
    (∀ n i, Waits s t 0x0105 tk → tget s.ids n = some i → connsOf s n = [] →
      exec (.identityQuery t n) s = .next (commit s (answer s t scOk 0 ((identBytes n i).take 8 ++ leBytes 2 0)))) ∧
    (∀ n i, Waits s t 0x0105 tk → tget s.ids n = some i → exec (.identityQuery t n) s = .next (commit s
      (answer s t scOk 0 ((identBytes n i).take 8 ++ leBytes 2 (connsOf s n).length ++
        ((connsOf s n).map fun x => leBytes 3 (connNum x.1 x.2)).flatten)))) ∧
    (∀ k r, Waits s t 0x0202 tk → regionOf s k = some r →
      exec (.regionQuery t k) s = .next (commit s (answer s t scOk 0 (descriptorBytes r ++ leBytes 4 r.refusals)))) ∧
    (∀ n g, Waits s t 0x0205 tk → tget s.tables.groups n = some g →
      exec (.accessGroupQuery t n) s = .next (commit s (answer s t scOk 0 (leBytes 2 g.owner ++ identMap g.members)))) ∧
    (∀ n c, Waits s t 0x0208 tk → connOf s n = some c →
      exec (.connQuery t n) s = .next (commit s (answer s t scOk 0 (connBytes s c n)))) ∧
    (∀ q x, Waits s t 0x020E tk → queueOf s q = some x →
      exec (.chainQuery t q) s = .next (commit s (answer s t scOk 0 (queueBytes x)))) ∧
    (∀ n o, Waits s t 0x0302 tk → objOf s n = some o →
      exec (.objectQuery t n) s = .next (commit s (answer s t scOk 0 (objectBytes n o)))) ∧
    (∀ n x, Waits s t 0x030D tk → tget s.tables.topos n = some x →
      exec (.topoQuery t n) s = .next (commit s (answer s t scOk 0 (topoBytesOut s x)))) ∧
    (Waits s t 0x0403 tk → exec (.keyRootQuery t) s = .next (commit s (answer s t scOk 0 (regBytes s [0xE0008] ++
      ((List.range 16).map fun n => leBytes 8 (((tget s.key.roots n).map (·.id)).getD 0)).flatten)))) ∧
    (∀ n c i k, Waits s t 0x0404 tk → connOf s n = some c → connSlot s c = some (i, k) →
      exec (.keySessionQuery t n) s = .next (commit s
        (answer s t scOk 0 (leBytes 2 i ++ [byte k.limit, byte k.auto.toNat] ++ leBytes 2 k.genMax)))) ∧
    (∀ n, Waits s t 0x0406 tk → n < 4096 → tget s.key.slots n = none →
      exec (.keySlotQuery t n) s = .next (commit s (answer s t scOk 0 (zeros 55)))) ∧
    (∀ n k, Waits s t 0x0406 tk → n < 4096 → tget s.key.slots n = some k →
      exec (.keySlotQuery t n) s = .next (commit s (answer s t scOk 0 (slotBytes k)))) ∧
    (∀ n, Waits s t 0x040A tk → n < 1024 → ∃ b, exec (.cvuContextGet t n) s = .next (commit s (answer s t scOk 0 b)) ∧
      b.length = 48) ∧
    (Waits s t 0x0501 tk → s.conns = [] → exec (.ropeQuery t) s = .next (commit s
      (answer s t scOk 0 (regBytes s [0xD0008, 0xD0010, 0xD0018])))) ∧
    (Waits s t 0x0501 tk → exec (.ropeQuery t) s = .next (commit s
      (answer s t scOk 0 (regBytes s [0xD0008, 0xD0010, 0xD0018] ++
        (s.conns.map fun x => leBytes 3 (connNum x.1 x.2) ++ leBytes 4 x.2.fills).flatten)))) ∧
    (Waits s t 0x0601 tk → exec (.pwrStatus t) s = .next (commit s
      (answer s t scOk 0 (regBytes s ([0x50008, 0x50010] ++ regRun 0x50040 8 ++ [0x50018]))))) ∧
    (Waits s t 0x0604 tk → exec (.thermalStatus t) s = .next (commit s
      (answer s t scOk 0 (regBytes s ([0x60008, 0x60010] ++ regRun 0x60020 4))))) ∧
    (Waits s t 0x0806 tk → s.val.dies = [] → exec (.valleyStatus t) s = .next (commit s
      (answer s t scOk 0 (regBytes s ([0xB0008, 0xB0010] ++ regRun 0xB0100 32))))) ∧
    (∀ n d, Waits s t 0x0806 tk → s.val.dies = [(n, d)] → exec (.valleyStatus t) s = .next (commit s
      (answer s t scOk 0 (regBytes s ([0xB0008, 0xB0010] ++ regRun 0xB0100 32) ++
        (leBytes 2 n ++ flagByte d.failed ++ ((indicators s d).map fun i => leBytes 4 i.2.1).flatten))))) ∧
    (Waits s t 0x0806 tk → ∃ b, exec (.valleyStatus t) s = .next (commit s (answer s t scOk 0
      (regBytes s ([0xB0008, 0xB0010] ++ regRun 0xB0100 32) ++ b)))) ∧
    (Waits s t 0x0802 tk → exec (.campFaultList t) s = .next (commit s (answer s t scOk 0
      (leBytes 2 s.code.marked.length ++ leBytes 2 s.camp.pendingRows.length ++ leBytes 2 s.code.soft.length ++
        markedBytes s ++ (s.camp.pendingRows.map (leBytes 6)).flatten ++ (s.code.soft.map (leBytes 8)).flatten)))) ∧
    (Waits s t 0x0802 tk → s.code.marked = [] → s.camp.pendingRows = [] → s.code.soft = [] →
      exec (.campFaultList t) s = .next (commit s (answer s t scOk 0 (zeros 6))))) ∧
  (∀ (s : State) (t : Nat) (tk : Ticket), tk.mgmt = true →
    (Waits s t 0x0701 tk → 1 ≤ le tk.par 8 1 → le tk.par 8 1 ≤ 63 →
      exec (.logRead t) s = .next (commit s (answer s t scOk 0 (logSummary s (le tk.par 0 8) (le tk.par 8 1) ++
        (((s.log.recs.filter fun r => decide (le tk.par 0 8 ≤ r.seq)).take (le tk.par 8 1)).map recBytes).flatten)))) ∧
    (Waits s t 0x0704 tk → le tk.par 0 1 < 40 → (plogOf s (le tk.par 0 1)).frozen = true →
      exec (.plogRead t) s = .next (commit s
        (answer s t scOk 0 (plogReply (plogOf s (le tk.par 0 1)) (le tk.par 1 1))))) ∧
    (Waits s t 0x0706 tk → exec (.telemetryRead t 0x50000) s = .next (commit s (answer s t scOk 0
      ((statusRegs 0x50000 0x60000).map fun o => leBytes 4 o ++ leBytes 8 (readReg s o)).flatten))) ∧
    (Waits s t 0x0A05 tk → s.ladder.fns = [] → exec (.ladderStatus t) s = .next (commit s
      (answer (showLadderCounts s) t scOk 0 (regBytes (showLadderCounts s) [0x1060])))) ∧
    (Waits s t 0x0A05 tk → exec (.ladderStatus t) s = .next (commit s
      (answer (showLadderCounts s) t scOk 0 (regBytes (showLadderCounts s) [0x1060] ++
        (s.ladder.fns.map fun x => [byte (fnCls x.1), byte x.2.rung] ++ leBytes 2 (fnIdx x.1) ++
          [byte (lastHour s x.2.t1).length, byte (lastHour s x.2.t2).length]).flatten)))) ∧
    (∀ n i, Waits s t 0x0704 tk → le tk.par 0 1 = 128 + n → n < 40 → le tk.par 3 1 ≤ 5 →
      (flushImages s).reverse[le tk.par 3 1]? = some i → exec (.plogRead t) s = .next (commit s
        (answer s t scOk 0 (plogReply ((tget i.logs n).getD {}) (le tk.par 1 1))))) ∧
    (Waits s t 0x0B05 tk → ∃ b, exec (.brakeStatus t) s = .next (commit s (answer s t scOk 0 b)) ∧
      b.take 4 = leBytes 4 s.cmd.discarded) ∧
    (Waits s t 0x0906 tk → ∃ b, exec (.cairnStatus t) s = .next (commit s (answer (csWear s) t scOk 0 b)) ∧
      b.take 8 = leBytes 8 (readReg s 0xB0010)))

/-- R83, R85, R86, R92, R106, R387, R388, Table 14-6, Table 14-8: the commands that set and remove identities, keys,
regions, access groups, landing buffers and close connections: what each leaves in its table, its refusals, and its
answer. -/
def Obligations.IdentityAndRegionCommands : Prop :=
  (∀ (s : State) (t st d : Nat) (b : Bytes) (l : List Nat) (tk : Ticket), tget s.cmd.tickets t = some tk →
    hasSecond s = false → conclude s t false true st d b l = answer s t st d b) ∧
  (∀ (s : State) (t : Nat) (tk : Ticket), Waits s t 0x0103 tk → le tk.par 4 2 ≤ 16384 →
    exec (.identitySet t) s = .next (commit s (conclude (setIdent s tk.par) t false true scOk))) ∧
  (∀ (s : State) (b : Bytes), tget (setIdent s b).ids (le b 0 2 % 4096) = some (identOfBytes b)) ∧
  (∀ (s : State) (t n : Nat) (tk : Ticket), Waits s t 0x0104 tk → thas s.ids n = true →
    (∀ x ∈ s.tables.regions, x.2.owner ≠ n) → exec (.identityRemove t n) s = .next (commit s
      (conclude (removeIdent s n) t false true scOk 0 [] [n]))) ∧
  (∀ (s : State) (t n : Nat) (tk : Ticket) (x : Nat × Region), Waits s t 0x0104 tk → thas s.ids n = true →
    x ∈ s.tables.regions → x.2.owner = n → exec (.identityRemove t n) s = .next (commit s
      (conclude (removeIdent s n) t true true scOk 0 [] [n]))) ∧
  (∀ (s : State) (t n : Nat) (tk : Ticket), Waits s t 0x0104 tk → thas s.ids n = false →
    exec (.identityRemove t n) s = .next (commit s (answer s t scNotFound))) ∧
  (∀ (s : State) (t : Nat) (tk : Ticket), Waits s t 0x0106 tk → le tk.par 0 1 = 1 →
    exec (.authKeySet t) s = .next (commit s (answer (cfgWrite { s with cmd.opKey := some (bsub tk.par 32 32) }
      fun c => { c with opKey := some (bsub tk.par 32 32) }) t scOk))) ∧
  (∀ (s : State) (t : Nat) (tk : Ticket), Waits s t 0x0106 tk → le tk.par 0 1 = 2 →
    exec (.authKeySet t) s = .next (commit s (answer (cfgWrite { s with cmd.custKey := some (bsub tk.par 32 32) }
      fun c => { c with custKey := some (bsub tk.par 32 32) }) t scOk))) ∧
  (∀ (s : State) (t k : Nat) (tk : Ticket), Waits s t 0x0201 tk → regionRefusal s tk (regionOfBytes 0 tk.par) = none →
    newRegionKey s = some k → exec (.regionRegister t) s = .next (commit s
      (conclude (addRegion (useFree s) k tk.par) t true true scOk 0 (leBytes 4 k) [k]))) ∧
  (∀ (s : State) (t : Nat) (tk : Ticket) (x : Nat × Nat), Waits s t 0x0201 tk →
    regionRefusal s tk (regionOfBytes 0 tk.par) = some x →
    exec (.regionRegister t) s = .next (commit s (answer s t x.1 x.2))) ∧
  (∀ (s : State) (k : Nat) (b : Bytes), tget (addRegion s k b).tables.regions (keyIdx k) = some (regionOfBytes k b)) ∧
  (∀ (s : State) (t k : Nat) (tk : Ticket) (r : Region), Waits s t 0x0203 tk → regionOf s k = some r → tk.owns r.owner = true →
    let u := working { s with
      tables.regions := tmod s.tables.regions (keyIdx k) fun r => { r with revokers := r.revokers ++ [t] } } t
    (r.pendingSent = false → exec (.regionRevoke t k) s = .next (commit s (drainRegion u (keyIdx k)))) ∧
    (r.pendingSent = true →
      exec (.regionRevoke t k) s = .next (commit s (drainRegion (sendPending u t) (keyIdx k))))) ∧
  (∀ (s : State) (t k : Nat) (tk : Ticket) (r : Region), Waits s t 0x0203 tk → regionOf s k = some r → tk.owns r.owner = false →
    exec (.regionRevoke t k) s = .next (commit s (answer s t scNotOwner))) ∧
  (∀ (s : State) (t g : Nat) (l : List Nat) (tk : Ticket), Waits s t 0x0204 tk → 1 ≤ g → g < 4096 → tget s.tables.groups g = none →
    (∀ m ∈ l, m < 4096) → l.Nodup → exec (.accessGroupSet t g l) s = .next (commit s
      (conclude (setGroup s g tk.principal l) t true true scOk 0 [] (g :: l)))) ∧
  (∀ (s : State) (t k len num : Nat) (tk : Ticket) (c : Conn), Waits s t 0x0206 tk → tk.chan = .net num → connOf s num = some c →
    1 ≤ k → k < 2 ^ 32 → 64 ≤ len → len ≤ 16777216 → s.ops.landings.length < 262144 →
    exec (.landingRegister t k len) s = .next (commit s
      (conclude (addLanding s (connIdx num) k len) t false true scOk 0 [] [num, k, len]))) ∧
  (∀ (s : State) (t k num : Nat) (tk : Ticket), Waits s t 0x0207 tk → tk.chan = .net num →
    thas s.ops.landings (landingKey (connIdx num) k) = true →
    exec (.landingRemove t k) s = .next (commit s
      (conclude (removeLanding s (connIdx num) k) t false true scOk 0 [] [num, k]))) ∧
  (∀ (s : State) (t n : Nat) (tk : Ticket) (c : Conn), Waits s t 0x0209 tk → connOf s n = some c → tk.owns c.ident = true →
    c.st.isOpen = true →
    exec (.connClose t n) s = .next (commit s (conclude (closeConn s (connIdx n) 1) t false true scOk 0 [] [n])))

/-- Region keys (R83): the part picks an index that no region has, of 20 bits, and the next generation of that index,
which wraps from 4,095 to 1; the key stands in the region's entry and its generation is kept for the next use; a key
whose generation is 0 names no region. -/
def Obligations.RegionKeys : Prop :=
  (∀ (s : State) (k : Nat), newRegionKey s = some k →
    keyIdx k < 1048576 ∧ thas s.tables.regions (keyIdx k) = false ∧
    keyGen k = (if tcnt s.tables.regionGen (keyIdx k) = 4095 then 1 else tcnt s.tables.regionGen (keyIdx k) + 1) ∧
    (tcnt s.tables.regionGen (keyIdx k) ≤ 4095 → 1 ≤ keyGen k ∧ keyGen k ≤ 4095)) ∧
  (∀ (s : State) (k : Nat) (b : Bytes), (tget (addRegion s k b).tables.regions (keyIdx k)).map (·.key) = some k ∧
    tcnt (addRegion s k b).tables.regionGen (keyIdx k) = keyGen k ∧
    ∀ j, j ≠ keyIdx k → tget (addRegion s k b).tables.regions j = tget s.tables.regions j) ∧
  (∀ (s : State) (k : Nat), keyGen k = 0 → regionOf s k = none) ∧
  (∀ (s : State) (k : Nat) (r : Region), regionOf s k = some r → r.key = k)

/-- R109, R112, R114, R401: the commands on chain queues, triggers and ports. -/
def Obligations.ChainAndPortCommands : Prop :=
  (∀ (s : State) (t q own oc d rp : Nat) (rep : Bool) (tk : Ticket), Waits s t 0x020A tk → tk.owns own = true → q < 4096 →
    own < 4096 → oc < 2 ^ 24 → 1 ≤ rp → rp < 4 → depthOk d = true → queueOf s q = none →
    exec (.chainQueueCreate t q own oc rep d rp) s = .next (commit s
      (conclude (addQueue s q own oc rep d rp) t true true scOk 0 [] [q, own, oc, rep.toNat, d, rp]))) ∧
  (∀ (s : State) (t q : Nat) (w : Bytes) (x : Queue) (tk : Ticket), Waits s t 0x020B tk → queueOf s q = some x →
    tk.owns x.owner = true → w.length = 64 → x.used + 1 ≤ x.depth → x.repeatMode = false →
    let u := postWrs s q [w]
    exec (.chainPost t q [w]) s = .next (commit s (chainNext (conclude
      { u with cmd.tickets := tmod u.cmd.tickets t fun k => { k with par := w } } t true true scOk 0 [] [q]) q))) ∧
  (∀ (s : State) (t q : Nat) (l : List Bytes) (x : Queue) (tk : Ticket), Waits s t 0x020B tk → queueOf s q = some x →
    tk.owns x.owner = true → 1 ≤ l.length → l.length ≤ 63 → (∀ w ∈ l, w.length = 64) → x.used + l.length ≤ x.depth →
    (x.repeatMode = false ∨ x.endSlot = none) →
    let u := postWrs s q l
    exec (.chainPost t q l) s = .next (commit s (chainNext (conclude
      { u with cmd.tickets := tmod u.cmd.tickets t fun k => { k with par := l.flatten } } t true true scOk 0 [] [q]) q))) ∧
  (∀ (s : State) (t q : Nat) (l : List Bytes) (x : Queue) (tk : Ticket), Waits s t 0x020B tk → queueOf s q = some x →
    tk.owns x.owner = true → x.depth < x.used + l.length →
    exec (.chainPost t q l) s = .next (commit s (rangeFree s t))) ∧
  (∀ (s : State) (t q : Nat) (x : Queue) (tk : Ticket), Waits s t 0x020C tk → queueOf s q = some x → tk.owns x.owner = true →
    x.st = .error → x.run = none → exec (.chainReset t q) s = .next (commit s
      (conclude (resetQueue s q) t true true scOk 0 [] [q]))) ∧
  (∀ (s : State) (q : Nat) (x : Queue), queueOf s q = some x → x.st = .error → x.repeatMode = true →
    ∃ y, queueOf (resetQueue s q) q = some y ∧ y.st = .idle ∧ y.run = none ∧ y.head = x.head ∧ y.ring = x.ring) ∧
  (∀ (s : State) (t q : Nat) (x : Queue) (tk : Ticket), Waits s t 0x020D tk → queueOf s q = some x → tk.owns x.owner = true →
    x.st = .idle → exec (.chainQueueDelete t q) s = .next (commit s
      (conclude (deleteQueue s q) t true true scOk 0 [] [q]))) ∧
  (∀ (s : State) (t q : Nat) (x : Queue) (tk : Ticket), Waits s t 0x020D tk → queueOf s q = some x → tk.owns x.owner = true →
    x.st = .running → exec (.chainQueueDelete t q) s = .next (commit s (busy2 s t))) ∧
  (∀ (s : State) (t tag q g : Nat) (x : Queue) (tk : Ticket), Waits s t 0x020F tk → queueOf s q = some x →
    tk.owns x.owner = true → 1 ≤ tag → tag < 65536 → g < 4096 → thas s.tables.tags tag = false →
    exec (.triggerBind t tag q g) s = .next (commit s (conclude (bindTag s tag q g) t true true scOk 0 [] [tag, q, g]))) ∧
  (∀ (s : State) (t tag : Nat) (b : TagB) (x : Queue) (tk : Ticket), Waits s t 0x0210 tk → tget s.tables.tags tag = some b →
    queueOf s b.queue = some x → tk.owns x.owner = true →
    exec (.triggerUnbind t tag) s = .next (commit s (conclude (unbindTag s tag) t true true scOk 0 [] [tag]))) ∧
  (∀ (s u : State) (t : Nat) (l : List (Nat × BitVec 64)) (tk : Ticket), Waits s t 0x0211 tk →
    (∀ x ∈ l, portReg x.1 = true) → regCommands s l = some u →
    exec (.portConfig t l []) s = .next (commit s (answer u t scOk))) ∧
  (∀ (s u : State) (t : Nat) (l : List (Nat × BitVec 64)) (r : List Nat) (tk : Ticket), Waits s t 0x0211 tk →
    (∀ x ∈ l, portReg x.1 = true) → (∀ k ∈ r, k < 32) → regCommands s l = some u →
    exec (.portConfig t l r) s = .next (commit s (answer (r.foldl restoreSub u) t scOk))) ∧
  (∀ (s : State) (t : Nat) (l : List (Nat × BitVec 64)) (tk : Ticket), Waits s t 0x0211 tk → regCommands s l = none →
    exec (.portConfig t l []) s = .next (commit s (rangeFree s t)))

/-- R129, R132 to R135, R149, R151 to R155, R263, R264, R458: the commands on objects, topos, summit extents and the
range. -/
def Obligations.ObjectAndTopoCommands : Prop :=
  (∀ (s : State) (t n base : Nat) (tk : Ticket), Waits s t 0x0301 tk → tk.owns (le tk.par 10 2 % 4096) = true →
    le tk.par 0 8 ≠ 0 → le tk.par 0 8 % 64 = 0 → le tk.par 8 1 ≤ 3 → le tk.par 9 1 ≤ 1 →
    tpick s.tables.objects 0 4194304 (freeVal s) = some n → objBase s (cdiv (le tk.par 0 8) 16384) = some base →
    placementFits s n (le tk.par 8 1) (base / 16384) (le tk.par 0 8) = true →
    exec (.objectCreate t) s = .next (commit s
      (conclude (addObject (useFree s) n base tk.par) t true true scOk 0 (leBytes 4 n ++ leBytes 6 base) [n, base]))) ∧
  (∀ (s : State) (t n c : Nat) (o : Obj) (tk : Ticket), Waits s t 0x0303 tk → objOf s n = some o → tk.owns o.owner = true →
    c ≤ 3 → o.st = .opened → placementFits s n c (o.base / 16384) o.len = true →
    exec (.objectSetPlacement t n c) s = .next (commit s
      (lookNow (placeObject (working s t [n, c]) n c) t placeCheck))) ∧
  (∀ (s : State) (t n a len : Nat) (o : Obj) (tk : Ticket), Waits s t 0x0304 tk → objOf s n = some o → tk.owns o.owner = true →
    inObject o a len = true → unbuiltOf s (slabsOf (o.base + a) len) = [] →
    exec (.objectEvict t n a len) s = .next (commit s
      (lookNow (working ((slabsOf (o.base + a) len).foldl (evictOne t) (s, 0)).1 t
        [((slabsOf (o.base + a) len).foldl (evictOne t) (s, 0)).2]) t evictCheck))) ∧
  (∀ (s : State) (t n a len : Nat) (o : Obj) (tk : Ticket) (l : List Nat), Waits s t 0x0304 tk → objOf s n = some o →
    tk.owns o.owner = true → inObject o a len = true → unbuiltOf s (slabsOf (o.base + a) len) = l → l ≠ [] →
    exec (.objectEvict t n a len) s = .next (commit s (l.foldl askSegment (working s t [n, a, len])))) ∧
  (∀ (s : State) (t n i : Nat) (x : Slab), slabOf s n = x → x.st = .dirty → hasParked s n = false → inWindow s n = false →
    slabPin s n = false →
    evictOne t (s, i) n = (addJob (setSlab s n { x with evictAfter := x.evictAfter ++ [t] }) 6 (.destage n), i)) ∧
  (∀ (s : State) (t n i : Nat), (slabOf s n).st = .clean → inWindow s n = true → evictOne t (s, i) n = (s, i + 1)) ∧
  (∀ (s : State) (t n k : Nat), slabOf s n = { st := .clean, frame := k } → hasParked s n = false → inWindow s n = false →
    slabPin s n = false → evictOne t (s, 0) n = (evictSlab s n, 0)) ∧
  (∀ (s : State) (t n a len : Nat) (o : Obj) (tk : Ticket), Waits s t 0x0305 tk → objOf s n = some o → tk.owns o.owner = true →
    o.st = .opened → a % 16384 = 0 → len % 16384 = 0 → len ≠ 0 → a + len ≤ o.slabCount * 16384 →
    unbuiltOf s (slabsOf (o.base + a) len) = [] →
    exec (.objectTrim t n a len) s = .next (commit s (bgCheck (conclude (trimObject s n a len) t false true scOk 0 [] [n, a, len])))) ∧
  (∀ (s : State) (t n a len : Nat) (o : Obj) (tk : Ticket) (l : List Nat), Waits s t 0x0305 tk → objOf s n = some o →
    tk.owns o.owner = true → o.st = .opened → a % 16384 = 0 → len % 16384 = 0 → len ≠ 0 → a + len ≤ o.slabCount * 16384 →
    unbuiltOf s (slabsOf (o.base + a) len) = l → l ≠ [] →
    exec (.objectTrim t n a len) s = .next (commit s (l.foldl askSegment (working s t [n, a, len])))) ∧
  (∀ (s : State) (t n w : Nat) (o : Obj) (tk tw : Ticket), Waits s t 0x0306 tk → objOf s n = some o → tk.owns o.owner = true →
    o.st = .deleting → o.waiters = [w] → tget s.cmd.tickets w = some tw → tw.pendingSent = true →
    exec (.objectDelete t n) s = .next (commit s
      (bgCheck (deleteObject (sendPending (modObj (working s t) n fun o => { o with waiters := o.waiters ++ [t] }) t) n)))) ∧
  (∀ (s : State) (t n : Nat) (o : Obj) (tk : Ticket), Waits s t 0x0306 tk → objOf s n = some o → tk.owns o.owner = true →
    o.st = .opened → o.waiters = [] → exec (.objectDelete t n) s = .next (commit s
      (bgCheck (deleteObject (modObj (working s t) n fun o => { o with waiters := o.waiters ++ [t] }) n)))) ∧
  (∀ (s : State) (t : Nat) (o : Obj) (tk : Ticket), Waits s t 0x0307 tk → objOf s (le tk.par 0 3 % 2 ^ 22) = some o →
    tk.owns o.owner = true → publishRefusal s (le tk.par 0 3 % 2 ^ 22) o tk.par = none →
    exec (.objectPublish t) s = .next (commit s (publishGo (modObj (working s t [le tk.par 0 3 % 2 ^ 22])
      (le tk.par 0 3 % 2 ^ 22) fun o => { o with st := .publishing, pub := tk.par, waiters := [t] }) (le tk.par 0 3 % 2 ^ 22)))) ∧
  (∀ (s : State) (n : Nat) (o : Obj) (b : Bytes), o.st = .published → publishRefusal s n o b = some (scNotPermitted, 0)) ∧
  (∀ (s : State) (t : Nat) (tk : Ticket), Waits s t 0x0308 tk → tk.owns (le tk.par 6 2 % 4096) = true → le tk.par 0 2 < 1024 →
    le tk.par 2 1 ≤ 8 → le tk.par 3 1 ≤ 15 → 1 ≤ le tk.par 8 2 → le tk.par 8 2 ≤ 4096 →
    thas s.tables.topos (le tk.par 0 2) = false →
    exec (.topoCreate t) s = .next (commit s (conclude (addTopo s tk.par) t true true scOk))) ∧
  (∀ (s : State) (t n : Nat) (x : Topo) (tk : Ticket), Waits s t 0x0309 tk → tget s.tables.topos n = some x →
    tk.owns x.owner = true → x.committed = false → le tk.par 0 2 < x.count → 1 ≤ le tk.par 2 2 → le tk.par 2 2 ≤ 255 →
    badExtent tk.par = none → extentsHeld s + le tk.par 2 2 ≤ 1048576 →
    exec (.topoStepAdd t n) s = .next (commit s (conclude (addStep s n tk.par) t true true scOk 0 [] [n]))) ∧
  (∀ (s : State) (t n : Nat) (x : Topo) (tk : Ticket), Waits s t 0x030A tk → tget s.tables.topos n = some x →
    tk.owns x.owner = true → x.committed = false → topoSound s x = true →
    exec (.topoCommit t n) s = .next (commit s (conclude (commitTopo s n) t true true scOk 0 [] [n]))) ∧
  (∀ (s : State) (t n : Nat) (x : Topo) (tk : Ticket), Waits s t 0x030B tk → tget s.tables.topos n = some x →
    tk.owns x.owner = true → exec (.topoDelete t n) s = .next (commit s
      (conclude (deleteTopo s n) t true true scOk 0 [] [n]))) ∧
  (∀ (s : State) (t n k : Nat) (x : Topo) (tk : Ticket), Waits s t 0x030C tk → tget s.tables.topos n = some x →
    tk.owns x.owner = true → x.committed = true → k < x.count →
    let u := setMarker s n k
    exec (.topoAdvance t n k) s = .next (commit s (conclude
      { u with tables.topos := tmod u.tables.topos n fun x => { x with logged := k, loggedAt := some u.timebase } }
      t true true scOk 0 [] [n, k]))) ∧
  (∀ (s : State) (t n a len : Nat) (o : Obj) (tk : Ticket), Waits s t 0x030E tk → objOf s n = some o → tk.owns o.owner = true →
    o.cls = 0 → inObject o a len = true →
    exec (.sumReload t n a len) s = .next (commit s (answer (loadLockedExtent s (o.base + a) len) t scOk))) ∧
  (∀ (s : State) (t a len : Nat) (tk : Ticket), Waits s t 0x030F tk → tk.mgmt = true → len ≠ 0 → a + len ≤ rangeGib s * 2 ^ 30 →
    exec (.sumInvalidate t a len) s = .next (commit s (answer (reloadWindows (sumInvalidate s a len) a len) t scOk))) ∧
  (∀ (s u : State) (t n : Nat) (w : BitVec 64) (tk : Ticket), Waits s t 0x0310 tk → s.val.root = none →
    lockWaysBad s n = false → regCommand s 0xA0000 w.toNat = some u → stage (lockWaysSet u n) ≠ 8 →
    exec (.rangeConfig t w n) s = .next (commit s (answer (lockWaysSet u n) t scOk))) ∧
  (∀ (s : State) (t n : Nat) (w : BitVec 64) (r : Root) (tk : Ticket), Waits s t 0x0310 tk → s.val.root = some r →
    r.rangeGib ≠ inFld Reg.campRangeCfgRangeGib w.toNat →
    exec (.rangeConfig t w n) s = .next (commit s (answer s t scNotPermitted)))

/-- R272, R273, R276, R285, R292, R300, R303, R332, R333, R341: the commands on roots, key slots, sealed content,
check-value contexts and the rope team. -/
def Obligations.KeyAndRopeCommands : Prop :=
  (∀ (s : State) (t n : Nat) (r : RootKey) (tk : Ticket), Waits s t 0x0401 tk → le tk.par 4 1 < 16 →
    unwrapRoot s tk.par = some (n, r) → rootBound s n = false →
    exec (.keyRootLoad t) s = .next (commit s (answer (setRoot (cfgWrite { s with key.blobs := tset s.key.blobs n tk.par }
      fun c => { c with roots := tset c.roots n tk.par }) n (some r)) t scOk))) ∧
  (∀ (s : State) (t : Nat) (tk : Ticket), Waits s t 0x0401 tk → le tk.par 4 1 < 16 → unwrapRoot s tk.par = none →
    exec (.keyRootLoad t) s = .next (commit s (answer s t scAuthFailed 4))) ∧
  (∀ (s : State) (t n : Nat) (tk : Ticket), Waits s t 0x0402 tk → n < 16 → thas s.key.roots n = true → rootBound s n = false →
    exec (.keyRootUnload t n) s = .next (commit s (answer (setRoot (cfgWrite { s with key.blobs := tdel s.key.blobs n }
      fun c => { c with roots := tdel c.roots n }) n none) t scOk))) ∧
  (∀ (s : State) (t n : Nat) (tk : Ticket), Waits s t 0x0402 tk → n < 16 → thas s.key.roots n = true → rootBound s n = true →
    exec (.keyRootUnload t n) s = .next (commit s (busy2 s t))) ∧
  (∀ (s : State) (t n : Nat) (k : KeySlot) (tk : Ticket), Waits s t 0x0405 tk → n < 4096 → tk.mgmt = true →
    tget s.key.slots n = some k → k.title = false → k.genMax < 65535 →
    exec (.keySlotStep t n) s = .next (commit s (conclude (stepSlot s n) t false true scOk 0 [] [n]))) ∧
  (∀ (s : State) (n : Nat) (k : KeySlot), tget s.key.slots n = some k →
    ∃ y, tget (stepSlot s n).key.slots n = some y ∧ y.genMax = k.genMax + 1 ∧ y.out = k.out ∧ y.root = k.root) ∧
  (∀ (s u : State) (t : Nat) (w : BitVec 64) (tk : Ticket), Waits s t 0x0407 tk → regCommand s 0xE0000 w.toNat = some u →
    exec (.keyConfig t w) s = .next (commit s (answer u t scOk))) ∧
  (∀ (s : State) (t obj unit a b dst : Nat) (tk : Ticket), Waits s t 0x0408 tk → unsealRefusal s obj unit 1 a b dst = none →
    exec (.contentUnseal t a obj unit 1 b dst) s = .next (commit s (addJob
      (working s t [obj, unit, 1, 0, (((regionOf s a).map (·.holdMode)).getD false).toNat, dst]) 3 (.unseal t)))) ∧
  (∀ (s : State) (obj unit n a b dst : Nat), unsealRefusal s obj unit n a b dst = none →
    ∃ r d, regionOf s b = some r ∧ objOf s r.obj = some d ∧ d.sealed_ = none ∧ d.st = .opened ∧ d.mirror = mirUnroped) ∧
  (∀ (s : State) (t obj unit n a b dst : Nat) (tk : Ticket), Waits s t 0x0408 tk →
    unsealRefusal s obj unit n a b dst = none → exec (.contentUnseal t a obj unit n b dst) s = .next (commit s (addJob
      (working s t [obj, unit, n, 0, (((regionOf s a).map (·.holdMode)).getD false).toNat, dst]) 3 (.unseal t)))) ∧
  (∀ (s : State) (t obj unit n a b dst k : Nat) (tk : Ticket), Waits s t 0x0408 tk →
    unsealRefusal s obj unit n a b dst = some k → k ≠ scOutOfRange →
    exec (.contentUnseal t a obj unit n b dst) s = .next (commit s (answer s t k))) ∧
  (∀ (s : State) (t c own n : Nat) (ch : Bool) (x : Nat × Nat × Nat × Bool × Bool × Nat × Nat) (tk : Ticket),
    Waits s t 0x0409 tk → tk.mgmt = true → 16 ≤ c → c < 1024 → own < 4096 → ctxParams (.preset n) = some x →
    exec (.cvuContextSet t c (.preset n) own ch none) s = .next (commit s (ctxLater (working s t)
      { ctx := c, ticket := some t, nums := [x.1, x.2.1, x.2.2.1, x.2.2.2.1.toNat, x.2.2.2.2.1.toNat, x.2.2.2.2.2.1,
          x.2.2.2.2.2.2, own, ch.toNat, 0, 0] }))) ∧
  (∀ (s : State) (t c own : Nat) (p : CrcPar) (ch : Bool) (x : Nat × Nat × Nat × Bool × Bool × Nat × Nat) (r : BitVec 64)
    (tk : Ticket), Waits s t 0x0409 tk → tk.mgmt = true → 16 ≤ c → c < 1024 → own < 4096 → ctxParams p = some x →
    exec (.cvuContextSet t c p own ch (some r)) s = .next (commit s (ctxLater (working s t)
      { ctx := c, ticket := some t, nums := [x.1, x.2.1, x.2.2.1, x.2.2.2.1.toNat, x.2.2.2.2.1.toNat, x.2.2.2.2.2.1,
          x.2.2.2.2.2.2, own, ch.toNat, 1, r.toNat] }))) ∧
  (∀ (s : State) (t c own n : Nat) (ch : Bool) (tk : Ticket), Waits s t 0x0409 tk → tk.mgmt = true → c < 16 → own < 4096 →
    exec (.cvuContextSet t c (.preset n) own ch none) s = .next (commit s (answer s t scNotPermitted))) ∧
  (∀ (s : State) (t : Nat) (tk : Ticket), Waits s t 0x0502 tk → tk.mgmt = true → team s = teamRoped → role s = roleLead →
    s.rope.handoverTicket = none →
    exec (.ropeHandover t) s = .next (commit s (startReturn (working { s with rope.handoverTicket := some t } t)))) ∧
  (∀ (s : State) (t : Nat) (tk : Ticket), Waits s t 0x0502 tk → tk.mgmt = true → team s = teamRoped → role s = roleSecond →
    s.rope.handoverTicket = none → exec (.ropeHandover t) s = .next (commit s
      (ropeSend (working { s with rope.handoverTicket := some t } t) true .returnRequest))) ∧
  (∀ (s : State) (t : Nat) (tk : Ticket), Waits s t 0x0502 tk → tk.mgmt = true → team s ≠ teamRoped →
    exec (.ropeHandover t) s = .next (commit s (busy2 s t))) ∧
  (∀ (s : State) (t : Nat) (tk : Ticket), Waits s t 0x0503 tk → tk.mgmt = true → le tk.par 0 1 ≤ 1 →
    exec (.ropeReturnEnable t) s = .next (commit s (answer (setB s Reg.rlCfgReturnEn (le tk.par 0 1 = 1)) t scOk))) ∧
  (∀ (s : State) (t : Nat) (tk : Ticket), Waits s t 0x0504 tk → serviceOpen s = false → team s = teamNegotiating →
    getF s Reg.fabStartStatusWait ≠ 4 →
    exec (.ropeSolo t) s = .next (commit s (answer { s with start.soloOrdered := true } t scOk))) ∧
  (∀ (s : State) (t : Nat) (tk : Ticket), Waits s t 0x0504 tk → serviceOpen s = false → team s = teamNegotiating →
    getF s Reg.fabStartStatusWait = 4 → exec (.ropeSolo t) s = .next (commit s
      (answer (openSingle (setF { s with start.soloOrdered := true } Reg.fabStartStatusWait 0)) t scOk))) ∧
  (∀ (s : State) (t : Nat) (tk : Ticket), Waits s t 0x0504 tk → serviceOpen s = true →
    exec (.ropeSolo t) s = .next (commit s (busy2 s t))) ∧
  (∀ (s u : State) (t : Nat) (w : BitVec 64) (tk : Ticket), Waits s t 0x0505 tk → regCommand s 0xD0000 w.toNat = some u →
    exec (.ropeConfig t w) s = .next (commit s (answer u t scOk)))

/-- R25, R353, R373, R384, R413, R421, R423, Tables 2-4 and 14-6: the commands on power, thermal limits, domains, the
logbook, the pitch logs and the routing of notifications. -/
def Obligations.PowerAndLogCommands : Prop :=
  (∀ (s : State) (t : Nat) (tk : Ticket), Waits s t 0x0602 tk → tk.mgmt = true → seqState s = stService →
    exec (.pwrShutdown t) s = .next (commit s (orderlyStop (answer s t scOk) 3))) ∧
  (∀ (s : State) (t : Nat) (tk : Ticket), Waits s t 0x0602 tk → tk.mgmt = true → seqState s ≠ stService →
    exec (.pwrShutdown t) s = .next (commit s (busy2 s t))) ∧
  (∀ (s : State) (t r : Nat) (tk : Ticket), Waits s t 0x0603 tk → r ≤ 46 →
    exec (.vcoreSet t r) s = .next (commit s (answer (vcoreTarget (setF s Reg.fabVcoreReq r)) t scOk))) ∧
  (∀ (s : State) (t r : Nat) (tk : Ticket), Waits s t 0x0603 tk → 46 < r →
    exec (.vcoreSet t r) s = .next (commit s (rangeFree s t))) ∧
  (∀ (s u : State) (t : Nat) (w : BitVec 64) (tk : Ticket), Waits s t 0x0605 tk → regCommand s 0x60000 w.toNat = some u →
    exec (.thermalConfig t w) s = .next (commit s (answer u t scOk))) ∧
  (∀ (s : State) (t : Nat) (w : BitVec 64) (tk : Ticket), Waits s t 0x0605 tk → regCommand s 0x60000 w.toNat = none →
    exec (.thermalConfig t w) s = .next (commit s (rangeFree s t))) ∧
  (∀ (s u : State) (t : Nat) (w : BitVec 64) (tk : Ticket), Waits s t 0x0607 tk → regCommand s 0x50000 w.toNat = some u →
    exec (.seqConfig t w) s = .next (commit s (answer u t scOk))) ∧
  (∀ (s : State) (t d : Nat) (tk : Ticket), Waits s t 0x0606 tk → d < 127 → switchRule s d false = .free → d < 42 → d ≠ 9 →
    domOn s d = true → exec (.domainSwitch t d false) s = .next (commit s (answer (setDom s d false) t scOk))) ∧
  (∀ (s : State) (t d : Nat) (tk : Ticket), Waits s t 0x0606 tk → d < 127 → switchRule s d true = .free → domOn s d = false →
    exec (.domainSwitch t d true) s = .next (commit s (answer (powerUp s d) t scOk))) ∧
  (∀ (s : State) (t d : Nat) (tk : Ticket), Waits s t 0x0606 tk → 42 ≤ d → d ≤ 57 → switchRule s d false = .free →
    domOn s d = true → exec (.domainSwitch t d false) s = .next (commit s
      (showWalk { working s t with sum.walks := s.sum.walks ++ [.off (d - 42) (some t)] }))) ∧
  (∀ (s : State) (t d : Nat) (b : Bool) (tk : Ticket), Waits s t 0x0606 tk → d < 127 → switchRule s d b = .unmet →
    exec (.domainSwitch t d b) s = .next (commit s (busy2 s t))) ∧
  (∀ (s : State) (d : Nat), 11 ≤ d → d ≤ 41 → guideIdle s (d - 10) = false → switchRule s d false = .unmet) ∧
  (∀ (s : State) (t d : Nat) (b : Bool) (tk : Ticket), Waits s t 0x0606 tk → d < 127 → switchRule s d b = .never →
    exec (.domainSwitch t d b) s = .next (commit s (answer s t scNotPermitted))) ∧
  (∀ (s : State) (t : Nat) (b : Bool) (tk : Ticket), Waits s t 0x0606 tk → tk.level < 3 →
    exec (.domainSwitch t 127 b) s = .next (commit s (answer s t scAuthority 3))) ∧
  (∀ (s : State) (b : Bool), switchRule s 0 b = .never ∧ switchRule s 42 b = .unmet ∧
    (isSet s Reg.rlCfgTeamEn = true → switchRule s 9 b = .never)) ∧
  (∀ (s : State) (t n : Nat) (tk : Ticket), Waits s t 0x0703 tk → tk.mgmt = true → n < 40 →
    exec (.freeze t n) s = .next (commit s (answer (freezeLog s n) t scOk)) ∧ (plogOf (freezeLog s n) n).frozen = true ∧
      (plogOf (freezeLog s n) n).thawAt = s.timebase + sec 10) ∧
  (∀ (s : State) (t n : Nat) (tk : Ticket), Waits s t 0x0705 tk → tk.mgmt = true → n < 40 →
    exec (.thaw t n) s = .next (commit s (answer (thawLog s n) t scOk)) ∧
      ((plogOf s n).frozen = true → (plogOf (thawLog s n) n).frozen = false)) ∧
  (∀ (s : State) (t : Nat) (tk : Ticket), Waits s t 0x0703 tk → tk.mgmt = true →
    exec (.freeze t 0xFF) s = .next (commit s (answer ((List.range 40).foldl freezeLog s) t scOk))) ∧
  (∀ (s : State) (t : Nat) (tk : Ticket), Waits s t 0x0705 tk → tk.mgmt = true →
    exec (.thaw t 0xFF) s = .next (commit s (answer ((List.range 40).foldl thawLog s) t scOk))) ∧
  (∀ (s : State) (n : Nat), wfAutoThaw n = true → (plogOf s n).frozen = true →
    exec (.autoThaw n) s = .next (commit s (thawLog (reach s (plogOf s n).thawAt) n))) ∧
  (∀ (s : State) (t src q : Nat) (tk : Ticket), Waits s t 0x0707 tk → src < 40 → q < 16 →
    exec (.nqConfig t src (some q)) s = .next (commit s (answer { s with route := tset s.route src (some q) } t scOk))) ∧
  (∀ (s : State) (t src : Nat) (tk : Ticket), Waits s t 0x0707 tk → (src < 40 ∨ src = srcLog) →
    exec (.nqConfig t src none) s = .next (commit s (answer { s with route := tset s.route src none } t scOk)))

/-- LOG_CLEAR (R421): it needs custodian authority; it discards every record, sets DROPPED to 0, clears FULL, and
leaves LOG_CLEARED as the only record, with the next number of the series and the range that it discarded. -/
def Obligations.LogCleared : Prop :=
  (opInfo 0x0702).map (·.1) = some 2 ∧
  (∀ (s : State) (t : Nat) (tk : Ticket), Waits s t 0x0702 tk → tk.mgmt = true → (∀ n, tk.chan ≠ .net n) →
    exec (.logClear t) s = .next (commit s (answer (logClear s (tk.ident + 4096) 0) t scOk))) ∧
  (∀ (s : State) (t n : Nat) (tk : Ticket), Waits s t 0x0702 tk → tk.mgmt = true → tk.chan = .net n →
    exec (.logClear t) s = .next (commit s (answer (logClear s (tk.ident + 4096) 1) t scOk))) ∧
  (∀ (s : State) (who chan : Nat), s.log.loaded = true →
    ∃ r, (logClear s who chan).log.recs = [r] ∧ r.ev = .logCleared ∧ r.src = srcLog ∧ r.seq = s.log.next ∧
      r.detail = [who, chan, ((s.log.recs.head?).map (·.seq)).getD 0, ((s.log.recs.getLast?).map (·.seq)).getD 0,
        getF s Reg.logStatusDropped] ∧
      (logClear s who chan).log.next = s.log.next + 1 ∧ getF (logClear s who chan) Reg.logStatusDropped = 0 ∧
      isSet (logClear s who chan) Reg.logStatusFull = false ∧ (logClear s who chan).conns = s.conns)

/-- R191, R226, R229, R251, R295, R296, R402: the commands on camp, the valley, the firmware banks and the stored
configuration. -/
def Obligations.MediaCommands : Prop :=
  (∀ (s u : State) (t : Nat) (w : BitVec 64) (tk : Ticket), Waits s t 0x0801 tk → regCommand s 0xA0028 w.toNat = some u →
    exec (.scrubConfig t w) s = .next (commit s (scrubAsk (answer u t scOk)))) ∧
  (∀ (s u : State) (t : Nat) (a b c : BitVec 64) (tk : Ticket), Waits s t 0x0803 tk → isSet s Reg.campRfgCfgEn = false →
    regCommands s [(0xA0010, a), (0xA0018, b), (0xA0020, c)] = some u →
    exec (.campConfig t a b c) s = .next (commit s (answer u t scOk))) ∧
  (∀ (s : State) (t : Nat) (a b c : BitVec 64) (tk : Ticket), Waits s t 0x0803 tk → isSet s Reg.campRfgCfgEn = true →
    bit b.toNat 48 = false → tk.level < 3 →
    exec (.campConfig t a b c) s = .next (commit s (answer s t scAuthority 3))) ∧
  (∀ (s : State) (t ch sub rk bk row cpa : Nat) (tk : Ticket), Waits s t 0x0804 tk → rowCpa s ch sub rk bk row = some cpa →
    exec (.campRowRetire t ch sub rk bk row) s = .next (commit s (answer (rowRetire s cpa) t scOk))) ∧
  (∀ (s u : State) (t : Nat) (w : BitVec 64) (tk : Ticket), Waits s t 0x0805 tk → regCommand s 0xB0000 w.toNat = some u →
    exec (.valleyConfig t w) s = .next (commit s (answer u t scOk))) ∧
  (∀ (s : State) (t : Nat) (tk : Ticket), Waits s t 0x0901 tk → le tk.par 0 1 ≤ 1 → le tk.par 4 4 % 256 = 0 →
    le tk.par 4 4 + (tk.par.drop 8).length ≤ 0x600000 → bankRunning s ≠ some (le tk.par 0 1) →
    let u := (List.range ((tk.par.drop 8).length / 256)).foldl (writeRow (le tk.par 0 1) (le tk.par 4 4) (tk.par.drop 8))
      (csStatus (setBank2 s (le tk.par 0 1) { bankOf s (le tk.par 0 1) with committed := false }) 0)
    (u.cairn.status ≠ 2 → exec (.firmwareWrite t) s = .next (commit s (answer u t scOk))) ∧
    (u.cairn.status = 2 → exec (.firmwareWrite t) s = .next (commit s (answer u t scVerifyFailed 2)))) ∧
  (∀ (s : State) (t : Nat) (tk : Ticket), Waits s t 0x0901 tk → le tk.par 0 1 ≤ 1 → le tk.par 4 4 % 256 = 0 →
    le tk.par 4 4 + (tk.par.drop 8).length ≤ 0x600000 → bankRunning s = some (le tk.par 0 1) →
    exec (.firmwareWrite t) s = .next (commit s (busy2 s t))) ∧
  (∀ (s : State) (t b : Nat) (i : BankImage) (tk : Ticket), Waits s t 0x0902 tk → b ≤ 1 → bankRunning s ≠ some b →
    exec (.firmwareVerify t b i) s = .next (commit s (if bankOk s i
      then answer (csStatus (setBank2 s b { secVersion := i.secVersion, build := i.build, committed := true }) 0) t scOk
      else answer (csStatus s 5) t scVerifyFailed 5))) ∧
  (∀ (s : State) (t b : Nat) (i : BankImage) (tk : Ticket), Waits s t 0x0902 tk → b ≤ 1 → i.marginOk = false →
    exec (.firmwareVerify t b i) s = .next (commit s (answer (csStatus s 5) t scVerifyFailed 5))) ∧
  (∀ (s : State) (t b : Nat) (tk : Ticket), Waits s t 0x0903 tk → b ≤ 1 → b = s.cairn.bootPref →
    exec (.firmwareSelect t b) s = .next (commit s
      (answer (cfgWrite { s with cairn.bootPref := b } fun c => { c with bootPref := b }) t scOk))) ∧
  (∀ (s : State) (t b : Nat) (tk : Ticket), Waits s t 0x0903 tk → b ≤ 1 → b ≠ s.cairn.bootPref →
    let u := setF s Reg.fabStartStatusFailedStarts 0
    exec (.firmwareSelect t b) s = .next (commit s
      (answer (cfgWrite { u with cairn.bootPref := b } fun c => { c with bootPref := b }) t scOk))) ∧
  (∀ (s : State) (t n : Nat) (tk : Ticket), Waits s t 0x0904 tk → bankRunning s = some n → serviceOpen s = true →
    (bankOf s (1 - n)).committed = false → exec (.firmwareCommit t) s = .next (commit s
      (answer { s with fuse := tset s.fuse 68 (max (getF s Reg.idFwSecVersion) (tcnt s.fuse 68)) } t scOk))) ∧
  (∀ (s : State) (t n : Nat) (tk : Ticket), Waits s t 0x0904 tk → bankRunning s = some n →
    (bankOf s (1 - n)).committed = true → (bankOf s (1 - n)).secVersion < getF s Reg.idFwSecVersion →
    exec (.firmwareCommit t) s = .next (commit s (busy2 s t))) ∧
  (∀ (s : State) (t : Nat) (tk : Ticket), Waits s t 0x0905 tk → exec (.configSave t) s = .next (commit s
    (configSaved t (cfgWrite s fun c => { c with
      regs := savedFields.map (fun f => (f.key, getF s f)), ids := s.ids, opKey := s.cmd.opKey, custKey := s.cmd.custKey,
      roots := s.key.blobs, route := s.route, bootPref := s.cairn.bootPref })))) ∧
  (∀ (s : State) (t : Nat) (f : CfgCopy → CfgCopy), s.cairn.inForce < 2 → s.cairn.weak = [] →
    configSaved t (cfgWrite s f) = answer (cfgWrite s f) t scOk) ∧
  (∀ (s : State) (f : CfgCopy → CfgCopy), s.cairn.weak = [] →
    (cfgWrite s f).cairn.inForce ≠ s.cairn.inForce ∨ 2 ≤ s.cairn.inForce)

/-- R60, R398, R405 to R407, R448, Tables 14-9, 14-10 and 16-2: the ladder's commands name a function of their class,
join a rung that runs, and reset or cycle a part that can; the brakes quiesce and resume a sub-port, end a
connection, fence an identity and a region. -/
def Obligations.LadderAndBrakeCommands : Prop :=
  (∀ (s : State) (t : Nat) (tk : Ticket), Waits s t 0x0A01 tk → tk.mgmt = true → le tk.par 0 1 = 2 → le tk.par 2 2 < 16 →
    (ladFn s (fnKey 2 (le tk.par 2 2))).rung = 0 →
    exec (.ladderRetry t) s = .next (commit s (answer (rung1 s (fnKey 2 (le tk.par 2 2))) t scOk))) ∧
  (∀ (s : State) (t : Nat) (tk : Ticket), Waits s t 0x0A01 tk → fnCount (le tk.par 0 1) = 0 →
    exec (.ladderRetry t) s = .next (commit s (answer s t scOutOfRange 0))) ∧
  (∀ (s : State) (t : Nat) (tk : Ticket), Waits s t 0x0A02 tk → tk.mgmt = true → le tk.par 0 1 = 2 → le tk.par 2 2 < 16 →
    (ladFn s (fnKey 2 (le tk.par 2 2))).rung ≠ 0 →
    exec (.ladderReinit t) s = .next (commit s (joinRung s t (fnKey 2 (le tk.par 2 2))))) ∧
  (∀ (s : State) (t : Nat) (tk : Ticket), Waits s t 0x0A02 tk → tk.mgmt = true → le tk.par 0 1 = 7 → le tk.par 2 2 < 2 →
    let k := fnKey 7 (le tk.par 2 2)
    (ladFn s k).rung = 0 → exec (.ladderReinit t) s = .next (commit s
      (rung2Try (setLadFn (working s t) k { ladFn s k with held := false, joined := [t] }) k false))) ∧
  (∀ (s : State) (t : Nat) (tk : Ticket), Waits s t 0x0A02 tk → tk.mgmt = true → le tk.par 0 1 = 2 → le tk.par 2 2 < 16 →
    let k := fnKey 2 (le tk.par 2 2)
    (ladFn s k).rung = 0 → le tk.par 2 2 ∉ s.camp.gone → exec (.ladderReinit t) s = .next (commit s
      (rung2Try (setLadFn (working s t) k { ladFn s k with held := false, joined := [t] }) k false))) ∧
  (∀ (s : State) (t : Nat) (tk : Ticket), Waits s t 0x0A03 tk → canReset s = true → seqState s ≠ stStopping →
    (lastHour s s.ladder.resets).length < 2 →
    exec (.deviceReset t) s = .next (commit s (startRung (working s t) 3 0 4))) ∧
  (∀ (s : State) (t : Nat) (tk : Ticket), Waits s t 0x0A03 tk → canReset s = true → seqState s ≠ stStopping →
    2 ≤ (lastHour s s.ladder.resets).length → isSet s Reg.fabLadderCfgAutoCycle = true →
    exec (.deviceReset t) s = .next (commit s (startRung (working s t) 4 0 2))) ∧
  (∀ (s : State) (t : Nat) (tk : Ticket), Waits s t 0x0A04 tk → canReset s = true →
    exec (.pwrCycle t) s = .next (commit s (startRung (working s t) 4 0 2))) ∧
  (∀ (s : State) (t : Nat) (tk : Ticket), Waits s t 0x0A04 tk → canReset s = false →
    exec (.pwrCycle t) s = .next (commit s (busy2 s t))) ∧
  (∀ (s : State) (t : Nat) (tk : Ticket), Waits s t 0x0B01 tk → tk.mgmt = true → le tk.par 0 1 < 32 → le tk.par 1 1 = 1 →
    subState s (le tk.par 0 1) ≠ subAbsent →
    exec (.portQuiesce t) s = .next (commit s (answer (quiesce s (le tk.par 0 1)) t scOk))) ∧
  (∀ (s : State) (t : Nat) (tk : Ticket), Waits s t 0x0B01 tk → tk.mgmt = true → le tk.par 0 1 < 32 → le tk.par 1 1 = 2 →
    subState s (le tk.par 0 1) ≠ subAbsent →
    exec (.portQuiesce t) s = .next (commit s (answer (resume s (le tk.par 0 1)) t scOk))) ∧
  (∀ (s : State) (n : Nat), n < 32 → subState s n = subUp → s.conns = [] → subState (quiesce s n) n = subQuiesced) ∧
  (∀ (s : State) (t : Nat) (tk : Ticket) (c : Conn), Waits s t 0x0B02 tk → connOf s (le tk.par 0 3) = some c →
    tk.owns c.ident = true →
    exec (.connFence t) s = .next (commit s (answer (connError s (connIdx (le tk.par 0 3))) t scOk))) ∧
  (∀ (s : State) (t : Nat) (tk : Ticket), Waits s t 0x0B03 tk → tk.mgmt = true → le tk.par 2 1 = 1 → le tk.par 3 1 = 0 →
    thas s.ids (le tk.par 0 2 % 4096) = true → s.conns = [] →
    exec (.hostFence t) s = .next (commit s (answer (discardWaiting
      { s with cmd.fencedIds := s.cmd.fencedIds.filter (· != le tk.par 0 2 % 4096) ++ [le tk.par 0 2 % 4096] } t
      (le tk.par 0 2 % 4096)) t scOk 0))) ∧
  (∀ (s : State) (t : Nat) (tk : Ticket), Waits s t 0x0B03 tk → tk.owns (le tk.par 0 2 % 4096) = true →
    thas s.ids (le tk.par 0 2 % 4096) = true →
    let n := le tk.par 0 2 % 4096
    let cs := (s.conns.filter fun x => x.2.ident == n && x.2.st.live).map (·.1)
    let up := discardWaiting { s with cmd.fencedIds := s.cmd.fencedIds.filter (· != n) ++ [n] } t n
    (le tk.par 2 1 = 1 → bit (le tk.par 3 1) 0 = false → exec (.hostFence t) s = .next (commit s (answer up t scOk cs.length))) ∧
    (le tk.par 2 1 = 1 → bit (le tk.par 3 1) 0 = true → exec (.hostFence t) s = .next (commit s
      (answer (cs.foldl (fun s ci => closeConn s ci 2) up) t scOk cs.length))) ∧
    (le tk.par 2 1 = 2 → bit (le tk.par 3 1) 0 = false → exec (.hostFence t) s = .next (commit s
      (answer { s with cmd.fencedIds := s.cmd.fencedIds.filter (· != n) } t scOk cs.length)))) ∧
  (∀ (s : State) (t : Nat) (tk : Ticket) (r : Region), Waits s t 0x0B04 tk → regionOf s (le tk.par 0 4) = some r →
    tk.owns r.owner = true → le tk.par 4 1 = 1 → s.tables.regions.countP (·.2.fenced) < 4096 →
    exec (.regionFence t) s = .next (commit s (answer { s with
      tables.regions := tmod s.tables.regions (keyIdx (le tk.par 0 4)) fun r => { r with fenced := true } } t scOk))) ∧
  (∀ (s : State) (t : Nat) (tk : Ticket) (r : Region), Waits s t 0x0B04 tk → regionOf s (le tk.par 0 4) = some r →
    tk.owns r.owner = true → le tk.par 4 1 = 2 →
    exec (.regionFence t) s = .next (commit s (answer { s with
      tables.regions := tmod s.tables.regions (keyIdx (le tk.par 0 4)) fun r => { r with fenced := false } } t scOk))) ∧
  (∀ (s : State) (ch : Chan) (b : Bytes) (lvl chans : Nat), formatFault b = none →
    opInfo (cmdHdr b).op = some (lvl, chans) → channelOk s ch chans (cmdHdr b) = true → (cmdHdr b).level = 0 →
    needsLevel s (cmdHdr b) (bsub b 32 (cmdHdr b).plen) lvl = 0 → (cmdHdr b).mgmt = false →
    (cmdHdr b).ident ∈ s.cmd.fencedIds →
    frontEnd s ch b none = { s with cmd.discarded := s.cmd.discarded + 1 })
end

