-- ==== Sys2Proof/Laws/Tab.lean ====
section
/-! SUPPORT. Lookups after updates in sparse tables, and the canonical form of the range. -/

namespace Sys2Proof.Machine

variable {α : Type}

@[simp] theorem tget_nil (n : Nat) : tget ([] : Tab α) n = none := rfl

@[simp] theorem tget_tset_same (t : Tab α) (n : Nat) (x : α) : tget (tset t n x) n = some x := by
  induction t with
  | nil => simp [tset, tget]
  | cons a t ih =>
    simp only [tset]
    split
    · simp [tget]
    · split
      · simp [tget]
      · rename_i _ h; simp [tget, ih, Ne.symm h]

theorem tget_tset_ne (t : Tab α) {n m : Nat} (x : α) (h : m ≠ n) : tget (tset t n x) m = tget t m := by
  induction t with
  | nil => simp [tset, tget, h.symm]
  | cons a t ih =>
    simp only [tset]
    split
    · simp [tget, h.symm]
    · split
      · rename_i h2; subst h2; simp [tget, h.symm]
      · simp [tget, ih]

theorem tget_tset (t : Tab α) (n m : Nat) (x : α) : tget (tset t n x) m = if m = n then some x else tget t m := by
  by_cases h : m = n
  · subst h; simp
  · simp [h, tget_tset_ne]

@[simp] theorem tget_tdel_same (t : Tab α) (n : Nat) : tget (tdel t n) n = none := by
  induction t with
  | nil => rfl
  | cons a t ih => simp only [tdel]; split <;> simp_all [tget]

theorem tget_tdel_ne (t : Tab α) {n m : Nat} (h : m ≠ n) : tget (tdel t n) m = tget t m := by
  induction t with
  | nil => rfl
  | cons a t ih =>
    simp only [tdel]
    split
    · rename_i h2; simp [tget, h2, h.symm, ih]
    · simp [tget, ih]

theorem tget_tdel (t : Tab α) (n m : Nat) : tget (tdel t n) m = if m = n then none else tget t m := by
  by_cases h : m = n
  · subst h; simp
  · simp [h, tget_tdel_ne]

@[simp] theorem thas_tset_same (t : Tab α) (n : Nat) (x : α) : thas (tset t n x) n = true := by simp [thas]

@[simp] theorem tcnt_nil (n : Nat) : tcnt [] n = 0 := rfl

theorem tcnt_tset (t : Tab Nat) (n m x : Nat) : tcnt (tset t n x) m = if m = n then x else tcnt t m := by
  unfold tcnt; rw [tget_tset]; split <;> rfl

/-! ## The range -/

theorem Memory.wf_tail {c : Host.Cell} {t : List Host.Cell} (h : Memory.wf (c :: t) = true) : Memory.wf t = true := by
  cases t with
  | nil => rfl
  | cons d t => simp only [Memory.wf, Bool.and_eq_true] at h; exact h.2

theorem Memory.wf_cons {c : Host.Cell} {t : List Host.Cell} (hc : c.2 ≠ 0) (hl : ∀ d ∈ t.head?, c.1 < d.1)
    (ht : Memory.wf t = true) : Memory.wf (c :: t) = true := by
  cases t with
  | nil => simpa [Memory.wf] using hc
  | cons d t => simpa [Memory.wf, hl d (by simp), ht] using hc

theorem memSet_head (m : List Host.Cell) (a : Nat) (b : Byte) (k : Nat) (hk : k < a) (hm : ∀ d ∈ m.head?, k < d.1)
    (hw : Memory.wf m = true) : ∀ d ∈ (memSet m a b).head?, k < d.1 := by
  cases m with
  | nil => simp only [memSet]; split <;> simp [hk]
  | cons c t =>
    obtain ⟨k', c'⟩ := c
    have hk' : k < k' := hm (k', c') (by simp)
    simp only [memSet]
    split
    · split <;> simp [hk, hk']
    · split
      · split
        · intro d hd
          cases t with
          | nil => simp at hd
          | cons e t => simp [Memory.wf] at hw; simp at hd; subst hd; omega
        · simp [hk]
      · simp [hk']

/-- A write keeps the canonical form. -/
theorem memSet_wf (m : List Host.Cell) (a : Nat) (b : Byte) (h : Memory.wf m = true) : Memory.wf (memSet m a b) = true := by
  induction m with
  | nil => simp only [memSet]; split <;> simp_all [Memory.wf]
  | cons c t ih =>
    obtain ⟨k, c⟩ := c
    have hc : c ≠ 0 := by cases t <;> simp [Memory.wf] at h <;> simp [h]
    have ht := Memory.wf_tail h
    have hl : ∀ d ∈ t.head?, k < d.1 := by
      cases t with
      | nil => simp
      | cons e t => simp [Memory.wf] at h; simp; exact h.1.2
    simp only [memSet]
    split
    · split
      · exact h
      · exact Memory.wf_cons ‹_› (by simpa) h
    · split
      · rename_i h2
        split
        · exact ht
        · exact Memory.wf_cons ‹_› (by subst h2; exact hl) ht
      · exact Memory.wf_cons hc (memSet_head t a b k (by omega) hl ht) (ih ht)

/-- What the range is made into is always canonical. -/
theorem memCanon_wf (m : List Host.Cell) : Memory.wf (memCanon m) = true := by
  induction m with
  | nil => rfl
  | cons c t ih => exact memSet_wf _ _ _ ih

/-- Read after write, in a canonical range. -/
theorem memGet_memSet_same (m : List Host.Cell) (a : Nat) (b : Byte) (h : Memory.wf m = true) :
    memGet (memSet m a b) a = b := by
  induction m with
  | nil => simp only [memSet]; split <;> simp_all [memGet]
  | cons c t ih =>
    obtain ⟨k, c⟩ := c
    have low : ∀ (t : List Host.Cell) (a : Nat), Memory.wf t = true → (∀ d ∈ t.head?, a < d.1) → memGet t a = 0 := by
      intro t
      induction t with
      | nil => intros; rfl
      | cons e t ih2 =>
        intro a hw hl
        have h1 : a < e.1 := hl e (by simp)
        have : e.1 ≠ a := by omega
        simp only [memGet, this, ↓reduceIte]
        refine ih2 a (Memory.wf_tail hw) ?_
        cases t with
        | nil => simp
        | cons f t => simp [Memory.wf] at hw; simp; omega
    simp only [memSet]
    split
    · split
      · rename_i h1 h2; rw [h2]; exact low _ _ h (by simpa using h1)
      · simp [memGet]
    · split
      · rename_i h2
        split
        · rename_i h3
          rw [h3]
          refine low _ _ (Memory.wf_tail h) ?_
          cases t with
          | nil => simp
          | cons e t => simp [Memory.wf] at h; simp; omega
        · simp [memGet]
      · rename_i h2
        simp [memGet, Ne.symm h2, ih (Memory.wf_tail h)]

/-- A write leaves every other byte alone. -/
theorem memGet_memSet_ne (m : List Host.Cell) {a x : Nat} (b : Byte) (h : x ≠ a) :
    memGet (memSet m a b) x = memGet m x := by
  induction m with
  | nil => simp only [memSet]; split <;> simp [memGet, h.symm]
  | cons c t ih =>
    obtain ⟨k, c⟩ := c
    simp only [memSet]
    split
    · split <;> simp [memGet, h.symm]
    · split
      · rename_i h2; subst h2; split <;> simp [memGet, h.symm]
      · simp [memGet, ih]

/-- Making the range canonical changes no byte of it. -/
theorem memGet_memCanon (m : List Host.Cell) (a : Nat) : memGet (memCanon m) a = memGet m a := by
  induction m with
  | nil => rfl
  | cons c t ih =>
    show memGet (memSet (memCanon t) c.1 c.2) a = _
    by_cases h : a = c.1
    · subst h; rw [memGet_memSet_same _ _ _ (memCanon_wf t)]; simp [memGet]
    · rw [memGet_memSet_ne _ _ h, ih]; simp [memGet, Ne.symm h]

/-- A canonical range is left as it is. -/
theorem memCanon_of_wf (m : List Host.Cell) (h : Memory.wf m = true) : memCanon m = m := by
  induction m with
  | nil => rfl
  | cons c t ih =>
    have ht := ih (Memory.wf_tail h)
    show memSet (memCanon t) c.1 c.2 = _
    rw [ht]
    cases t with
    | nil => simp [Memory.wf] at h; simp [memSet, h]
    | cons d t => simp [Memory.wf] at h; simp [memSet, h]

/-! ## Fuses -/

theorem tcnt_fuseKeep_ge (old : Tab Nat) : ∀ (new : Tab Nat) (k : Nat), tcnt new k ≤ tcnt (fuseKeep old new) k := by
  induction old with
  | nil => intro new k; exact Nat.le_refl _
  | cons a t ih =>
    intro new k
    refine Nat.le_trans ?_ (ih _ k)
    rw [tcnt_tset]; split
    · subst_vars; omega
    · omega

/-- Keeping the fuses keeps each of them. -/
theorem tcnt_fuseKeep (old : Tab Nat) : ∀ (new : Tab Nat) (k : Nat), tcnt old k ≤ tcnt (fuseKeep old new) k := by
  induction old with
  | nil => intro new k; simp
  | cons a t ih =>
    intro new k
    by_cases h : a.1 = k
    · refine Nat.le_trans ?_ (tcnt_fuseKeep_ge t _ k)
      have : tcnt (a :: t) k = a.2 := by simp [tcnt, tget, h]
      rw [this, tcnt_tset]; simp [h]
    · have : tcnt (a :: t) k = tcnt t k := by simp [tcnt, tget, h]
      rw [this]; exact ih _ k

end Sys2Proof.Machine
end

