-- ==== Sys2Proof/Laws/Exec.lean ====
section
/-! SUPPORT. What every command has in common: it answers a committed state when it is well formed, and the fault of a
command that names no unit of the part when it is not. -/

namespace Sys2Proof.Machine

@[simp] theorem needs_true (s t : State) : needs true s t = .next (commit s t) := rfl

@[simp] theorem needs_false (s t : State) : needs false s t = .fault .noSuchUnit := rfl

/-- The outcome `o` of a command with well-formedness `b` in state `s`. -/
def Settles (b : Bool) (s : State) (o : Out) : Prop :=
  (b = true ∧ ∃ u, o = .next (commit s u)) ∨ (b = false ∧ o = .fault .noSuchUnit)

theorem needs_settles (b : Bool) (s t : State) : Settles b s (needs b s t) := by
  cases b
  · exact .inr ⟨rfl, rfl⟩
  · exact .inl ⟨rfl, t, rfl⟩

/-- Every command settles by its well-formedness. -/
theorem exec_settles (c : Instr) (s : State) : Settles (wellFormed c) s (exec c s) := by
  cases c <;> exact needs_settles _ s _

/-- A next state is a committed one. -/
theorem exec_next {c : Instr} {s t : State} (h : exec c s = .next t) :
    wellFormed c = true ∧ ∃ u, t = commit s u := by
  rcases exec_settles c s with ⟨w, u, e⟩ | ⟨_, e⟩
  · rw [e] at h; injection h with h; exact ⟨w, u, h.symm⟩
  · rw [e] at h; cases h

/-- A step's next state is a committed one, over the state whose queue has lost its front. -/
theorem step_next {s t : State} (h : step s = .next t) :
    ∃ u, t = commit { s with pending := s.pending.tail } u := by
  unfold step at h
  split at h
  · injection h with h
    refine ⟨orderlyCheck (guidesReady { s with timebase := s.timebase + 1 }), ?_⟩
    rw [← h, idleTick]
    simp [commit, *]
  · rename_i c rest e
    obtain ⟨_, u, hu⟩ := exec_next h
    exact ⟨u, by rw [hu, e]; rfl⟩

end Sys2Proof.Machine
end

