-- ==== Sys2Proof/Laws/PerInstr.lean ====
section
/-! SUPPORT. Per-command family `Named`: every command has the mnemonic of its row, and no other row has it. -/

namespace Sys2Proof.Laws.Named

/-- The row number of a command in the opcode table. -/
def row : Instr → Nat
  | .fabVcoreReqWrite .. => 0
  | .avsStepAck .. => 1
  | .avsAckTimeout => 2
  | .avsReadback .. => 3
  | .sysRefclkLoss => 4
  | .stallWdogSample .. => 5
  | .pdIdleGate .. => 6
  | .pdWake .. => 7
  | .pdPowerUpGrant .. => 8
  | .hostLaneLoss .. => 9
  | .subportLinkUp .. => 10
  | .frameTransmit .. => 11
  | .readReq .. => 12
  | .writeReq .. => 13
  | .writepReq .. => 14
  | .flush .. => 15
  | .cas64 .. => 16
  | .fadd64 .. => 17
  | .cas128 .. => 18
  | .send .. => 19
  | .triggeredSend .. => 20
  | .ack .. => 21
  | .nak .. => 22
  | .mgmt .. => 23
  | .connect .. => 24
  | .pathOpen .. => 25
  | .close .. => 26
  | .closed .. => 27
  | .closeDrainEnd .. => 28
  | .controlResend .. => 29
  | .retransmitTimerExpiry .. => 30
  | .connNumberFree .. => 31
  | .ackDelayExpiry .. => 32
  | .completionRepeat .. => 33
  | .rnrWaitExpiry .. => 34
  | .msnRangeWaitExpiry .. => 35
  | .zeroWindowProbe .. => 36
  | .windowRestore .. => 37
  | .pfcFrame .. => 38
  | .pfcPauseExpiry .. => 39
  | .pfcRefreshTimer .. => 40
  | .budgetReservationMet => 41
  | .budgetWaitExpiry .. => 42
  | .workRequestStart .. => 43
  | .workRequestComplete .. => 44
  | .workRequestFail .. => 45
  | .promotionUnitFilled .. => 46
  | .parkEntryFree => 47
  | .valleyDirectTimer .. => 48
  | .moverJobStart .. => 49
  | .moverUnitDone .. => 50
  | .destageProgramDone .. => 51
  | .destageProgramFail .. => 52
  | .walkerEvict .. => 53
  | .segmentRebuildDone .. => 54
  | .markerLogTimer .. => 55
  | .ddrCommandIssue .. => 56
  | .campReadDone .. => 57
  | .whistleLong .. => 58
  | .refreshInterval .. => 59
  | .mr4Poll .. => 60
  | .dimmTempPoll .. => 61
  | .rfgWindowClear => 62
  | .rfgToken .. => 63
  | .rfgHoldExpiry .. => 64
  | .campTrainStageDone .. => 65
  | .zqTimer => 66
  | .dqsoscRead .. => 67
  | .centringEscalation .. => 68
  | .frameMoveDone .. => 69
  | .valleyReadDone .. => 70
  | .valleyProgramDone .. => 71
  | .nandResetTimeout .. => 72
  | .valleyEraseDone .. => 73
  | .programWaitExpiry .. => 74
  | .stripeCloseTimer .. => 75
  | .journalPageTimer => 76
  | .tableLogPageTimer => 77
  | .logbookPageTimer => 78
  | .verifyPassRead .. => 79
  | .csErase .. => 80
  | .csProgram .. => 81
  | .csVerify .. => 82
  | .csCommit .. => 83
  | .csBankVerify .. => 84
  | .csWear => 85
  | .pitchLogFlushTimer => 86
  | .lineRepairDone .. => 87
  | .faultWindowBucket .. => 88
  | .scrubStep .. => 89
  | .sramScrubStep .. => 90
  | .summitFillDone .. => 91
  | .dirtyEvictAdmitted .. => 92
  | .lockWaysWrite .. => 93
  | .wayCleanDone => 94
  | .cipherRequestDone .. => 95
  | .keyDerivationDone .. => 96
  | .rootReunwrap .. => 97
  | .knownAnswerTest .. => 98
  | .hello .. => 99
  | .negotiateTimeout => 100
  | .order .. => 101
  | .operation => 102
  | .command => 103
  | .topo => 104
  | .chain => 105
  | .partMsg => 106
  | .ivReserve => 107
  | .epochMark => 108
  | .handover => 109
  | .confirm .. => 110
  | .renew .. => 111
  | .renewAck .. => 112
  | .renewalTimer => 113
  | .leaseEnd => 114
  | .leaseExpiry => 115
  | .guardEnd => 116
  | .fillReq .. => 117
  | .fillData .. => 118
  | .fillWaitExpiry => 119
  | .fetchReq .. => 120
  | .fetchData .. => 121
  | .repairTimeout .. => 122
  | .catchup .. => 123
  | .control .. => 124
  | .returnRequest .. => 125
  | .ropeAck .. => 126
  | .ropeRetransmitTimer .. => 127
  | .ropeInstanceDown .. => 128
  | .ropeInstanceUp .. => 129
  | .holdTimeExpiry .. => 130
  | .leadPathTimeout .. => 131
  | .epochMarkTimer => 132
  | .returnHoldoff => 133
  | .departure .. => 134
  | .pd0PowerUp => 135
  | .vinGood => 136
  | .groupDelayExpiry => 137
  | .psPgRise .. => 138
  | .dwellEnd .. => 139
  | .pgTimeout .. => 140
  | .psPgFall .. => 141
  | .pgLoss .. => 142
  | .monitorReading .. => 143
  | .graceExpiry => 144
  | .dischargeEnd .. => 145
  | .bivStepTimer => 146
  | .inputCollapse => 147
  | .bivouacStepDone => 148
  | .bivouacEnergyLost => 149
  | .holdupFall => 150
  | .holdupRestored => 151
  | .holdupWaitExpiry => 152
  | .buttonRecognised => 153
  | .shortPress => 154
  | .longPress => 155
  | .manualReset => 156
  | .manualResetRelease => 157
  | .restartDue => 158
  | .vddAonLow => 159
  | .thermalScan .. => 160
  | .graceEnd => 161
  | .ceilingStep => 162
  | .cool => 163
  | .guideHang .. => 164
  | .sdRefclkLoss => 165
  | .sdRefclkRestored => 166
  | .startStageDone .. => 167
  | .commandPendingTimer .. => 168
  | .guideWaitTimeout .. => 169
  | .idQuery .. => 170
  | .limitsQuery .. => 171
  | .identitySet .. => 172
  | .identityRemove .. => 173
  | .identityQuery .. => 174
  | .authKeySet .. => 175
  | .regionRegister .. => 176
  | .regionQuery .. => 177
  | .regionRevoke .. => 178
  | .accessGroupSet .. => 179
  | .accessGroupQuery .. => 180
  | .landingRegister .. => 181
  | .landingRemove .. => 182
  | .connQuery .. => 183
  | .connClose .. => 184
  | .chainQueueCreate .. => 185
  | .chainPost .. => 186
  | .chainReset .. => 187
  | .chainQueueDelete .. => 188
  | .chainQuery .. => 189
  | .triggerBind .. => 190
  | .triggerUnbind .. => 191
  | .portConfig .. => 192
  | .objectCreate .. => 193
  | .objectQuery .. => 194
  | .objectSetPlacement .. => 195
  | .objectEvict .. => 196
  | .objectTrim .. => 197
  | .objectDelete .. => 198
  | .objectPublish .. => 199
  | .topoCreate .. => 200
  | .topoStepAdd .. => 201
  | .topoCommit .. => 202
  | .topoDelete .. => 203
  | .topoAdvance .. => 204
  | .topoQuery .. => 205
  | .sumReload .. => 206
  | .sumInvalidate .. => 207
  | .rangeConfig .. => 208
  | .keyRootLoad .. => 209
  | .keyRootUnload .. => 210
  | .keyRootQuery .. => 211
  | .keySessionQuery .. => 212
  | .keySlotStep .. => 213
  | .keySlotQuery .. => 214
  | .keyConfig .. => 215
  | .contentUnseal .. => 216
  | .cvuContextSet .. => 217
  | .cvuContextGet .. => 218
  | .ropeQuery .. => 219
  | .ropeHandover .. => 220
  | .ropeReturnEnable .. => 221
  | .ropeSolo .. => 222
  | .ropeConfig .. => 223
  | .pwrStatus .. => 224
  | .pwrShutdown .. => 225
  | .vcoreSet .. => 226
  | .thermalStatus .. => 227
  | .thermalConfig .. => 228
  | .domainSwitch .. => 229
  | .seqConfig .. => 230
  | .logRead .. => 231
  | .logClear .. => 232
  | .freeze .. => 233
  | .plogRead .. => 234
  | .thaw .. => 235
  | .autoThaw .. => 236
  | .telemetryRead .. => 237
  | .nqConfig .. => 238
  | .scrubConfig .. => 239
  | .campFaultList .. => 240
  | .campConfig .. => 241
  | .campRowRetire .. => 242
  | .valleyConfig .. => 243
  | .valleyStatus .. => 244
  | .firmwareWrite .. => 245
  | .firmwareVerify .. => 246
  | .firmwareSelect .. => 247
  | .firmwareCommit .. => 248
  | .configSave .. => 249
  | .cairnStatus .. => 250
  | .ladderRetry .. => 251
  | .ladderReinit .. => 252
  | .deviceReset .. => 253
  | .pwrCycle .. => 254
  | .ladderStatus .. => 255
  | .portQuiesce .. => 256
  | .connFence .. => 257
  | .hostFence .. => 258
  | .regionFence .. => 259
  | .brakeStatus .. => 260
  | .i3cPrivateWrite .. => 261
  | .i3cPrivateRead => 262
  | .entdaa .. => 263
  | .setdasa .. => 264
  | .rstdaa => 265
  | .enec => 266
  | .disec => 267
  | .getpid => 268
  | .getbcr => 269
  | .getdcr => 270
  | .getstatus => 271
  | .getmwl => 272
  | .getmrl => 273
  | .mbxDoorbell .. => 274
  | .mbxRelease .. => 275
  | .mbxGrantGo => 276
  | .mbxGrantDrop => 277
  | .grantExpiry => 278
  | .mbxIntStatusWrite .. => 279
  | .nqPop .. => 280
  | .nqPeek .. => 281
  | .rcRead .. => 282
  | .cvuCtxWrite .. => 283
  | .registerWrite .. => 284
  | .pcieLinkReset => 285
  | .mpPerstN .. => 286
  | .jtagAccess .. => 287
  | .timeMarkTimer => 288
  | .operatingHourTick => 289
  | .belayWiresLost => 290
  | .sysRefclkRestored => 291
  | .alwaysOnSupplyFail => 292
  | .pmbAlert => 293
  | .ropeLaneLoss .. => 294
  | .ladderBoundExpiry .. => 295
  | .ingressFrameDrop .. => 296
  | .msixEnable => 297
  | .sdRefclkWaitTimeout => 298

/-- Every command is a row of the table. -/
def Statement (i : Instr) : Prop := row i < 299

theorem fabVcoreReqWrite (off : Nat) (data : Bytes) : Statement (.fabVcoreReqWrite off data) := (by decide : 0 < 299)
theorem avsStepAck (mv : Nat) : Statement (.avsStepAck mv) := (by decide : 1 < 299)
theorem avsAckTimeout : Statement (.avsAckTimeout) := (by decide : 2 < 299)
theorem avsReadback (mv : Nat) : Statement (.avsReadback mv) := (by decide : 3 < 299)
theorem sysRefclkLoss : Statement (.sysRefclkLoss) := (by decide : 4 < 299)
theorem stallWdogSample (stuck : List (Nat × Nat)) : Statement (.stallWdogSample stuck) := (by decide : 5 < 299)
theorem pdIdleGate (d : Nat) : Statement (.pdIdleGate d) := (by decide : 6 < 299)
theorem pdWake (d : Nat) : Statement (.pdWake d) := (by decide : 7 < 299)
theorem pdPowerUpGrant (d : Nat) : Statement (.pdPowerUpGrant d) := (by decide : 8 < 299)
theorem hostLaneLoss (port : Nat) (lane : Nat) (narrowOk : Bool) : Statement (.hostLaneLoss port lane narrowOk) := (by decide : 9 < 299)
theorem subportLinkUp (sub : Nat) : Statement (.subportLinkUp sub) := (by decide : 10 < 299)
theorem frameTransmit (x : Nat) : Statement (.frameTransmit x) := (by decide : 11 < 299)
theorem readReq (p : Pkt) : Statement (.readReq p) := (by decide : 12 < 299)
theorem writeReq (p : Pkt) : Statement (.writeReq p) := (by decide : 13 < 299)
theorem writepReq (p : Pkt) : Statement (.writepReq p) := (by decide : 14 < 299)
theorem flush (p : Pkt) : Statement (.flush p) := (by decide : 15 < 299)
theorem cas64 (p : Pkt) : Statement (.cas64 p) := (by decide : 16 < 299)
theorem fadd64 (p : Pkt) : Statement (.fadd64 p) := (by decide : 17 < 299)
theorem cas128 (p : Pkt) : Statement (.cas128 p) := (by decide : 18 < 299)
theorem send (p : Pkt) : Statement (.send p) := (by decide : 19 < 299)
theorem triggeredSend (p : Pkt) : Statement (.triggeredSend p) := (by decide : 20 < 299)
theorem ack (p : Pkt) : Statement (.ack p) := (by decide : 21 < 299)
theorem nak (p : Pkt) : Statement (.nak p) := (by decide : 22 < 299)
theorem mgmt (p : Pkt) : Statement (.mgmt p) := (by decide : 23 < 299)
theorem connect (p : Pkt) : Statement (.connect p) := (by decide : 24 < 299)
theorem pathOpen (p : Pkt) : Statement (.pathOpen p) := (by decide : 25 < 299)
theorem close (p : Pkt) : Statement (.close p) := (by decide : 26 < 299)
theorem closed (p : Pkt) : Statement (.closed p) := (by decide : 27 < 299)
theorem closeDrainEnd (conn : Nat) : Statement (.closeDrainEnd conn) := (by decide : 28 < 299)
theorem controlResend (conn : Nat) : Statement (.controlResend conn) := (by decide : 29 < 299)
theorem retransmitTimerExpiry (conn : Nat) (path : Nat) : Statement (.retransmitTimerExpiry conn path) := (by decide : 30 < 299)
theorem connNumberFree (conn : Nat) : Statement (.connNumberFree conn) := (by decide : 31 < 299)
theorem ackDelayExpiry (conn : Nat) (path : Nat) : Statement (.ackDelayExpiry conn path) := (by decide : 32 < 299)
theorem completionRepeat (conn : Nat) : Statement (.completionRepeat conn) := (by decide : 33 < 299)
theorem rnrWaitExpiry (conn : Nat) (path : Nat) : Statement (.rnrWaitExpiry conn path) := (by decide : 34 < 299)
theorem msnRangeWaitExpiry (conn : Nat) (path : Nat) : Statement (.msnRangeWaitExpiry conn path) := (by decide : 35 < 299)
theorem zeroWindowProbe (conn : Nat) : Statement (.zeroWindowProbe conn) := (by decide : 36 < 299)
theorem windowRestore (conn : Nat) : Statement (.windowRestore conn) := (by decide : 37 < 299)
theorem pfcFrame (sub : Nat) (prio : Nat) (quanta : Nat) : Statement (.pfcFrame sub prio quanta) := (by decide : 38 < 299)
theorem pfcPauseExpiry (sub : Nat) (prio : Nat) : Statement (.pfcPauseExpiry sub prio) := (by decide : 39 < 299)
theorem pfcRefreshTimer (sub : Nat) (prio : Nat) : Statement (.pfcRefreshTimer sub prio) := (by decide : 40 < 299)
theorem budgetReservationMet : Statement (.budgetReservationMet) := (by decide : 41 < 299)
theorem budgetWaitExpiry (id : Nat) : Statement (.budgetWaitExpiry id) := (by decide : 42 < 299)
theorem workRequestStart (q : Nat) : Statement (.workRequestStart q) := (by decide : 43 < 299)
theorem workRequestComplete (q : Nat) (slot : Nat) : Statement (.workRequestComplete q slot) := (by decide : 44 < 299)
theorem workRequestFail (q : Nat) (slot : Nat) (cause : ChainCause) : Statement (.workRequestFail q slot cause) := (by decide : 45 < 299)
theorem promotionUnitFilled (slab : Nat) (lost : List Nat) : Statement (.promotionUnitFilled slab lost) := (by decide : 46 < 299)
theorem parkEntryFree : Statement (.parkEntryFree) := (by decide : 47 < 299)
theorem valleyDirectTimer (conn : Nat) (msn : Nat) : Statement (.valleyDirectTimer conn msn) := (by decide : 48 < 299)
theorem moverJobStart (m : Nat) : Statement (.moverJobStart m) := (by decide : 49 < 299)
theorem moverUnitDone (m : Nat) : Statement (.moverUnitDone m) := (by decide : 50 < 299)
theorem destageProgramDone (slab : Nat) : Statement (.destageProgramDone slab) := (by decide : 51 < 299)
theorem destageProgramFail (slab : Nat) : Statement (.destageProgramFail slab) := (by decide : 52 < 299)
theorem walkerEvict (part : Nat) : Statement (.walkerEvict part) := (by decide : 53 < 299)
theorem segmentRebuildDone (seg : Nat) : Statement (.segmentRebuildDone seg) := (by decide : 54 < 299)
theorem markerLogTimer (topo : Nat) : Statement (.markerLogTimer topo) := (by decide : 55 < 299)
theorem ddrCommandIssue (ch : Nat) (sub : Nat) : Statement (.ddrCommandIssue ch sub) := (by decide : 56 < 299)
theorem campReadDone (cpa : Nat) (word : Bytes) (port : CampPort) : Statement (.campReadDone cpa word port) := (by decide : 57 < 299)
theorem whistleLong (port : CampPort) : Statement (.whistleLong port) := (by decide : 58 < 299)
theorem refreshInterval (ch : Nat) (rank : Nat) : Statement (.refreshInterval ch rank) := (by decide : 59 < 299)
theorem mr4Poll (ch : Nat) (rank : Nat) (double : Bool) : Statement (.mr4Poll ch rank double) := (by decide : 60 < 299)
theorem dimmTempPoll (ch : Nat) (dimm : Nat) (tempC : Nat) : Statement (.dimmTempPoll ch dimm tempC) := (by decide : 61 < 299)
theorem rfgWindowClear : Statement (.rfgWindowClear) := (by decide : 62 < 299)
theorem rfgToken (b : Nat) (iv : Nat) : Statement (.rfgToken b iv) := (by decide : 63 < 299)
theorem rfgHoldExpiry (b : Nat) (iv : Nat) : Statement (.rfgHoldExpiry b iv) := (by decide : 64 < 299)
theorem campTrainStageDone (ch : Nat) (res : TrainResult) : Statement (.campTrainStageDone ch res) := (by decide : 65 < 299)
theorem zqTimer : Statement (.zqTimer) := (by decide : 66 < 299)
theorem dqsoscRead (ch : Nat) (rank : Nat) (driftPs : Nat) : Statement (.dqsoscRead ch rank driftPs) := (by decide : 67 < 299)
theorem centringEscalation (ch : Nat) (rank : Nat) : Statement (.centringEscalation ch rank) := (by decide : 68 < 299)
theorem frameMoveDone (slab : Nat) : Statement (.frameMoveDone slab) := (by decide : 69 < 299)
theorem valleyReadDone (vloc : Nat) (cw : Nat) (level : DecodeLevel) (bits : Nat) : Statement (.valleyReadDone vloc cw level bits) := (by decide : 70 < 299)
theorem valleyProgramDone (vloc : Nat) (ok : Bool) (pct : Nat) : Statement (.valleyProgramDone vloc ok pct) := (by decide : 71 < 299)
theorem nandResetTimeout (die : Nat) : Statement (.nandResetTimeout die) := (by decide : 72 < 299)
theorem valleyEraseDone (block : Nat) (ok : Bool) (pct : Nat) : Statement (.valleyEraseDone block ok pct) := (by decide : 73 < 299)
theorem programWaitExpiry (die : Nat) : Statement (.programWaitExpiry die) := (by decide : 74 < 299)
theorem stripeCloseTimer (stripe : Nat) : Statement (.stripeCloseTimer stripe) := (by decide : 75 < 299)
theorem journalPageTimer : Statement (.journalPageTimer) := (by decide : 76 < 299)
theorem tableLogPageTimer : Statement (.tableLogPageTimer) := (by decide : 77 < 299)
theorem logbookPageTimer : Statement (.logbookPageTimer) := (by decide : 78 < 299)
theorem verifyPassRead (page : VerifyPage) (level : DecodeLevel) (bits : Nat) : Statement (.verifyPassRead page level bits) := (by decide : 79 < 299)
theorem csErase (sector : Nat) (tries : Nat) : Statement (.csErase sector tries) := (by decide : 80 < 299)
theorem csProgram (off : Nat) (data : Bytes) (tries : Nat) : Statement (.csProgram off data tries) := (by decide : 81 < 299)
theorem csVerify (off : Nat) (len : Nat) (digest : Bytes) (readback : Bytes) : Statement (.csVerify off len digest readback) := (by decide : 82 < 299)
theorem csCommit (area : CairnArea) (crcOk : Bool) : Statement (.csCommit area crcOk) := (by decide : 83 < 299)
theorem csBankVerify (bank : Nat) (img : BankImage) : Statement (.csBankVerify bank img) := (by decide : 84 < 299)
theorem csWear : Statement (.csWear) := (by decide : 85 < 299)
theorem pitchLogFlushTimer : Statement (.pitchLogFlushTimer) := (by decide : 86 < 299)
theorem lineRepairDone (line : Nat) (data : Option Bytes) : Statement (.lineRepairDone line data) := (by decide : 87 < 299)
theorem faultWindowBucket (hourly : Bool) : Statement (.faultWindowBucket hourly) := (by decide : 88 < 299)
theorem scrubStep (word : Bytes) : Statement (.scrubStep word) := (by decide : 89 < 299)
theorem sramScrubStep (store : SramStore) (at_ : Nat) (bad : Nat) : Statement (.sramScrubStep store at_ bad) := (by decide : 90 < 299)
theorem summitFillDone (line : Nat) : Statement (.summitFillDone line) := (by decide : 91 < 299)
theorem dirtyEvictAdmitted (line : Nat) : Statement (.dirtyEvictAdmitted line) := (by decide : 92 < 299)
theorem lockWaysWrite (off : Nat) (data : Bytes) : Statement (.lockWaysWrite off data) := (by decide : 93 < 299)
theorem wayCleanDone : Statement (.wayCleanDone) := (by decide : 94 < 299)
theorem cipherRequestDone (ok : Bool) : Statement (.cipherRequestDone ok) := (by decide : 95 < 299)
theorem keyDerivationDone (slot : Nat) : Statement (.keyDerivationDone slot) := (by decide : 96 < 299)
theorem rootReunwrap (root : Nat) : Statement (.rootReunwrap root) := (by decide : 97 < 299)
theorem knownAnswerTest (isCvu : Bool) (unit : Nat) (pass : Bool) : Statement (.knownAnswerTest isCvu unit pass) := (by decide : 98 < 299)
theorem hello (hdr : Option RopeHdr) (h : Hello) : Statement (.hello hdr h) := (by decide : 99 < 299)
theorem negotiateTimeout : Statement (.negotiateTimeout) := (by decide : 100 < 299)
theorem order (h : RopeHdr) (recs : List OrderRec) : Statement (.order h recs) := (by decide : 101 < 299)
theorem operation : Statement (.operation) := (by decide : 102 < 299)
theorem command : Statement (.command) := (by decide : 103 < 299)
theorem topo : Statement (.topo) := (by decide : 104 < 299)
theorem chain : Statement (.chain) := (by decide : 105 < 299)
theorem partMsg : Statement (.partMsg) := (by decide : 106 < 299)
theorem ivReserve : Statement (.ivReserve) := (by decide : 107 < 299)
theorem epochMark : Statement (.epochMark) := (by decide : 108 < 299)
theorem handover : Statement (.handover) := (by decide : 109 < 299)
theorem confirm (h : RopeHdr) (idx : Nat) : Statement (.confirm h idx) := (by decide : 110 < 299)
theorem renew (src : LeaseSrc) (seq : Nat) : Statement (.renew src seq) := (by decide : 111 < 299)
theorem renewAck (src : LeaseSrc) (seq : Nat) : Statement (.renewAck src seq) := (by decide : 112 < 299)
theorem renewalTimer : Statement (.renewalTimer) := (by decide : 113 < 299)
theorem leaseEnd : Statement (.leaseEnd) := (by decide : 114 < 299)
theorem leaseExpiry : Statement (.leaseExpiry) := (by decide : 115 < 299)
theorem guardEnd : Statement (.guardEnd) := (by decide : 116 < 299)
theorem fillReq (h : RopeHdr) (idxs : List Nat) : Statement (.fillReq h idxs) := (by decide : 117 < 299)
theorem fillData (h : RopeHdr) (idx : Nat) (off : Nat) (data : Bytes) : Statement (.fillData h idx off data) := (by decide : 118 < 299)
theorem fillWaitExpiry : Statement (.fillWaitExpiry) := (by decide : 119 < 299)
theorem fetchReq (h : RopeHdr) (f : Fetch) : Statement (.fetchReq h f) := (by decide : 120 < 299)
theorem fetchData (h : RopeHdr) (f : Fetch) (ans : FetchAnswer) : Statement (.fetchData h f ans) := (by decide : 121 < 299)
theorem repairTimeout (slab : Nat) : Statement (.repairTimeout slab) := (by decide : 122 < 299)
theorem catchup (h : RopeHdr) (slab : Nat) (data : Bytes) (poison : List Nat) (stamp : Nat) : Statement (.catchup h slab data poison stamp) := (by decide : 123 < 299)
theorem control (h : RopeHdr) (c : Control) : Statement (.control h c) := (by decide : 124 < 299)
theorem returnRequest (h : RopeHdr) : Statement (.returnRequest h) := (by decide : 125 < 299)
theorem ropeAck (h : RopeHdr) : Statement (.ropeAck h) := (by decide : 126 < 299)
theorem ropeRetransmitTimer (inst : Nat) : Statement (.ropeRetransmitTimer inst) := (by decide : 127 < 299)
theorem ropeInstanceDown (inst : Nat) : Statement (.ropeInstanceDown inst) := (by decide : 128 < 299)
theorem ropeInstanceUp (inst : Nat) : Statement (.ropeInstanceUp inst) := (by decide : 129 < 299)
theorem holdTimeExpiry (idx : Nat) : Statement (.holdTimeExpiry idx) := (by decide : 130 < 299)
theorem leadPathTimeout (conn : Nat) : Statement (.leadPathTimeout conn) := (by decide : 131 < 299)
theorem epochMarkTimer : Statement (.epochMarkTimer) := (by decide : 132 < 299)
theorem returnHoldoff : Statement (.returnHoldoff) := (by decide : 133 < 299)
theorem departure (wd : BitVec 32) : Statement (.departure wd) := (by decide : 134 < 299)
theorem pd0PowerUp : Statement (.pd0PowerUp) := (by decide : 135 < 299)
theorem vinGood : Statement (.vinGood) := (by decide : 136 < 299)
theorem groupDelayExpiry : Statement (.groupDelayExpiry) := (by decide : 137 < 299)
theorem psPgRise (rail : Nat) : Statement (.psPgRise rail) := (by decide : 138 < 299)
theorem dwellEnd (rail : Nat) : Statement (.dwellEnd rail) := (by decide : 139 < 299)
theorem pgTimeout (rail : Nat) : Statement (.pgTimeout rail) := (by decide : 140 < 299)
theorem psPgFall (rail : Nat) : Statement (.psPgFall rail) := (by decide : 141 < 299)
theorem pgLoss (rail : Nat) : Statement (.pgLoss rail) := (by decide : 142 < 299)
theorem monitorReading (ch : Nat) (pinMv : Nat) : Statement (.monitorReading ch pinMv) := (by decide : 143 < 299)
theorem graceExpiry : Statement (.graceExpiry) := (by decide : 144 < 299)
theorem dischargeEnd (rail : Nat) (timedOut : Bool) : Statement (.dischargeEnd rail timedOut) := (by decide : 145 < 299)
theorem bivStepTimer : Statement (.bivStepTimer) := (by decide : 146 < 299)
theorem inputCollapse : Statement (.inputCollapse) := (by decide : 147 < 299)
theorem bivouacStepDone : Statement (.bivouacStepDone) := (by decide : 148 < 299)
theorem bivouacEnergyLost : Statement (.bivouacEnergyLost) := (by decide : 149 < 299)
theorem holdupFall : Statement (.holdupFall) := (by decide : 150 < 299)
theorem holdupRestored : Statement (.holdupRestored) := (by decide : 151 < 299)
theorem holdupWaitExpiry : Statement (.holdupWaitExpiry) := (by decide : 152 < 299)
theorem buttonRecognised : Statement (.buttonRecognised) := (by decide : 153 < 299)
theorem shortPress : Statement (.shortPress) := (by decide : 154 < 299)
theorem longPress : Statement (.longPress) := (by decide : 155 < 299)
theorem manualReset : Statement (.manualReset) := (by decide : 156 < 299)
theorem manualResetRelease : Statement (.manualResetRelease) := (by decide : 157 < 299)
theorem restartDue : Statement (.restartDue) := (by decide : 158 < 299)
theorem vddAonLow : Statement (.vddAonLow) := (by decide : 159 < 299)
theorem thermalScan (rd : List (Option Int)) : Statement (.thermalScan rd) := (by decide : 160 < 299)
theorem graceEnd : Statement (.graceEnd) := (by decide : 161 < 299)
theorem ceilingStep : Statement (.ceilingStep) := (by decide : 162 < 299)
theorem cool : Statement (.cool) := (by decide : 163 < 299)
theorem guideHang (g : Nat) : Statement (.guideHang g) := (by decide : 164 < 299)
theorem sdRefclkLoss : Statement (.sdRefclkLoss) := (by decide : 165 < 299)
theorem sdRefclkRestored : Statement (.sdRefclkRestored) := (by decide : 166 < 299)
theorem startStageDone (info : StageInfo) : Statement (.startStageDone info) := (by decide : 167 < 299)
theorem commandPendingTimer (t : Nat) : Statement (.commandPendingTimer t) := (by decide : 168 < 299)
theorem guideWaitTimeout (t : Nat) : Statement (.guideWaitTimeout t) := (by decide : 169 < 299)
theorem idQuery (t : Nat) : Statement (.idQuery t) := (by decide : 170 < 299)
theorem limitsQuery (t : Nat) : Statement (.limitsQuery t) := (by decide : 171 < 299)
theorem identitySet (t : Nat) : Statement (.identitySet t) := (by decide : 172 < 299)
theorem identityRemove (t : Nat) (ident : Nat) : Statement (.identityRemove t ident) := (by decide : 173 < 299)
theorem identityQuery (t : Nat) (ident : Nat) : Statement (.identityQuery t ident) := (by decide : 174 < 299)
theorem authKeySet (t : Nat) : Statement (.authKeySet t) := (by decide : 175 < 299)
theorem regionRegister (t : Nat) : Statement (.regionRegister t) := (by decide : 176 < 299)
theorem regionQuery (t : Nat) (key : Nat) : Statement (.regionQuery t key) := (by decide : 177 < 299)
theorem regionRevoke (t : Nat) (key : Nat) : Statement (.regionRevoke t key) := (by decide : 178 < 299)
theorem accessGroupSet (t : Nat) (grp : Nat) (members : List Nat) : Statement (.accessGroupSet t grp members) := (by decide : 179 < 299)
theorem accessGroupQuery (t : Nat) (grp : Nat) : Statement (.accessGroupQuery t grp) := (by decide : 180 < 299)
theorem landingRegister (t : Nat) (key : Nat) (len : Nat) : Statement (.landingRegister t key len) := (by decide : 181 < 299)
theorem landingRemove (t : Nat) (key : Nat) : Statement (.landingRemove t key) := (by decide : 182 < 299)
theorem connQuery (t : Nat) (conn : Nat) : Statement (.connQuery t conn) := (by decide : 183 < 299)
theorem connClose (t : Nat) (conn : Nat) : Statement (.connClose t conn) := (by decide : 184 < 299)
theorem chainQueueCreate (t : Nat) (q : Nat) (owner : Nat) (oconn : Nat) (repeatMode : Bool) (depth : Nat) (report : Nat) : Statement (.chainQueueCreate t q owner oconn repeatMode depth report) := (by decide : 185 < 299)
theorem chainPost (t : Nat) (q : Nat) (wrs : List Bytes) : Statement (.chainPost t q wrs) := (by decide : 186 < 299)
theorem chainReset (t : Nat) (q : Nat) : Statement (.chainReset t q) := (by decide : 187 < 299)
theorem chainQueueDelete (t : Nat) (q : Nat) : Statement (.chainQueueDelete t q) := (by decide : 188 < 299)
theorem chainQuery (t : Nat) (q : Nat) : Statement (.chainQuery t q) := (by decide : 189 < 299)
theorem triggerBind (t : Nat) (tag : Nat) (q : Nat) (grp : Nat) : Statement (.triggerBind t tag q grp) := (by decide : 190 < 299)
theorem triggerUnbind (t : Nat) (tag : Nat) : Statement (.triggerUnbind t tag) := (by decide : 191 < 299)
theorem portConfig (t : Nat) (writes : List (Nat × BitVec 64)) (restore : List Nat) : Statement (.portConfig t writes restore) := (by decide : 192 < 299)
theorem objectCreate (t : Nat) : Statement (.objectCreate t) := (by decide : 193 < 299)
theorem objectQuery (t : Nat) (obj : Nat) : Statement (.objectQuery t obj) := (by decide : 194 < 299)
theorem objectSetPlacement (t : Nat) (obj : Nat) (cls : Nat) : Statement (.objectSetPlacement t obj cls) := (by decide : 195 < 299)
theorem objectEvict (t : Nat) (obj : Nat) (start : Nat) (len : Nat) : Statement (.objectEvict t obj start len) := (by decide : 196 < 299)
theorem objectTrim (t : Nat) (obj : Nat) (start : Nat) (len : Nat) : Statement (.objectTrim t obj start len) := (by decide : 197 < 299)
theorem objectDelete (t : Nat) (obj : Nat) : Statement (.objectDelete t obj) := (by decide : 198 < 299)
theorem objectPublish (t : Nat) : Statement (.objectPublish t) := (by decide : 199 < 299)
theorem topoCreate (t : Nat) : Statement (.topoCreate t) := (by decide : 200 < 299)
theorem topoStepAdd (t : Nat) (topo : Nat) : Statement (.topoStepAdd t topo) := (by decide : 201 < 299)
theorem topoCommit (t : Nat) (topo : Nat) : Statement (.topoCommit t topo) := (by decide : 202 < 299)
theorem topoDelete (t : Nat) (topo : Nat) : Statement (.topoDelete t topo) := (by decide : 203 < 299)
theorem topoAdvance (t : Nat) (topo : Nat) (step : Nat) : Statement (.topoAdvance t topo step) := (by decide : 204 < 299)
theorem topoQuery (t : Nat) (topo : Nat) : Statement (.topoQuery t topo) := (by decide : 205 < 299)
theorem sumReload (t : Nat) (obj : Nat) (start : Nat) (len : Nat) : Statement (.sumReload t obj start len) := (by decide : 206 < 299)
theorem sumInvalidate (t : Nat) (addr : Nat) (len : Nat) : Statement (.sumInvalidate t addr len) := (by decide : 207 < 299)
theorem rangeConfig (t : Nat) (w : BitVec 64) (lockWays : Nat) : Statement (.rangeConfig t w lockWays) := (by decide : 208 < 299)
theorem keyRootLoad (t : Nat) : Statement (.keyRootLoad t) := (by decide : 209 < 299)
theorem keyRootUnload (t : Nat) (root : Nat) : Statement (.keyRootUnload t root) := (by decide : 210 < 299)
theorem keyRootQuery (t : Nat) : Statement (.keyRootQuery t) := (by decide : 211 < 299)
theorem keySessionQuery (t : Nat) (conn : Nat) : Statement (.keySessionQuery t conn) := (by decide : 212 < 299)
theorem keySlotStep (t : Nat) (slot : Nat) : Statement (.keySlotStep t slot) := (by decide : 213 < 299)
theorem keySlotQuery (t : Nat) (slot : Nat) : Statement (.keySlotQuery t slot) := (by decide : 214 < 299)
theorem keyConfig (t : Nat) (w : BitVec 64) : Statement (.keyConfig t w) := (by decide : 215 < 299)
theorem contentUnseal (t : Nat) (srcKey : Nat) (obj : Nat) (unit : Nat) (count : Nat) (dstKey : Nat) (dstAddr : Nat) : Statement (.contentUnseal t srcKey obj unit count dstKey dstAddr) := (by decide : 216 < 299)
theorem cvuContextSet (t : Nat) (ctx : Nat) (par : CrcPar) (owner : Nat) (chained : Bool) (run : Option (BitVec 64)) : Statement (.cvuContextSet t ctx par owner chained run) := (by decide : 217 < 299)
theorem cvuContextGet (t : Nat) (ctx : Nat) : Statement (.cvuContextGet t ctx) := (by decide : 218 < 299)
theorem ropeQuery (t : Nat) : Statement (.ropeQuery t) := (by decide : 219 < 299)
theorem ropeHandover (t : Nat) : Statement (.ropeHandover t) := (by decide : 220 < 299)
theorem ropeReturnEnable (t : Nat) : Statement (.ropeReturnEnable t) := (by decide : 221 < 299)
theorem ropeSolo (t : Nat) : Statement (.ropeSolo t) := (by decide : 222 < 299)
theorem ropeConfig (t : Nat) (w : BitVec 64) : Statement (.ropeConfig t w) := (by decide : 223 < 299)
theorem pwrStatus (t : Nat) : Statement (.pwrStatus t) := (by decide : 224 < 299)
theorem pwrShutdown (t : Nat) : Statement (.pwrShutdown t) := (by decide : 225 < 299)
theorem vcoreSet (t : Nat) (req : Nat) : Statement (.vcoreSet t req) := (by decide : 226 < 299)
theorem thermalStatus (t : Nat) : Statement (.thermalStatus t) := (by decide : 227 < 299)
theorem thermalConfig (t : Nat) (w : BitVec 64) : Statement (.thermalConfig t w) := (by decide : 228 < 299)
theorem domainSwitch (t : Nat) (d : Nat) (on : Bool) : Statement (.domainSwitch t d on) := (by decide : 229 < 299)
theorem seqConfig (t : Nat) (w : BitVec 64) : Statement (.seqConfig t w) := (by decide : 230 < 299)
theorem logRead (t : Nat) : Statement (.logRead t) := (by decide : 231 < 299)
theorem logClear (t : Nat) : Statement (.logClear t) := (by decide : 232 < 299)
theorem freeze (t : Nat) (lg : Nat) : Statement (.freeze t lg) := (by decide : 233 < 299)
theorem plogRead (t : Nat) : Statement (.plogRead t) := (by decide : 234 < 299)
theorem thaw (t : Nat) (lg : Nat) : Statement (.thaw t lg) := (by decide : 235 < 299)
theorem autoThaw (lg : Nat) : Statement (.autoThaw lg) := (by decide : 236 < 299)
theorem telemetryRead (t : Nat) (base : Nat) : Statement (.telemetryRead t base) := (by decide : 237 < 299)
theorem nqConfig (t : Nat) (src : Nat) (q : Option Nat) : Statement (.nqConfig t src q) := (by decide : 238 < 299)
theorem scrubConfig (t : Nat) (w : BitVec 64) : Statement (.scrubConfig t w) := (by decide : 239 < 299)
theorem campFaultList (t : Nat) : Statement (.campFaultList t) := (by decide : 240 < 299)
theorem campConfig (t : Nat) (sched : BitVec 64) (rfg : BitVec 64) (ref : BitVec 64) : Statement (.campConfig t sched rfg ref) := (by decide : 241 < 299)
theorem campRowRetire (t : Nat) (ch : Nat) (sub : Nat) (rank : Nat) (bank : Nat) (row : Nat) : Statement (.campRowRetire t ch sub rank bank row) := (by decide : 242 < 299)
theorem valleyConfig (t : Nat) (w : BitVec 64) : Statement (.valleyConfig t w) := (by decide : 243 < 299)
theorem valleyStatus (t : Nat) : Statement (.valleyStatus t) := (by decide : 244 < 299)
theorem firmwareWrite (t : Nat) : Statement (.firmwareWrite t) := (by decide : 245 < 299)
theorem firmwareVerify (t : Nat) (bank : Nat) (img : BankImage) : Statement (.firmwareVerify t bank img) := (by decide : 246 < 299)
theorem firmwareSelect (t : Nat) (bank : Nat) : Statement (.firmwareSelect t bank) := (by decide : 247 < 299)
theorem firmwareCommit (t : Nat) : Statement (.firmwareCommit t) := (by decide : 248 < 299)
theorem configSave (t : Nat) : Statement (.configSave t) := (by decide : 249 < 299)
theorem cairnStatus (t : Nat) : Statement (.cairnStatus t) := (by decide : 250 < 299)
theorem ladderRetry (t : Nat) : Statement (.ladderRetry t) := (by decide : 251 < 299)
theorem ladderReinit (t : Nat) : Statement (.ladderReinit t) := (by decide : 252 < 299)
theorem deviceReset (t : Nat) : Statement (.deviceReset t) := (by decide : 253 < 299)
theorem pwrCycle (t : Nat) : Statement (.pwrCycle t) := (by decide : 254 < 299)
theorem ladderStatus (t : Nat) : Statement (.ladderStatus t) := (by decide : 255 < 299)
theorem portQuiesce (t : Nat) : Statement (.portQuiesce t) := (by decide : 256 < 299)
theorem connFence (t : Nat) : Statement (.connFence t) := (by decide : 257 < 299)
theorem hostFence (t : Nat) : Statement (.hostFence t) := (by decide : 258 < 299)
theorem regionFence (t : Nat) : Statement (.regionFence t) := (by decide : 259 < 299)
theorem brakeStatus (t : Nat) : Statement (.brakeStatus t) := (by decide : 260 < 299)
theorem i3cPrivateWrite (data : Bytes) : Statement (.i3cPrivateWrite data) := (by decide : 261 < 299)
theorem i3cPrivateRead : Statement (.i3cPrivateRead) := (by decide : 262 < 299)
theorem entdaa (addr : Nat) : Statement (.entdaa addr) := (by decide : 263 < 299)
theorem setdasa (stat : Nat) (addr : Nat) : Statement (.setdasa stat addr) := (by decide : 264 < 299)
theorem rstdaa : Statement (.rstdaa) := (by decide : 265 < 299)
theorem enec : Statement (.enec) := (by decide : 266 < 299)
theorem disec : Statement (.disec) := (by decide : 267 < 299)
theorem getpid : Statement (.getpid) := (by decide : 268 < 299)
theorem getbcr : Statement (.getbcr) := (by decide : 269 < 299)
theorem getdcr : Statement (.getdcr) := (by decide : 270 < 299)
theorem getstatus : Statement (.getstatus) := (by decide : 271 < 299)
theorem getmwl : Statement (.getmwl) := (by decide : 272 < 299)
theorem getmrl : Statement (.getmrl) := (by decide : 273 < 299)
theorem mbxDoorbell (bits : BitVec 8) : Statement (.mbxDoorbell bits) := (by decide : 274 < 299)
theorem mbxRelease (bits : BitVec 8) : Statement (.mbxRelease bits) := (by decide : 275 < 299)
theorem mbxGrantGo : Statement (.mbxGrantGo) := (by decide : 276 < 299)
theorem mbxGrantDrop : Statement (.mbxGrantDrop) := (by decide : 277 < 299)
theorem grantExpiry : Statement (.grantExpiry) := (by decide : 278 < 299)
theorem mbxIntStatusWrite (bits : BitVec 8) : Statement (.mbxIntStatusWrite bits) := (by decide : 279 < 299)
theorem nqPop (q : Nat) (exact : Bool) : Statement (.nqPop q exact) := (by decide : 280 < 299)
theorem nqPeek (q : Nat) (exact : Bool) : Statement (.nqPeek q exact) := (by decide : 281 < 299)
theorem rcRead (off : Nat) (len : Nat) : Statement (.rcRead off len) := (by decide : 282 < 299)
theorem cvuCtxWrite (off : Nat) (data : Bytes) : Statement (.cvuCtxWrite off data) := (by decide : 283 < 299)
theorem registerWrite (off : Nat) (data : Bytes) : Statement (.registerWrite off data) := (by decide : 284 < 299)
theorem pcieLinkReset : Statement (.pcieLinkReset) := (by decide : 285 < 299)
theorem mpPerstN (high : Bool) : Statement (.mpPerstN high) := (by decide : 286 < 299)
theorem jtagAccess (a : Jtag) : Statement (.jtagAccess a) := (by decide : 287 < 299)
theorem timeMarkTimer : Statement (.timeMarkTimer) := (by decide : 288 < 299)
theorem operatingHourTick : Statement (.operatingHourTick) := (by decide : 289 < 299)
theorem belayWiresLost : Statement (.belayWiresLost) := (by decide : 290 < 299)
theorem sysRefclkRestored : Statement (.sysRefclkRestored) := (by decide : 291 < 299)
theorem alwaysOnSupplyFail : Statement (.alwaysOnSupplyFail) := (by decide : 292 < 299)
theorem pmbAlert : Statement (.pmbAlert) := (by decide : 293 < 299)
theorem ropeLaneLoss (inst : Nat) (lane : Nat) (narrowOk : Bool) : Statement (.ropeLaneLoss inst lane narrowOk) := (by decide : 294 < 299)
theorem ladderBoundExpiry (f : LadderFn) : Statement (.ladderBoundExpiry f) := (by decide : 295 < 299)
theorem ingressFrameDrop (port : Nat) (why : DropWhy) : Statement (.ingressFrameDrop port why) := (by decide : 296 < 299)
theorem msixEnable : Statement (.msixEnable) := (by decide : 297 < 299)
theorem sdRefclkWaitTimeout : Statement (.sdRefclkWaitTimeout) := (by decide : 298 < 299)

end Sys2Proof.Laws.Named
end

