-- ==== Sys2Proof/Laws/State.lean ====
section
/-! SUPPORT. What the shared operations leave alone: one lemma for each field of the state and each operation. -/

namespace Sys2Proof.Machine

@[simp] theorem commit_timebase (s t : State) : (commit s t).timebase = t.timebase := rfl
@[simp] theorem commit_free (s t : State) : (commit s t).free = t.free := rfl
@[simp] theorem commit_regs (s t : State) : (commit s t).regs = t.regs := rfl
@[simp] theorem commit_pins (s t : State) : (commit s t).pins = t.pins := rfl
@[simp] theorem commit_fab (s t : State) : (commit s t).fab = t.fab := rfl
@[simp] theorem commit_seq (s t : State) : (commit s t).seq = t.seq := rfl
@[simp] theorem commit_thm (s t : State) : (commit s t).thm = t.thm := rfl
@[simp] theorem commit_start (s t : State) : (commit s t).start = t.start := rfl
@[simp] theorem commit_ladder (s t : State) : (commit s t).ladder = t.ladder := rfl
@[simp] theorem commit_log (s t : State) : (commit s t).log = t.log := rfl
@[simp] theorem commit_plog (s t : State) : (commit s t).plog = t.plog := rfl
@[simp] theorem commit_nq (s t : State) : (commit s t).nq = t.nq := rfl
@[simp] theorem commit_route (s t : State) : (commit s t).route = t.route := rfl
@[simp] theorem commit_mgmt (s t : State) : (commit s t).mgmt = t.mgmt := rfl
@[simp] theorem commit_i3c (s t : State) : (commit s t).i3c = t.i3c := rfl
@[simp] theorem commit_cmd (s t : State) : (commit s t).cmd = t.cmd := rfl
@[simp] theorem commit_ids (s t : State) : (commit s t).ids = t.ids := rfl
@[simp] theorem commit_port (s t : State) : (commit s t).port = t.port := rfl
@[simp] theorem commit_conns (s t : State) : (commit s t).conns = t.conns := rfl
@[simp] theorem commit_connGen (s t : State) : (commit s t).connGen = t.connGen := rfl
@[simp] theorem commit_ops (s t : State) : (commit s t).ops = t.ops := rfl
@[simp] theorem commit_tables (s t : State) : (commit s t).tables = t.tables := rfl
@[simp] theorem commit_camp (s t : State) : (commit s t).camp = t.camp := rfl
@[simp] theorem commit_val (s t : State) : (commit s t).val = t.val := rfl
@[simp] theorem commit_cairn (s t : State) : (commit s t).cairn = t.cairn := rfl
@[simp] theorem commit_code (s t : State) : (commit s t).code = t.code := rfl
@[simp] theorem commit_sum (s t : State) : (commit s t).sum = t.sum := rfl
@[simp] theorem commit_key (s t : State) : (commit s t).key = t.key := rfl
@[simp] theorem commit_rope (s t : State) : (commit s t).rope = t.rope := rfl

@[simp] theorem setF_pending (s : State) (f : Reg.Fld) (v : Nat) : (setF s f v).pending = s.pending := rfl
@[simp] theorem setF_timebase (s : State) (f : Reg.Fld) (v : Nat) : (setF s f v).timebase = s.timebase := rfl
@[simp] theorem setF_free (s : State) (f : Reg.Fld) (v : Nat) : (setF s f v).free = s.free := rfl
@[simp] theorem setF_fuse (s : State) (f : Reg.Fld) (v : Nat) : (setF s f v).fuse = s.fuse := rfl
@[simp] theorem setF_pins (s : State) (f : Reg.Fld) (v : Nat) : (setF s f v).pins = s.pins := rfl
@[simp] theorem setF_fab (s : State) (f : Reg.Fld) (v : Nat) : (setF s f v).fab = s.fab := rfl
@[simp] theorem setF_seq (s : State) (f : Reg.Fld) (v : Nat) : (setF s f v).seq = s.seq := rfl
@[simp] theorem setF_thm (s : State) (f : Reg.Fld) (v : Nat) : (setF s f v).thm = s.thm := rfl
@[simp] theorem setF_start (s : State) (f : Reg.Fld) (v : Nat) : (setF s f v).start = s.start := rfl
@[simp] theorem setF_ladder (s : State) (f : Reg.Fld) (v : Nat) : (setF s f v).ladder = s.ladder := rfl
@[simp] theorem setF_log (s : State) (f : Reg.Fld) (v : Nat) : (setF s f v).log = s.log := rfl
@[simp] theorem setF_plog (s : State) (f : Reg.Fld) (v : Nat) : (setF s f v).plog = s.plog := rfl
@[simp] theorem setF_nq (s : State) (f : Reg.Fld) (v : Nat) : (setF s f v).nq = s.nq := rfl
@[simp] theorem setF_route (s : State) (f : Reg.Fld) (v : Nat) : (setF s f v).route = s.route := rfl
@[simp] theorem setF_mgmt (s : State) (f : Reg.Fld) (v : Nat) : (setF s f v).mgmt = s.mgmt := rfl
@[simp] theorem setF_i3c (s : State) (f : Reg.Fld) (v : Nat) : (setF s f v).i3c = s.i3c := rfl
@[simp] theorem setF_cmd (s : State) (f : Reg.Fld) (v : Nat) : (setF s f v).cmd = s.cmd := rfl
@[simp] theorem setF_ids (s : State) (f : Reg.Fld) (v : Nat) : (setF s f v).ids = s.ids := rfl
@[simp] theorem setF_port (s : State) (f : Reg.Fld) (v : Nat) : (setF s f v).port = s.port := rfl
@[simp] theorem setF_conns (s : State) (f : Reg.Fld) (v : Nat) : (setF s f v).conns = s.conns := rfl
@[simp] theorem setF_connGen (s : State) (f : Reg.Fld) (v : Nat) : (setF s f v).connGen = s.connGen := rfl
@[simp] theorem setF_ops (s : State) (f : Reg.Fld) (v : Nat) : (setF s f v).ops = s.ops := rfl
@[simp] theorem setF_tables (s : State) (f : Reg.Fld) (v : Nat) : (setF s f v).tables = s.tables := rfl
@[simp] theorem setF_range (s : State) (f : Reg.Fld) (v : Nat) : (setF s f v).range = s.range := rfl
@[simp] theorem setF_camp (s : State) (f : Reg.Fld) (v : Nat) : (setF s f v).camp = s.camp := rfl
@[simp] theorem setF_val (s : State) (f : Reg.Fld) (v : Nat) : (setF s f v).val = s.val := rfl
@[simp] theorem setF_cairn (s : State) (f : Reg.Fld) (v : Nat) : (setF s f v).cairn = s.cairn := rfl
@[simp] theorem setF_code (s : State) (f : Reg.Fld) (v : Nat) : (setF s f v).code = s.code := rfl
@[simp] theorem setF_sum (s : State) (f : Reg.Fld) (v : Nat) : (setF s f v).sum = s.sum := rfl
@[simp] theorem setF_key (s : State) (f : Reg.Fld) (v : Nat) : (setF s f v).key = s.key := rfl
@[simp] theorem setF_rope (s : State) (f : Reg.Fld) (v : Nat) : (setF s f v).rope = s.rope := rfl

@[simp] theorem setB_pending (s : State) (f : Reg.Fld) (b : Bool) : (setB s f b).pending = s.pending := rfl
@[simp] theorem setB_timebase (s : State) (f : Reg.Fld) (b : Bool) : (setB s f b).timebase = s.timebase := rfl
@[simp] theorem setB_free (s : State) (f : Reg.Fld) (b : Bool) : (setB s f b).free = s.free := rfl
@[simp] theorem setB_fuse (s : State) (f : Reg.Fld) (b : Bool) : (setB s f b).fuse = s.fuse := rfl
@[simp] theorem setB_pins (s : State) (f : Reg.Fld) (b : Bool) : (setB s f b).pins = s.pins := rfl
@[simp] theorem setB_fab (s : State) (f : Reg.Fld) (b : Bool) : (setB s f b).fab = s.fab := rfl
@[simp] theorem setB_seq (s : State) (f : Reg.Fld) (b : Bool) : (setB s f b).seq = s.seq := rfl
@[simp] theorem setB_thm (s : State) (f : Reg.Fld) (b : Bool) : (setB s f b).thm = s.thm := rfl
@[simp] theorem setB_start (s : State) (f : Reg.Fld) (b : Bool) : (setB s f b).start = s.start := rfl
@[simp] theorem setB_ladder (s : State) (f : Reg.Fld) (b : Bool) : (setB s f b).ladder = s.ladder := rfl
@[simp] theorem setB_log (s : State) (f : Reg.Fld) (b : Bool) : (setB s f b).log = s.log := rfl
@[simp] theorem setB_plog (s : State) (f : Reg.Fld) (b : Bool) : (setB s f b).plog = s.plog := rfl
@[simp] theorem setB_nq (s : State) (f : Reg.Fld) (b : Bool) : (setB s f b).nq = s.nq := rfl
@[simp] theorem setB_route (s : State) (f : Reg.Fld) (b : Bool) : (setB s f b).route = s.route := rfl
@[simp] theorem setB_mgmt (s : State) (f : Reg.Fld) (b : Bool) : (setB s f b).mgmt = s.mgmt := rfl
@[simp] theorem setB_i3c (s : State) (f : Reg.Fld) (b : Bool) : (setB s f b).i3c = s.i3c := rfl
@[simp] theorem setB_cmd (s : State) (f : Reg.Fld) (b : Bool) : (setB s f b).cmd = s.cmd := rfl
@[simp] theorem setB_ids (s : State) (f : Reg.Fld) (b : Bool) : (setB s f b).ids = s.ids := rfl
@[simp] theorem setB_port (s : State) (f : Reg.Fld) (b : Bool) : (setB s f b).port = s.port := rfl
@[simp] theorem setB_conns (s : State) (f : Reg.Fld) (b : Bool) : (setB s f b).conns = s.conns := rfl
@[simp] theorem setB_connGen (s : State) (f : Reg.Fld) (b : Bool) : (setB s f b).connGen = s.connGen := rfl
@[simp] theorem setB_ops (s : State) (f : Reg.Fld) (b : Bool) : (setB s f b).ops = s.ops := rfl
@[simp] theorem setB_tables (s : State) (f : Reg.Fld) (b : Bool) : (setB s f b).tables = s.tables := rfl
@[simp] theorem setB_range (s : State) (f : Reg.Fld) (b : Bool) : (setB s f b).range = s.range := rfl
@[simp] theorem setB_camp (s : State) (f : Reg.Fld) (b : Bool) : (setB s f b).camp = s.camp := rfl
@[simp] theorem setB_val (s : State) (f : Reg.Fld) (b : Bool) : (setB s f b).val = s.val := rfl
@[simp] theorem setB_cairn (s : State) (f : Reg.Fld) (b : Bool) : (setB s f b).cairn = s.cairn := rfl
@[simp] theorem setB_code (s : State) (f : Reg.Fld) (b : Bool) : (setB s f b).code = s.code := rfl
@[simp] theorem setB_sum (s : State) (f : Reg.Fld) (b : Bool) : (setB s f b).sum = s.sum := rfl
@[simp] theorem setB_key (s : State) (f : Reg.Fld) (b : Bool) : (setB s f b).key = s.key := rfl
@[simp] theorem setB_rope (s : State) (f : Reg.Fld) (b : Bool) : (setB s f b).rope = s.rope := rfl

@[simp] theorem bumpF_pending (s : State) (f : Reg.Fld) (k : Nat) : (bumpF s f k).pending = s.pending := rfl
@[simp] theorem bumpF_timebase (s : State) (f : Reg.Fld) (k : Nat) : (bumpF s f k).timebase = s.timebase := rfl
@[simp] theorem bumpF_free (s : State) (f : Reg.Fld) (k : Nat) : (bumpF s f k).free = s.free := rfl
@[simp] theorem bumpF_fuse (s : State) (f : Reg.Fld) (k : Nat) : (bumpF s f k).fuse = s.fuse := rfl
@[simp] theorem bumpF_pins (s : State) (f : Reg.Fld) (k : Nat) : (bumpF s f k).pins = s.pins := rfl
@[simp] theorem bumpF_fab (s : State) (f : Reg.Fld) (k : Nat) : (bumpF s f k).fab = s.fab := rfl
@[simp] theorem bumpF_seq (s : State) (f : Reg.Fld) (k : Nat) : (bumpF s f k).seq = s.seq := rfl
@[simp] theorem bumpF_thm (s : State) (f : Reg.Fld) (k : Nat) : (bumpF s f k).thm = s.thm := rfl
@[simp] theorem bumpF_start (s : State) (f : Reg.Fld) (k : Nat) : (bumpF s f k).start = s.start := rfl
@[simp] theorem bumpF_ladder (s : State) (f : Reg.Fld) (k : Nat) : (bumpF s f k).ladder = s.ladder := rfl
@[simp] theorem bumpF_log (s : State) (f : Reg.Fld) (k : Nat) : (bumpF s f k).log = s.log := rfl
@[simp] theorem bumpF_plog (s : State) (f : Reg.Fld) (k : Nat) : (bumpF s f k).plog = s.plog := rfl
@[simp] theorem bumpF_nq (s : State) (f : Reg.Fld) (k : Nat) : (bumpF s f k).nq = s.nq := rfl
@[simp] theorem bumpF_route (s : State) (f : Reg.Fld) (k : Nat) : (bumpF s f k).route = s.route := rfl
@[simp] theorem bumpF_mgmt (s : State) (f : Reg.Fld) (k : Nat) : (bumpF s f k).mgmt = s.mgmt := rfl
@[simp] theorem bumpF_i3c (s : State) (f : Reg.Fld) (k : Nat) : (bumpF s f k).i3c = s.i3c := rfl
@[simp] theorem bumpF_cmd (s : State) (f : Reg.Fld) (k : Nat) : (bumpF s f k).cmd = s.cmd := rfl
@[simp] theorem bumpF_ids (s : State) (f : Reg.Fld) (k : Nat) : (bumpF s f k).ids = s.ids := rfl
@[simp] theorem bumpF_port (s : State) (f : Reg.Fld) (k : Nat) : (bumpF s f k).port = s.port := rfl
@[simp] theorem bumpF_conns (s : State) (f : Reg.Fld) (k : Nat) : (bumpF s f k).conns = s.conns := rfl
@[simp] theorem bumpF_connGen (s : State) (f : Reg.Fld) (k : Nat) : (bumpF s f k).connGen = s.connGen := rfl
@[simp] theorem bumpF_ops (s : State) (f : Reg.Fld) (k : Nat) : (bumpF s f k).ops = s.ops := rfl
@[simp] theorem bumpF_tables (s : State) (f : Reg.Fld) (k : Nat) : (bumpF s f k).tables = s.tables := rfl
@[simp] theorem bumpF_range (s : State) (f : Reg.Fld) (k : Nat) : (bumpF s f k).range = s.range := rfl
@[simp] theorem bumpF_camp (s : State) (f : Reg.Fld) (k : Nat) : (bumpF s f k).camp = s.camp := rfl
@[simp] theorem bumpF_val (s : State) (f : Reg.Fld) (k : Nat) : (bumpF s f k).val = s.val := rfl
@[simp] theorem bumpF_cairn (s : State) (f : Reg.Fld) (k : Nat) : (bumpF s f k).cairn = s.cairn := rfl
@[simp] theorem bumpF_code (s : State) (f : Reg.Fld) (k : Nat) : (bumpF s f k).code = s.code := rfl
@[simp] theorem bumpF_sum (s : State) (f : Reg.Fld) (k : Nat) : (bumpF s f k).sum = s.sum := rfl
@[simp] theorem bumpF_key (s : State) (f : Reg.Fld) (k : Nat) : (bumpF s f k).key = s.key := rfl
@[simp] theorem bumpF_rope (s : State) (f : Reg.Fld) (k : Nat) : (bumpF s f k).rope = s.rope := rfl

@[simp] theorem putF_pending (s : State) (f : Reg.Fld) (n : Nat) (b : Bool) : (putF s f n b).pending = s.pending := rfl
@[simp] theorem putF_timebase (s : State) (f : Reg.Fld) (n : Nat) (b : Bool) : (putF s f n b).timebase = s.timebase := rfl
@[simp] theorem putF_free (s : State) (f : Reg.Fld) (n : Nat) (b : Bool) : (putF s f n b).free = s.free := rfl
@[simp] theorem putF_fuse (s : State) (f : Reg.Fld) (n : Nat) (b : Bool) : (putF s f n b).fuse = s.fuse := rfl
@[simp] theorem putF_pins (s : State) (f : Reg.Fld) (n : Nat) (b : Bool) : (putF s f n b).pins = s.pins := rfl
@[simp] theorem putF_fab (s : State) (f : Reg.Fld) (n : Nat) (b : Bool) : (putF s f n b).fab = s.fab := rfl
@[simp] theorem putF_seq (s : State) (f : Reg.Fld) (n : Nat) (b : Bool) : (putF s f n b).seq = s.seq := rfl
@[simp] theorem putF_thm (s : State) (f : Reg.Fld) (n : Nat) (b : Bool) : (putF s f n b).thm = s.thm := rfl
@[simp] theorem putF_start (s : State) (f : Reg.Fld) (n : Nat) (b : Bool) : (putF s f n b).start = s.start := rfl
@[simp] theorem putF_ladder (s : State) (f : Reg.Fld) (n : Nat) (b : Bool) : (putF s f n b).ladder = s.ladder := rfl
@[simp] theorem putF_log (s : State) (f : Reg.Fld) (n : Nat) (b : Bool) : (putF s f n b).log = s.log := rfl
@[simp] theorem putF_plog (s : State) (f : Reg.Fld) (n : Nat) (b : Bool) : (putF s f n b).plog = s.plog := rfl
@[simp] theorem putF_nq (s : State) (f : Reg.Fld) (n : Nat) (b : Bool) : (putF s f n b).nq = s.nq := rfl
@[simp] theorem putF_route (s : State) (f : Reg.Fld) (n : Nat) (b : Bool) : (putF s f n b).route = s.route := rfl
@[simp] theorem putF_mgmt (s : State) (f : Reg.Fld) (n : Nat) (b : Bool) : (putF s f n b).mgmt = s.mgmt := rfl
@[simp] theorem putF_i3c (s : State) (f : Reg.Fld) (n : Nat) (b : Bool) : (putF s f n b).i3c = s.i3c := rfl
@[simp] theorem putF_cmd (s : State) (f : Reg.Fld) (n : Nat) (b : Bool) : (putF s f n b).cmd = s.cmd := rfl
@[simp] theorem putF_ids (s : State) (f : Reg.Fld) (n : Nat) (b : Bool) : (putF s f n b).ids = s.ids := rfl
@[simp] theorem putF_port (s : State) (f : Reg.Fld) (n : Nat) (b : Bool) : (putF s f n b).port = s.port := rfl
@[simp] theorem putF_conns (s : State) (f : Reg.Fld) (n : Nat) (b : Bool) : (putF s f n b).conns = s.conns := rfl
@[simp] theorem putF_connGen (s : State) (f : Reg.Fld) (n : Nat) (b : Bool) : (putF s f n b).connGen = s.connGen := rfl
@[simp] theorem putF_ops (s : State) (f : Reg.Fld) (n : Nat) (b : Bool) : (putF s f n b).ops = s.ops := rfl
@[simp] theorem putF_tables (s : State) (f : Reg.Fld) (n : Nat) (b : Bool) : (putF s f n b).tables = s.tables := rfl
@[simp] theorem putF_range (s : State) (f : Reg.Fld) (n : Nat) (b : Bool) : (putF s f n b).range = s.range := rfl
@[simp] theorem putF_camp (s : State) (f : Reg.Fld) (n : Nat) (b : Bool) : (putF s f n b).camp = s.camp := rfl
@[simp] theorem putF_val (s : State) (f : Reg.Fld) (n : Nat) (b : Bool) : (putF s f n b).val = s.val := rfl
@[simp] theorem putF_cairn (s : State) (f : Reg.Fld) (n : Nat) (b : Bool) : (putF s f n b).cairn = s.cairn := rfl
@[simp] theorem putF_code (s : State) (f : Reg.Fld) (n : Nat) (b : Bool) : (putF s f n b).code = s.code := rfl
@[simp] theorem putF_sum (s : State) (f : Reg.Fld) (n : Nat) (b : Bool) : (putF s f n b).sum = s.sum := rfl
@[simp] theorem putF_key (s : State) (f : Reg.Fld) (n : Nat) (b : Bool) : (putF s f n b).key = s.key := rfl
@[simp] theorem putF_rope (s : State) (f : Reg.Fld) (n : Nat) (b : Bool) : (putF s f n b).rope = s.rope := rfl

@[simp] theorem setSeqState_pending (s : State) (v : Nat) : (setSeqState s v).pending = s.pending := rfl
@[simp] theorem setSeqState_timebase (s : State) (v : Nat) : (setSeqState s v).timebase = s.timebase := rfl
@[simp] theorem setSeqState_free (s : State) (v : Nat) : (setSeqState s v).free = s.free := rfl
@[simp] theorem setSeqState_fuse (s : State) (v : Nat) : (setSeqState s v).fuse = s.fuse := rfl
@[simp] theorem setSeqState_pins (s : State) (v : Nat) : (setSeqState s v).pins = s.pins := rfl
@[simp] theorem setSeqState_fab (s : State) (v : Nat) : (setSeqState s v).fab = s.fab := rfl
@[simp] theorem setSeqState_seq (s : State) (v : Nat) : (setSeqState s v).seq = s.seq := rfl
@[simp] theorem setSeqState_thm (s : State) (v : Nat) : (setSeqState s v).thm = s.thm := rfl
@[simp] theorem setSeqState_start (s : State) (v : Nat) : (setSeqState s v).start = s.start := rfl
@[simp] theorem setSeqState_ladder (s : State) (v : Nat) : (setSeqState s v).ladder = s.ladder := rfl
@[simp] theorem setSeqState_log (s : State) (v : Nat) : (setSeqState s v).log = s.log := rfl
@[simp] theorem setSeqState_plog (s : State) (v : Nat) : (setSeqState s v).plog = s.plog := rfl
@[simp] theorem setSeqState_nq (s : State) (v : Nat) : (setSeqState s v).nq = s.nq := rfl
@[simp] theorem setSeqState_route (s : State) (v : Nat) : (setSeqState s v).route = s.route := rfl
@[simp] theorem setSeqState_mgmt (s : State) (v : Nat) : (setSeqState s v).mgmt = s.mgmt := rfl
@[simp] theorem setSeqState_i3c (s : State) (v : Nat) : (setSeqState s v).i3c = s.i3c := rfl
@[simp] theorem setSeqState_cmd (s : State) (v : Nat) : (setSeqState s v).cmd = s.cmd := rfl
@[simp] theorem setSeqState_ids (s : State) (v : Nat) : (setSeqState s v).ids = s.ids := rfl
@[simp] theorem setSeqState_port (s : State) (v : Nat) : (setSeqState s v).port = s.port := rfl
@[simp] theorem setSeqState_conns (s : State) (v : Nat) : (setSeqState s v).conns = s.conns := rfl
@[simp] theorem setSeqState_connGen (s : State) (v : Nat) : (setSeqState s v).connGen = s.connGen := rfl
@[simp] theorem setSeqState_ops (s : State) (v : Nat) : (setSeqState s v).ops = s.ops := rfl
@[simp] theorem setSeqState_tables (s : State) (v : Nat) : (setSeqState s v).tables = s.tables := rfl
@[simp] theorem setSeqState_range (s : State) (v : Nat) : (setSeqState s v).range = s.range := rfl
@[simp] theorem setSeqState_camp (s : State) (v : Nat) : (setSeqState s v).camp = s.camp := rfl
@[simp] theorem setSeqState_val (s : State) (v : Nat) : (setSeqState s v).val = s.val := rfl
@[simp] theorem setSeqState_cairn (s : State) (v : Nat) : (setSeqState s v).cairn = s.cairn := rfl
@[simp] theorem setSeqState_code (s : State) (v : Nat) : (setSeqState s v).code = s.code := rfl
@[simp] theorem setSeqState_sum (s : State) (v : Nat) : (setSeqState s v).sum = s.sum := rfl
@[simp] theorem setSeqState_key (s : State) (v : Nat) : (setSeqState s v).key = s.key := rfl
@[simp] theorem setSeqState_rope (s : State) (v : Nat) : (setSeqState s v).rope = s.rope := rfl

@[simp] theorem setDom_pending (s : State) (d : Nat) (b : Bool) : (setDom s d b).pending = s.pending := rfl
@[simp] theorem setDom_timebase (s : State) (d : Nat) (b : Bool) : (setDom s d b).timebase = s.timebase := rfl
@[simp] theorem setDom_free (s : State) (d : Nat) (b : Bool) : (setDom s d b).free = s.free := rfl
@[simp] theorem setDom_fuse (s : State) (d : Nat) (b : Bool) : (setDom s d b).fuse = s.fuse := rfl
@[simp] theorem setDom_pins (s : State) (d : Nat) (b : Bool) : (setDom s d b).pins = s.pins := rfl
@[simp] theorem setDom_fab (s : State) (d : Nat) (b : Bool) : (setDom s d b).fab = s.fab := rfl
@[simp] theorem setDom_seq (s : State) (d : Nat) (b : Bool) : (setDom s d b).seq = s.seq := rfl
@[simp] theorem setDom_thm (s : State) (d : Nat) (b : Bool) : (setDom s d b).thm = s.thm := rfl
@[simp] theorem setDom_start (s : State) (d : Nat) (b : Bool) : (setDom s d b).start = s.start := rfl
@[simp] theorem setDom_ladder (s : State) (d : Nat) (b : Bool) : (setDom s d b).ladder = s.ladder := rfl
@[simp] theorem setDom_log (s : State) (d : Nat) (b : Bool) : (setDom s d b).log = s.log := rfl
@[simp] theorem setDom_plog (s : State) (d : Nat) (b : Bool) : (setDom s d b).plog = s.plog := rfl
@[simp] theorem setDom_nq (s : State) (d : Nat) (b : Bool) : (setDom s d b).nq = s.nq := rfl
@[simp] theorem setDom_route (s : State) (d : Nat) (b : Bool) : (setDom s d b).route = s.route := rfl
@[simp] theorem setDom_mgmt (s : State) (d : Nat) (b : Bool) : (setDom s d b).mgmt = s.mgmt := rfl
@[simp] theorem setDom_i3c (s : State) (d : Nat) (b : Bool) : (setDom s d b).i3c = s.i3c := rfl
@[simp] theorem setDom_cmd (s : State) (d : Nat) (b : Bool) : (setDom s d b).cmd = s.cmd := rfl
@[simp] theorem setDom_ids (s : State) (d : Nat) (b : Bool) : (setDom s d b).ids = s.ids := rfl
@[simp] theorem setDom_port (s : State) (d : Nat) (b : Bool) : (setDom s d b).port = s.port := rfl
@[simp] theorem setDom_conns (s : State) (d : Nat) (b : Bool) : (setDom s d b).conns = s.conns := rfl
@[simp] theorem setDom_connGen (s : State) (d : Nat) (b : Bool) : (setDom s d b).connGen = s.connGen := rfl
@[simp] theorem setDom_ops (s : State) (d : Nat) (b : Bool) : (setDom s d b).ops = s.ops := rfl
@[simp] theorem setDom_tables (s : State) (d : Nat) (b : Bool) : (setDom s d b).tables = s.tables := rfl
@[simp] theorem setDom_range (s : State) (d : Nat) (b : Bool) : (setDom s d b).range = s.range := rfl
@[simp] theorem setDom_camp (s : State) (d : Nat) (b : Bool) : (setDom s d b).camp = s.camp := rfl
@[simp] theorem setDom_val (s : State) (d : Nat) (b : Bool) : (setDom s d b).val = s.val := rfl
@[simp] theorem setDom_cairn (s : State) (d : Nat) (b : Bool) : (setDom s d b).cairn = s.cairn := rfl
@[simp] theorem setDom_code (s : State) (d : Nat) (b : Bool) : (setDom s d b).code = s.code := rfl
@[simp] theorem setDom_sum (s : State) (d : Nat) (b : Bool) : (setDom s d b).sum = s.sum := rfl
@[simp] theorem setDom_key (s : State) (d : Nat) (b : Bool) : (setDom s d b).key = s.key := rfl
@[simp] theorem setDom_rope (s : State) (d : Nat) (b : Bool) : (setDom s d b).rope = s.rope := rfl

@[simp] theorem reach_pending (s : State) (t : Nat) : (reach s t).pending = s.pending := rfl
@[simp] theorem reach_free (s : State) (t : Nat) : (reach s t).free = s.free := rfl
@[simp] theorem reach_regs (s : State) (t : Nat) : (reach s t).regs = s.regs := rfl
@[simp] theorem reach_fuse (s : State) (t : Nat) : (reach s t).fuse = s.fuse := rfl
@[simp] theorem reach_pins (s : State) (t : Nat) : (reach s t).pins = s.pins := rfl
@[simp] theorem reach_fab (s : State) (t : Nat) : (reach s t).fab = s.fab := rfl
@[simp] theorem reach_seq (s : State) (t : Nat) : (reach s t).seq = s.seq := rfl
@[simp] theorem reach_thm (s : State) (t : Nat) : (reach s t).thm = s.thm := rfl
@[simp] theorem reach_start (s : State) (t : Nat) : (reach s t).start = s.start := rfl
@[simp] theorem reach_ladder (s : State) (t : Nat) : (reach s t).ladder = s.ladder := rfl
@[simp] theorem reach_log (s : State) (t : Nat) : (reach s t).log = s.log := rfl
@[simp] theorem reach_plog (s : State) (t : Nat) : (reach s t).plog = s.plog := rfl
@[simp] theorem reach_nq (s : State) (t : Nat) : (reach s t).nq = s.nq := rfl
@[simp] theorem reach_route (s : State) (t : Nat) : (reach s t).route = s.route := rfl
@[simp] theorem reach_mgmt (s : State) (t : Nat) : (reach s t).mgmt = s.mgmt := rfl
@[simp] theorem reach_i3c (s : State) (t : Nat) : (reach s t).i3c = s.i3c := rfl
@[simp] theorem reach_cmd (s : State) (t : Nat) : (reach s t).cmd = s.cmd := rfl
@[simp] theorem reach_ids (s : State) (t : Nat) : (reach s t).ids = s.ids := rfl
@[simp] theorem reach_port (s : State) (t : Nat) : (reach s t).port = s.port := rfl
@[simp] theorem reach_conns (s : State) (t : Nat) : (reach s t).conns = s.conns := rfl
@[simp] theorem reach_connGen (s : State) (t : Nat) : (reach s t).connGen = s.connGen := rfl
@[simp] theorem reach_ops (s : State) (t : Nat) : (reach s t).ops = s.ops := rfl
@[simp] theorem reach_tables (s : State) (t : Nat) : (reach s t).tables = s.tables := rfl
@[simp] theorem reach_range (s : State) (t : Nat) : (reach s t).range = s.range := rfl
@[simp] theorem reach_camp (s : State) (t : Nat) : (reach s t).camp = s.camp := rfl
@[simp] theorem reach_val (s : State) (t : Nat) : (reach s t).val = s.val := rfl
@[simp] theorem reach_cairn (s : State) (t : Nat) : (reach s t).cairn = s.cairn := rfl
@[simp] theorem reach_code (s : State) (t : Nat) : (reach s t).code = s.code := rfl
@[simp] theorem reach_sum (s : State) (t : Nat) : (reach s t).sum = s.sum := rfl
@[simp] theorem reach_key (s : State) (t : Nat) : (reach s t).key = s.key := rfl
@[simp] theorem reach_rope (s : State) (t : Nat) : (reach s t).rope = s.rope := rfl

@[simp] theorem useFree_pending (s : State) : (useFree s).pending = s.pending := rfl
@[simp] theorem useFree_timebase (s : State) : (useFree s).timebase = s.timebase := rfl
@[simp] theorem useFree_regs (s : State) : (useFree s).regs = s.regs := rfl
@[simp] theorem useFree_fuse (s : State) : (useFree s).fuse = s.fuse := rfl
@[simp] theorem useFree_pins (s : State) : (useFree s).pins = s.pins := rfl
@[simp] theorem useFree_fab (s : State) : (useFree s).fab = s.fab := rfl
@[simp] theorem useFree_seq (s : State) : (useFree s).seq = s.seq := rfl
@[simp] theorem useFree_thm (s : State) : (useFree s).thm = s.thm := rfl
@[simp] theorem useFree_start (s : State) : (useFree s).start = s.start := rfl
@[simp] theorem useFree_ladder (s : State) : (useFree s).ladder = s.ladder := rfl
@[simp] theorem useFree_log (s : State) : (useFree s).log = s.log := rfl
@[simp] theorem useFree_plog (s : State) : (useFree s).plog = s.plog := rfl
@[simp] theorem useFree_nq (s : State) : (useFree s).nq = s.nq := rfl
@[simp] theorem useFree_route (s : State) : (useFree s).route = s.route := rfl
@[simp] theorem useFree_mgmt (s : State) : (useFree s).mgmt = s.mgmt := rfl
@[simp] theorem useFree_i3c (s : State) : (useFree s).i3c = s.i3c := rfl
@[simp] theorem useFree_cmd (s : State) : (useFree s).cmd = s.cmd := rfl
@[simp] theorem useFree_ids (s : State) : (useFree s).ids = s.ids := rfl
@[simp] theorem useFree_port (s : State) : (useFree s).port = s.port := rfl
@[simp] theorem useFree_conns (s : State) : (useFree s).conns = s.conns := rfl
@[simp] theorem useFree_connGen (s : State) : (useFree s).connGen = s.connGen := rfl
@[simp] theorem useFree_ops (s : State) : (useFree s).ops = s.ops := rfl
@[simp] theorem useFree_tables (s : State) : (useFree s).tables = s.tables := rfl
@[simp] theorem useFree_range (s : State) : (useFree s).range = s.range := rfl
@[simp] theorem useFree_camp (s : State) : (useFree s).camp = s.camp := rfl
@[simp] theorem useFree_val (s : State) : (useFree s).val = s.val := rfl
@[simp] theorem useFree_cairn (s : State) : (useFree s).cairn = s.cairn := rfl
@[simp] theorem useFree_code (s : State) : (useFree s).code = s.code := rfl
@[simp] theorem useFree_sum (s : State) : (useFree s).sum = s.sum := rfl
@[simp] theorem useFree_key (s : State) : (useFree s).key = s.key := rfl
@[simp] theorem useFree_rope (s : State) : (useFree s).rope = s.rope := rfl

@[simp] theorem setNq_pending (s : State) (q : Nat) (n : Nq) : (setNq s q n).pending = s.pending := rfl
@[simp] theorem setNq_timebase (s : State) (q : Nat) (n : Nq) : (setNq s q n).timebase = s.timebase := rfl
@[simp] theorem setNq_free (s : State) (q : Nat) (n : Nq) : (setNq s q n).free = s.free := rfl
@[simp] theorem setNq_fuse (s : State) (q : Nat) (n : Nq) : (setNq s q n).fuse = s.fuse := rfl
@[simp] theorem setNq_pins (s : State) (q : Nat) (n : Nq) : (setNq s q n).pins = s.pins := rfl
@[simp] theorem setNq_fab (s : State) (q : Nat) (n : Nq) : (setNq s q n).fab = s.fab := rfl
@[simp] theorem setNq_seq (s : State) (q : Nat) (n : Nq) : (setNq s q n).seq = s.seq := rfl
@[simp] theorem setNq_thm (s : State) (q : Nat) (n : Nq) : (setNq s q n).thm = s.thm := rfl
@[simp] theorem setNq_start (s : State) (q : Nat) (n : Nq) : (setNq s q n).start = s.start := rfl
@[simp] theorem setNq_ladder (s : State) (q : Nat) (n : Nq) : (setNq s q n).ladder = s.ladder := rfl
@[simp] theorem setNq_log (s : State) (q : Nat) (n : Nq) : (setNq s q n).log = s.log := rfl
@[simp] theorem setNq_plog (s : State) (q : Nat) (n : Nq) : (setNq s q n).plog = s.plog := rfl
@[simp] theorem setNq_route (s : State) (q : Nat) (n : Nq) : (setNq s q n).route = s.route := rfl
@[simp] theorem setNq_mgmt (s : State) (q : Nat) (n : Nq) : (setNq s q n).mgmt = s.mgmt := rfl
@[simp] theorem setNq_i3c (s : State) (q : Nat) (n : Nq) : (setNq s q n).i3c = s.i3c := rfl
@[simp] theorem setNq_cmd (s : State) (q : Nat) (n : Nq) : (setNq s q n).cmd = s.cmd := rfl
@[simp] theorem setNq_ids (s : State) (q : Nat) (n : Nq) : (setNq s q n).ids = s.ids := rfl
@[simp] theorem setNq_port (s : State) (q : Nat) (n : Nq) : (setNq s q n).port = s.port := rfl
@[simp] theorem setNq_conns (s : State) (q : Nat) (n : Nq) : (setNq s q n).conns = s.conns := rfl
@[simp] theorem setNq_connGen (s : State) (q : Nat) (n : Nq) : (setNq s q n).connGen = s.connGen := rfl
@[simp] theorem setNq_ops (s : State) (q : Nat) (n : Nq) : (setNq s q n).ops = s.ops := rfl
@[simp] theorem setNq_tables (s : State) (q : Nat) (n : Nq) : (setNq s q n).tables = s.tables := rfl
@[simp] theorem setNq_range (s : State) (q : Nat) (n : Nq) : (setNq s q n).range = s.range := rfl
@[simp] theorem setNq_camp (s : State) (q : Nat) (n : Nq) : (setNq s q n).camp = s.camp := rfl
@[simp] theorem setNq_val (s : State) (q : Nat) (n : Nq) : (setNq s q n).val = s.val := rfl
@[simp] theorem setNq_cairn (s : State) (q : Nat) (n : Nq) : (setNq s q n).cairn = s.cairn := rfl
@[simp] theorem setNq_code (s : State) (q : Nat) (n : Nq) : (setNq s q n).code = s.code := rfl
@[simp] theorem setNq_sum (s : State) (q : Nat) (n : Nq) : (setNq s q n).sum = s.sum := rfl
@[simp] theorem setNq_key (s : State) (q : Nat) (n : Nq) : (setNq s q n).key = s.key := rfl
@[simp] theorem setNq_rope (s : State) (q : Nat) (n : Nq) : (setNq s q n).rope = s.rope := rfl

@[simp] theorem sendVector_pending (s : State) (v : Nat) : (sendVector s v).pending = s.pending := by
  simp only [sendVector]; split <;> (try split) <;> rfl
@[simp] theorem sendVector_timebase (s : State) (v : Nat) : (sendVector s v).timebase = s.timebase := by
  simp only [sendVector]; split <;> (try split) <;> rfl
@[simp] theorem sendVector_free (s : State) (v : Nat) : (sendVector s v).free = s.free := by
  simp only [sendVector]; split <;> (try split) <;> rfl
@[simp] theorem sendVector_regs (s : State) (v : Nat) : (sendVector s v).regs = s.regs := by
  simp only [sendVector]; split <;> (try split) <;> rfl
@[simp] theorem sendVector_fuse (s : State) (v : Nat) : (sendVector s v).fuse = s.fuse := by
  simp only [sendVector]; split <;> (try split) <;> rfl
@[simp] theorem sendVector_pins (s : State) (v : Nat) : (sendVector s v).pins = s.pins := by
  simp only [sendVector]; split <;> (try split) <;> rfl
@[simp] theorem sendVector_fab (s : State) (v : Nat) : (sendVector s v).fab = s.fab := by
  simp only [sendVector]; split <;> (try split) <;> rfl
@[simp] theorem sendVector_seq (s : State) (v : Nat) : (sendVector s v).seq = s.seq := by
  simp only [sendVector]; split <;> (try split) <;> rfl
@[simp] theorem sendVector_thm (s : State) (v : Nat) : (sendVector s v).thm = s.thm := by
  simp only [sendVector]; split <;> (try split) <;> rfl
@[simp] theorem sendVector_start (s : State) (v : Nat) : (sendVector s v).start = s.start := by
  simp only [sendVector]; split <;> (try split) <;> rfl
@[simp] theorem sendVector_ladder (s : State) (v : Nat) : (sendVector s v).ladder = s.ladder := by
  simp only [sendVector]; split <;> (try split) <;> rfl
@[simp] theorem sendVector_log (s : State) (v : Nat) : (sendVector s v).log = s.log := by
  simp only [sendVector]; split <;> (try split) <;> rfl
@[simp] theorem sendVector_plog (s : State) (v : Nat) : (sendVector s v).plog = s.plog := by
  simp only [sendVector]; split <;> (try split) <;> rfl
@[simp] theorem sendVector_nq (s : State) (v : Nat) : (sendVector s v).nq = s.nq := by
  simp only [sendVector]; split <;> (try split) <;> rfl
@[simp] theorem sendVector_route (s : State) (v : Nat) : (sendVector s v).route = s.route := by
  simp only [sendVector]; split <;> (try split) <;> rfl
@[simp] theorem sendVector_i3c (s : State) (v : Nat) : (sendVector s v).i3c = s.i3c := by
  simp only [sendVector]; split <;> (try split) <;> rfl
@[simp] theorem sendVector_cmd (s : State) (v : Nat) : (sendVector s v).cmd = s.cmd := by
  simp only [sendVector]; split <;> (try split) <;> rfl
@[simp] theorem sendVector_ids (s : State) (v : Nat) : (sendVector s v).ids = s.ids := by
  simp only [sendVector]; split <;> (try split) <;> rfl
@[simp] theorem sendVector_port (s : State) (v : Nat) : (sendVector s v).port = s.port := by
  simp only [sendVector]; split <;> (try split) <;> rfl
@[simp] theorem sendVector_conns (s : State) (v : Nat) : (sendVector s v).conns = s.conns := by
  simp only [sendVector]; split <;> (try split) <;> rfl
@[simp] theorem sendVector_connGen (s : State) (v : Nat) : (sendVector s v).connGen = s.connGen := by
  simp only [sendVector]; split <;> (try split) <;> rfl
@[simp] theorem sendVector_ops (s : State) (v : Nat) : (sendVector s v).ops = s.ops := by
  simp only [sendVector]; split <;> (try split) <;> rfl
@[simp] theorem sendVector_tables (s : State) (v : Nat) : (sendVector s v).tables = s.tables := by
  simp only [sendVector]; split <;> (try split) <;> rfl
@[simp] theorem sendVector_range (s : State) (v : Nat) : (sendVector s v).range = s.range := by
  simp only [sendVector]; split <;> (try split) <;> rfl
@[simp] theorem sendVector_camp (s : State) (v : Nat) : (sendVector s v).camp = s.camp := by
  simp only [sendVector]; split <;> (try split) <;> rfl
@[simp] theorem sendVector_val (s : State) (v : Nat) : (sendVector s v).val = s.val := by
  simp only [sendVector]; split <;> (try split) <;> rfl
@[simp] theorem sendVector_cairn (s : State) (v : Nat) : (sendVector s v).cairn = s.cairn := by
  simp only [sendVector]; split <;> (try split) <;> rfl
@[simp] theorem sendVector_code (s : State) (v : Nat) : (sendVector s v).code = s.code := by
  simp only [sendVector]; split <;> (try split) <;> rfl
@[simp] theorem sendVector_sum (s : State) (v : Nat) : (sendVector s v).sum = s.sum := by
  simp only [sendVector]; split <;> (try split) <;> rfl
@[simp] theorem sendVector_key (s : State) (v : Nat) : (sendVector s v).key = s.key := by
  simp only [sendVector]; split <;> (try split) <;> rfl
@[simp] theorem sendVector_rope (s : State) (v : Nat) : (sendVector s v).rope = s.rope := by
  simp only [sendVector]; split <;> (try split) <;> rfl

@[simp] theorem mbxVector_pending (s : State) : (mbxVector s).pending = s.pending := by
  simp only [mbxVector]; split <;> simp
@[simp] theorem mbxVector_timebase (s : State) : (mbxVector s).timebase = s.timebase := by
  simp only [mbxVector]; split <;> simp
@[simp] theorem mbxVector_free (s : State) : (mbxVector s).free = s.free := by
  simp only [mbxVector]; split <;> simp
@[simp] theorem mbxVector_regs (s : State) : (mbxVector s).regs = s.regs := by
  simp only [mbxVector]; split <;> simp
@[simp] theorem mbxVector_fuse (s : State) : (mbxVector s).fuse = s.fuse := by
  simp only [mbxVector]; split <;> simp
@[simp] theorem mbxVector_pins (s : State) : (mbxVector s).pins = s.pins := by
  simp only [mbxVector]; split <;> simp
@[simp] theorem mbxVector_fab (s : State) : (mbxVector s).fab = s.fab := by
  simp only [mbxVector]; split <;> simp
@[simp] theorem mbxVector_seq (s : State) : (mbxVector s).seq = s.seq := by
  simp only [mbxVector]; split <;> simp
@[simp] theorem mbxVector_thm (s : State) : (mbxVector s).thm = s.thm := by
  simp only [mbxVector]; split <;> simp
@[simp] theorem mbxVector_start (s : State) : (mbxVector s).start = s.start := by
  simp only [mbxVector]; split <;> simp
@[simp] theorem mbxVector_ladder (s : State) : (mbxVector s).ladder = s.ladder := by
  simp only [mbxVector]; split <;> simp
@[simp] theorem mbxVector_log (s : State) : (mbxVector s).log = s.log := by
  simp only [mbxVector]; split <;> simp
@[simp] theorem mbxVector_plog (s : State) : (mbxVector s).plog = s.plog := by
  simp only [mbxVector]; split <;> simp
@[simp] theorem mbxVector_nq (s : State) : (mbxVector s).nq = s.nq := by
  simp only [mbxVector]; split <;> simp
@[simp] theorem mbxVector_route (s : State) : (mbxVector s).route = s.route := by
  simp only [mbxVector]; split <;> simp
@[simp] theorem mbxVector_i3c (s : State) : (mbxVector s).i3c = s.i3c := by
  simp only [mbxVector]; split <;> simp
@[simp] theorem mbxVector_cmd (s : State) : (mbxVector s).cmd = s.cmd := by
  simp only [mbxVector]; split <;> simp
@[simp] theorem mbxVector_ids (s : State) : (mbxVector s).ids = s.ids := by
  simp only [mbxVector]; split <;> simp
@[simp] theorem mbxVector_port (s : State) : (mbxVector s).port = s.port := by
  simp only [mbxVector]; split <;> simp
@[simp] theorem mbxVector_conns (s : State) : (mbxVector s).conns = s.conns := by
  simp only [mbxVector]; split <;> simp
@[simp] theorem mbxVector_connGen (s : State) : (mbxVector s).connGen = s.connGen := by
  simp only [mbxVector]; split <;> simp
@[simp] theorem mbxVector_ops (s : State) : (mbxVector s).ops = s.ops := by
  simp only [mbxVector]; split <;> simp
@[simp] theorem mbxVector_tables (s : State) : (mbxVector s).tables = s.tables := by
  simp only [mbxVector]; split <;> simp
@[simp] theorem mbxVector_range (s : State) : (mbxVector s).range = s.range := by
  simp only [mbxVector]; split <;> simp
@[simp] theorem mbxVector_camp (s : State) : (mbxVector s).camp = s.camp := by
  simp only [mbxVector]; split <;> simp
@[simp] theorem mbxVector_val (s : State) : (mbxVector s).val = s.val := by
  simp only [mbxVector]; split <;> simp
@[simp] theorem mbxVector_cairn (s : State) : (mbxVector s).cairn = s.cairn := by
  simp only [mbxVector]; split <;> simp
@[simp] theorem mbxVector_code (s : State) : (mbxVector s).code = s.code := by
  simp only [mbxVector]; split <;> simp
@[simp] theorem mbxVector_sum (s : State) : (mbxVector s).sum = s.sum := by
  simp only [mbxVector]; split <;> simp
@[simp] theorem mbxVector_key (s : State) : (mbxVector s).key = s.key := by
  simp only [mbxVector]; split <;> simp
@[simp] theorem mbxVector_rope (s : State) : (mbxVector s).rope = s.rope := by
  simp only [mbxVector]; split <;> simp

@[simp] theorem plogAdd_pending (s : State) (n : Nat) (e : Ev) (d : List Nat) (l : Bool) : (plogAdd s n e d l).pending = s.pending := rfl
@[simp] theorem plogAdd_timebase (s : State) (n : Nat) (e : Ev) (d : List Nat) (l : Bool) : (plogAdd s n e d l).timebase = s.timebase := rfl
@[simp] theorem plogAdd_free (s : State) (n : Nat) (e : Ev) (d : List Nat) (l : Bool) : (plogAdd s n e d l).free = s.free := rfl
@[simp] theorem plogAdd_regs (s : State) (n : Nat) (e : Ev) (d : List Nat) (l : Bool) : (plogAdd s n e d l).regs = s.regs := rfl
@[simp] theorem plogAdd_fuse (s : State) (n : Nat) (e : Ev) (d : List Nat) (l : Bool) : (plogAdd s n e d l).fuse = s.fuse := rfl
@[simp] theorem plogAdd_pins (s : State) (n : Nat) (e : Ev) (d : List Nat) (l : Bool) : (plogAdd s n e d l).pins = s.pins := rfl
@[simp] theorem plogAdd_fab (s : State) (n : Nat) (e : Ev) (d : List Nat) (l : Bool) : (plogAdd s n e d l).fab = s.fab := rfl
@[simp] theorem plogAdd_seq (s : State) (n : Nat) (e : Ev) (d : List Nat) (l : Bool) : (plogAdd s n e d l).seq = s.seq := rfl
@[simp] theorem plogAdd_thm (s : State) (n : Nat) (e : Ev) (d : List Nat) (l : Bool) : (plogAdd s n e d l).thm = s.thm := rfl
@[simp] theorem plogAdd_start (s : State) (n : Nat) (e : Ev) (d : List Nat) (l : Bool) : (plogAdd s n e d l).start = s.start := rfl
@[simp] theorem plogAdd_ladder (s : State) (n : Nat) (e : Ev) (d : List Nat) (l : Bool) : (plogAdd s n e d l).ladder = s.ladder := rfl
@[simp] theorem plogAdd_log (s : State) (n : Nat) (e : Ev) (d : List Nat) (l : Bool) : (plogAdd s n e d l).log = s.log := rfl
@[simp] theorem plogAdd_nq (s : State) (n : Nat) (e : Ev) (d : List Nat) (l : Bool) : (plogAdd s n e d l).nq = s.nq := rfl
@[simp] theorem plogAdd_route (s : State) (n : Nat) (e : Ev) (d : List Nat) (l : Bool) : (plogAdd s n e d l).route = s.route := rfl
@[simp] theorem plogAdd_mgmt (s : State) (n : Nat) (e : Ev) (d : List Nat) (l : Bool) : (plogAdd s n e d l).mgmt = s.mgmt := rfl
@[simp] theorem plogAdd_i3c (s : State) (n : Nat) (e : Ev) (d : List Nat) (l : Bool) : (plogAdd s n e d l).i3c = s.i3c := rfl
@[simp] theorem plogAdd_cmd (s : State) (n : Nat) (e : Ev) (d : List Nat) (l : Bool) : (plogAdd s n e d l).cmd = s.cmd := rfl
@[simp] theorem plogAdd_ids (s : State) (n : Nat) (e : Ev) (d : List Nat) (l : Bool) : (plogAdd s n e d l).ids = s.ids := rfl
@[simp] theorem plogAdd_port (s : State) (n : Nat) (e : Ev) (d : List Nat) (l : Bool) : (plogAdd s n e d l).port = s.port := rfl
@[simp] theorem plogAdd_conns (s : State) (n : Nat) (e : Ev) (d : List Nat) (l : Bool) : (plogAdd s n e d l).conns = s.conns := rfl
@[simp] theorem plogAdd_connGen (s : State) (n : Nat) (e : Ev) (d : List Nat) (l : Bool) : (plogAdd s n e d l).connGen = s.connGen := rfl
@[simp] theorem plogAdd_ops (s : State) (n : Nat) (e : Ev) (d : List Nat) (l : Bool) : (plogAdd s n e d l).ops = s.ops := rfl
@[simp] theorem plogAdd_tables (s : State) (n : Nat) (e : Ev) (d : List Nat) (l : Bool) : (plogAdd s n e d l).tables = s.tables := rfl
@[simp] theorem plogAdd_range (s : State) (n : Nat) (e : Ev) (d : List Nat) (l : Bool) : (plogAdd s n e d l).range = s.range := rfl
@[simp] theorem plogAdd_camp (s : State) (n : Nat) (e : Ev) (d : List Nat) (l : Bool) : (plogAdd s n e d l).camp = s.camp := rfl
@[simp] theorem plogAdd_val (s : State) (n : Nat) (e : Ev) (d : List Nat) (l : Bool) : (plogAdd s n e d l).val = s.val := rfl
@[simp] theorem plogAdd_cairn (s : State) (n : Nat) (e : Ev) (d : List Nat) (l : Bool) : (plogAdd s n e d l).cairn = s.cairn := rfl
@[simp] theorem plogAdd_code (s : State) (n : Nat) (e : Ev) (d : List Nat) (l : Bool) : (plogAdd s n e d l).code = s.code := rfl
@[simp] theorem plogAdd_sum (s : State) (n : Nat) (e : Ev) (d : List Nat) (l : Bool) : (plogAdd s n e d l).sum = s.sum := rfl
@[simp] theorem plogAdd_key (s : State) (n : Nat) (e : Ev) (d : List Nat) (l : Bool) : (plogAdd s n e d l).key = s.key := rfl
@[simp] theorem plogAdd_rope (s : State) (n : Nat) (e : Ev) (d : List Nat) (l : Bool) : (plogAdd s n e d l).rope = s.rope := rfl

@[simp] theorem logDrop_pending (s : State) : (logDrop s).pending = s.pending := by
  simp only [logDrop]; split <;> simp
@[simp] theorem logDrop_timebase (s : State) : (logDrop s).timebase = s.timebase := by
  simp only [logDrop]; split <;> simp
@[simp] theorem logDrop_free (s : State) : (logDrop s).free = s.free := by
  simp only [logDrop]; split <;> simp
@[simp] theorem logDrop_fuse (s : State) : (logDrop s).fuse = s.fuse := by
  simp only [logDrop]; split <;> simp
@[simp] theorem logDrop_pins (s : State) : (logDrop s).pins = s.pins := by
  simp only [logDrop]; split <;> simp
@[simp] theorem logDrop_fab (s : State) : (logDrop s).fab = s.fab := by
  simp only [logDrop]; split <;> simp
@[simp] theorem logDrop_seq (s : State) : (logDrop s).seq = s.seq := by
  simp only [logDrop]; split <;> simp
@[simp] theorem logDrop_thm (s : State) : (logDrop s).thm = s.thm := by
  simp only [logDrop]; split <;> simp
@[simp] theorem logDrop_start (s : State) : (logDrop s).start = s.start := by
  simp only [logDrop]; split <;> simp
@[simp] theorem logDrop_ladder (s : State) : (logDrop s).ladder = s.ladder := by
  simp only [logDrop]; split <;> simp
@[simp] theorem logDrop_plog (s : State) : (logDrop s).plog = s.plog := by
  simp only [logDrop]; split <;> simp
@[simp] theorem logDrop_nq (s : State) : (logDrop s).nq = s.nq := by
  simp only [logDrop]; split <;> simp
@[simp] theorem logDrop_route (s : State) : (logDrop s).route = s.route := by
  simp only [logDrop]; split <;> simp
@[simp] theorem logDrop_mgmt (s : State) : (logDrop s).mgmt = s.mgmt := by
  simp only [logDrop]; split <;> simp
@[simp] theorem logDrop_i3c (s : State) : (logDrop s).i3c = s.i3c := by
  simp only [logDrop]; split <;> simp
@[simp] theorem logDrop_cmd (s : State) : (logDrop s).cmd = s.cmd := by
  simp only [logDrop]; split <;> simp
@[simp] theorem logDrop_ids (s : State) : (logDrop s).ids = s.ids := by
  simp only [logDrop]; split <;> simp
@[simp] theorem logDrop_port (s : State) : (logDrop s).port = s.port := by
  simp only [logDrop]; split <;> simp
@[simp] theorem logDrop_conns (s : State) : (logDrop s).conns = s.conns := by
  simp only [logDrop]; split <;> simp
@[simp] theorem logDrop_connGen (s : State) : (logDrop s).connGen = s.connGen := by
  simp only [logDrop]; split <;> simp
@[simp] theorem logDrop_ops (s : State) : (logDrop s).ops = s.ops := by
  simp only [logDrop]; split <;> simp
@[simp] theorem logDrop_tables (s : State) : (logDrop s).tables = s.tables := by
  simp only [logDrop]; split <;> simp
@[simp] theorem logDrop_range (s : State) : (logDrop s).range = s.range := by
  simp only [logDrop]; split <;> simp
@[simp] theorem logDrop_camp (s : State) : (logDrop s).camp = s.camp := by
  simp only [logDrop]; split <;> simp
@[simp] theorem logDrop_val (s : State) : (logDrop s).val = s.val := by
  simp only [logDrop]; split <;> simp
@[simp] theorem logDrop_cairn (s : State) : (logDrop s).cairn = s.cairn := by
  simp only [logDrop]; split <;> simp
@[simp] theorem logDrop_code (s : State) : (logDrop s).code = s.code := by
  simp only [logDrop]; split <;> simp
@[simp] theorem logDrop_sum (s : State) : (logDrop s).sum = s.sum := by
  simp only [logDrop]; split <;> simp
@[simp] theorem logDrop_key (s : State) : (logDrop s).key = s.key := by
  simp only [logDrop]; split <;> simp
@[simp] theorem logDrop_rope (s : State) : (logDrop s).rope = s.rope := by
  simp only [logDrop]; split <;> simp

@[simp] theorem logPut_pending (s : State) (n : Nat) (e : Ev) (u : Nat) (d : List Nat) (p : Bool) : (logPut s n e u d p).1.pending = s.pending := by
  simp only [logPut]; split; · (split <;> rfl)
  · split
    · simp
    · split
      · split
        · rfl
        · split <;> simp
      · rfl
@[simp] theorem logPut_timebase (s : State) (n : Nat) (e : Ev) (u : Nat) (d : List Nat) (p : Bool) : (logPut s n e u d p).1.timebase = s.timebase := by
  simp only [logPut]; split; · (split <;> rfl)
  · split
    · simp
    · split
      · split
        · rfl
        · split <;> simp
      · rfl
@[simp] theorem logPut_free (s : State) (n : Nat) (e : Ev) (u : Nat) (d : List Nat) (p : Bool) : (logPut s n e u d p).1.free = s.free := by
  simp only [logPut]; split; · (split <;> rfl)
  · split
    · simp
    · split
      · split
        · rfl
        · split <;> simp
      · rfl
@[simp] theorem logPut_fuse (s : State) (n : Nat) (e : Ev) (u : Nat) (d : List Nat) (p : Bool) : (logPut s n e u d p).1.fuse = s.fuse := by
  simp only [logPut]; split; · (split <;> rfl)
  · split
    · simp
    · split
      · split
        · rfl
        · split <;> simp
      · rfl
@[simp] theorem logPut_pins (s : State) (n : Nat) (e : Ev) (u : Nat) (d : List Nat) (p : Bool) : (logPut s n e u d p).1.pins = s.pins := by
  simp only [logPut]; split; · (split <;> rfl)
  · split
    · simp
    · split
      · split
        · rfl
        · split <;> simp
      · rfl
@[simp] theorem logPut_fab (s : State) (n : Nat) (e : Ev) (u : Nat) (d : List Nat) (p : Bool) : (logPut s n e u d p).1.fab = s.fab := by
  simp only [logPut]; split; · (split <;> rfl)
  · split
    · simp
    · split
      · split
        · rfl
        · split <;> simp
      · rfl
@[simp] theorem logPut_seq (s : State) (n : Nat) (e : Ev) (u : Nat) (d : List Nat) (p : Bool) : (logPut s n e u d p).1.seq = s.seq := by
  simp only [logPut]; split; · (split <;> rfl)
  · split
    · simp
    · split
      · split
        · rfl
        · split <;> simp
      · rfl
@[simp] theorem logPut_thm (s : State) (n : Nat) (e : Ev) (u : Nat) (d : List Nat) (p : Bool) : (logPut s n e u d p).1.thm = s.thm := by
  simp only [logPut]; split; · (split <;> rfl)
  · split
    · simp
    · split
      · split
        · rfl
        · split <;> simp
      · rfl
@[simp] theorem logPut_start (s : State) (n : Nat) (e : Ev) (u : Nat) (d : List Nat) (p : Bool) : (logPut s n e u d p).1.start = s.start := by
  simp only [logPut]; split; · (split <;> rfl)
  · split
    · simp
    · split
      · split
        · rfl
        · split <;> simp
      · rfl
@[simp] theorem logPut_ladder (s : State) (n : Nat) (e : Ev) (u : Nat) (d : List Nat) (p : Bool) : (logPut s n e u d p).1.ladder = s.ladder := by
  simp only [logPut]; split; · (split <;> rfl)
  · split
    · simp
    · split
      · split
        · rfl
        · split <;> simp
      · rfl
@[simp] theorem logPut_plog (s : State) (n : Nat) (e : Ev) (u : Nat) (d : List Nat) (p : Bool) : (logPut s n e u d p).1.plog = s.plog := by
  simp only [logPut]; split; · (split <;> rfl)
  · split
    · simp
    · split
      · split
        · rfl
        · split <;> simp
      · rfl
@[simp] theorem logPut_nq (s : State) (n : Nat) (e : Ev) (u : Nat) (d : List Nat) (p : Bool) : (logPut s n e u d p).1.nq = s.nq := by
  simp only [logPut]; split; · (split <;> rfl)
  · split
    · simp
    · split
      · split
        · rfl
        · split <;> simp
      · rfl
@[simp] theorem logPut_route (s : State) (n : Nat) (e : Ev) (u : Nat) (d : List Nat) (p : Bool) : (logPut s n e u d p).1.route = s.route := by
  simp only [logPut]; split; · (split <;> rfl)
  · split
    · simp
    · split
      · split
        · rfl
        · split <;> simp
      · rfl
@[simp] theorem logPut_mgmt (s : State) (n : Nat) (e : Ev) (u : Nat) (d : List Nat) (p : Bool) : (logPut s n e u d p).1.mgmt = s.mgmt := by
  simp only [logPut]; split; · (split <;> rfl)
  · split
    · simp
    · split
      · split
        · rfl
        · split <;> simp
      · rfl
@[simp] theorem logPut_i3c (s : State) (n : Nat) (e : Ev) (u : Nat) (d : List Nat) (p : Bool) : (logPut s n e u d p).1.i3c = s.i3c := by
  simp only [logPut]; split; · (split <;> rfl)
  · split
    · simp
    · split
      · split
        · rfl
        · split <;> simp
      · rfl
@[simp] theorem logPut_cmd (s : State) (n : Nat) (e : Ev) (u : Nat) (d : List Nat) (p : Bool) : (logPut s n e u d p).1.cmd = s.cmd := by
  simp only [logPut]; split; · (split <;> rfl)
  · split
    · simp
    · split
      · split
        · rfl
        · split <;> simp
      · rfl
@[simp] theorem logPut_ids (s : State) (n : Nat) (e : Ev) (u : Nat) (d : List Nat) (p : Bool) : (logPut s n e u d p).1.ids = s.ids := by
  simp only [logPut]; split; · (split <;> rfl)
  · split
    · simp
    · split
      · split
        · rfl
        · split <;> simp
      · rfl
@[simp] theorem logPut_port (s : State) (n : Nat) (e : Ev) (u : Nat) (d : List Nat) (p : Bool) : (logPut s n e u d p).1.port = s.port := by
  simp only [logPut]; split; · (split <;> rfl)
  · split
    · simp
    · split
      · split
        · rfl
        · split <;> simp
      · rfl
@[simp] theorem logPut_conns (s : State) (n : Nat) (e : Ev) (u : Nat) (d : List Nat) (p : Bool) : (logPut s n e u d p).1.conns = s.conns := by
  simp only [logPut]; split; · (split <;> rfl)
  · split
    · simp
    · split
      · split
        · rfl
        · split <;> simp
      · rfl
@[simp] theorem logPut_connGen (s : State) (n : Nat) (e : Ev) (u : Nat) (d : List Nat) (p : Bool) : (logPut s n e u d p).1.connGen = s.connGen := by
  simp only [logPut]; split; · (split <;> rfl)
  · split
    · simp
    · split
      · split
        · rfl
        · split <;> simp
      · rfl
@[simp] theorem logPut_ops (s : State) (n : Nat) (e : Ev) (u : Nat) (d : List Nat) (p : Bool) : (logPut s n e u d p).1.ops = s.ops := by
  simp only [logPut]; split; · (split <;> rfl)
  · split
    · simp
    · split
      · split
        · rfl
        · split <;> simp
      · rfl
@[simp] theorem logPut_tables (s : State) (n : Nat) (e : Ev) (u : Nat) (d : List Nat) (p : Bool) : (logPut s n e u d p).1.tables = s.tables := by
  simp only [logPut]; split; · (split <;> rfl)
  · split
    · simp
    · split
      · split
        · rfl
        · split <;> simp
      · rfl
@[simp] theorem logPut_range (s : State) (n : Nat) (e : Ev) (u : Nat) (d : List Nat) (p : Bool) : (logPut s n e u d p).1.range = s.range := by
  simp only [logPut]; split; · (split <;> rfl)
  · split
    · simp
    · split
      · split
        · rfl
        · split <;> simp
      · rfl
@[simp] theorem logPut_camp (s : State) (n : Nat) (e : Ev) (u : Nat) (d : List Nat) (p : Bool) : (logPut s n e u d p).1.camp = s.camp := by
  simp only [logPut]; split; · (split <;> rfl)
  · split
    · simp
    · split
      · split
        · rfl
        · split <;> simp
      · rfl
@[simp] theorem logPut_val (s : State) (n : Nat) (e : Ev) (u : Nat) (d : List Nat) (p : Bool) : (logPut s n e u d p).1.val = s.val := by
  simp only [logPut]; split; · (split <;> rfl)
  · split
    · simp
    · split
      · split
        · rfl
        · split <;> simp
      · rfl
@[simp] theorem logPut_cairn (s : State) (n : Nat) (e : Ev) (u : Nat) (d : List Nat) (p : Bool) : (logPut s n e u d p).1.cairn = s.cairn := by
  simp only [logPut]; split; · (split <;> rfl)
  · split
    · simp
    · split
      · split
        · rfl
        · split <;> simp
      · rfl
@[simp] theorem logPut_code (s : State) (n : Nat) (e : Ev) (u : Nat) (d : List Nat) (p : Bool) : (logPut s n e u d p).1.code = s.code := by
  simp only [logPut]; split; · (split <;> rfl)
  · split
    · simp
    · split
      · split
        · rfl
        · split <;> simp
      · rfl
@[simp] theorem logPut_sum (s : State) (n : Nat) (e : Ev) (u : Nat) (d : List Nat) (p : Bool) : (logPut s n e u d p).1.sum = s.sum := by
  simp only [logPut]; split; · (split <;> rfl)
  · split
    · simp
    · split
      · split
        · rfl
        · split <;> simp
      · rfl
@[simp] theorem logPut_key (s : State) (n : Nat) (e : Ev) (u : Nat) (d : List Nat) (p : Bool) : (logPut s n e u d p).1.key = s.key := by
  simp only [logPut]; split; · (split <;> rfl)
  · split
    · simp
    · split
      · split
        · rfl
        · split <;> simp
      · rfl
@[simp] theorem logPut_rope (s : State) (n : Nat) (e : Ev) (u : Nat) (d : List Nat) (p : Bool) : (logPut s n e u d p).1.rope = s.rope := by
  simp only [logPut]; split; · (split <;> rfl)
  · split
    · simp
    · split
      · split
        · rfl
        · split <;> simp
      · rfl

@[simp] theorem nqCheck_pending (s : State) (q : Nat) : (nqCheck s q).pending = s.pending := by
  simp only [nqCheck]; split; · rfl
  · split <;> simp
@[simp] theorem nqCheck_timebase (s : State) (q : Nat) : (nqCheck s q).timebase = s.timebase := by
  simp only [nqCheck]; split; · rfl
  · split <;> simp
@[simp] theorem nqCheck_free (s : State) (q : Nat) : (nqCheck s q).free = s.free := by
  simp only [nqCheck]; split; · rfl
  · split <;> simp
@[simp] theorem nqCheck_fuse (s : State) (q : Nat) : (nqCheck s q).fuse = s.fuse := by
  simp only [nqCheck]; split; · rfl
  · split <;> simp
@[simp] theorem nqCheck_pins (s : State) (q : Nat) : (nqCheck s q).pins = s.pins := by
  simp only [nqCheck]; split; · rfl
  · split <;> simp
@[simp] theorem nqCheck_fab (s : State) (q : Nat) : (nqCheck s q).fab = s.fab := by
  simp only [nqCheck]; split; · rfl
  · split <;> simp
@[simp] theorem nqCheck_seq (s : State) (q : Nat) : (nqCheck s q).seq = s.seq := by
  simp only [nqCheck]; split; · rfl
  · split <;> simp
@[simp] theorem nqCheck_thm (s : State) (q : Nat) : (nqCheck s q).thm = s.thm := by
  simp only [nqCheck]; split; · rfl
  · split <;> simp
@[simp] theorem nqCheck_start (s : State) (q : Nat) : (nqCheck s q).start = s.start := by
  simp only [nqCheck]; split; · rfl
  · split <;> simp
@[simp] theorem nqCheck_ladder (s : State) (q : Nat) : (nqCheck s q).ladder = s.ladder := by
  simp only [nqCheck]; split; · rfl
  · split <;> simp
@[simp] theorem nqCheck_plog (s : State) (q : Nat) : (nqCheck s q).plog = s.plog := by
  simp only [nqCheck]; split; · rfl
  · split <;> simp
@[simp] theorem nqCheck_route (s : State) (q : Nat) : (nqCheck s q).route = s.route := by
  simp only [nqCheck]; split; · rfl
  · split <;> simp
@[simp] theorem nqCheck_i3c (s : State) (q : Nat) : (nqCheck s q).i3c = s.i3c := by
  simp only [nqCheck]; split; · rfl
  · split <;> simp
@[simp] theorem nqCheck_cmd (s : State) (q : Nat) : (nqCheck s q).cmd = s.cmd := by
  simp only [nqCheck]; split; · rfl
  · split <;> simp
@[simp] theorem nqCheck_ids (s : State) (q : Nat) : (nqCheck s q).ids = s.ids := by
  simp only [nqCheck]; split; · rfl
  · split <;> simp
@[simp] theorem nqCheck_port (s : State) (q : Nat) : (nqCheck s q).port = s.port := by
  simp only [nqCheck]; split; · rfl
  · split <;> simp
@[simp] theorem nqCheck_conns (s : State) (q : Nat) : (nqCheck s q).conns = s.conns := by
  simp only [nqCheck]; split; · rfl
  · split <;> simp
@[simp] theorem nqCheck_connGen (s : State) (q : Nat) : (nqCheck s q).connGen = s.connGen := by
  simp only [nqCheck]; split; · rfl
  · split <;> simp
@[simp] theorem nqCheck_ops (s : State) (q : Nat) : (nqCheck s q).ops = s.ops := by
  simp only [nqCheck]; split; · rfl
  · split <;> simp
@[simp] theorem nqCheck_tables (s : State) (q : Nat) : (nqCheck s q).tables = s.tables := by
  simp only [nqCheck]; split; · rfl
  · split <;> simp
@[simp] theorem nqCheck_range (s : State) (q : Nat) : (nqCheck s q).range = s.range := by
  simp only [nqCheck]; split; · rfl
  · split <;> simp
@[simp] theorem nqCheck_camp (s : State) (q : Nat) : (nqCheck s q).camp = s.camp := by
  simp only [nqCheck]; split; · rfl
  · split <;> simp
@[simp] theorem nqCheck_val (s : State) (q : Nat) : (nqCheck s q).val = s.val := by
  simp only [nqCheck]; split; · rfl
  · split <;> simp
@[simp] theorem nqCheck_cairn (s : State) (q : Nat) : (nqCheck s q).cairn = s.cairn := by
  simp only [nqCheck]; split; · rfl
  · split <;> simp
@[simp] theorem nqCheck_code (s : State) (q : Nat) : (nqCheck s q).code = s.code := by
  simp only [nqCheck]; split; · rfl
  · split <;> simp
@[simp] theorem nqCheck_sum (s : State) (q : Nat) : (nqCheck s q).sum = s.sum := by
  simp only [nqCheck]; split; · rfl
  · split <;> simp
@[simp] theorem nqCheck_key (s : State) (q : Nat) : (nqCheck s q).key = s.key := by
  simp only [nqCheck]; split; · rfl
  · split <;> simp
@[simp] theorem nqCheck_rope (s : State) (q : Nat) : (nqCheck s q).rope = s.rope := by
  simp only [nqCheck]; split; · rfl
  · split <;> simp

@[simp] theorem nqPost_pending (s : State) (q : Nat) (b : List NqBody) : (nqPost s q b).pending = s.pending := by
  simp only [nqPost]; split; · simp
  · split <;> split <;> simp
@[simp] theorem nqPost_timebase (s : State) (q : Nat) (b : List NqBody) : (nqPost s q b).timebase = s.timebase := by
  simp only [nqPost]; split; · simp
  · split <;> split <;> simp
@[simp] theorem nqPost_free (s : State) (q : Nat) (b : List NqBody) : (nqPost s q b).free = s.free := by
  simp only [nqPost]; split; · simp
  · split <;> split <;> simp
@[simp] theorem nqPost_fuse (s : State) (q : Nat) (b : List NqBody) : (nqPost s q b).fuse = s.fuse := by
  simp only [nqPost]; split; · simp
  · split <;> split <;> simp
@[simp] theorem nqPost_pins (s : State) (q : Nat) (b : List NqBody) : (nqPost s q b).pins = s.pins := by
  simp only [nqPost]; split; · simp
  · split <;> split <;> simp
@[simp] theorem nqPost_fab (s : State) (q : Nat) (b : List NqBody) : (nqPost s q b).fab = s.fab := by
  simp only [nqPost]; split; · simp
  · split <;> split <;> simp
@[simp] theorem nqPost_seq (s : State) (q : Nat) (b : List NqBody) : (nqPost s q b).seq = s.seq := by
  simp only [nqPost]; split; · simp
  · split <;> split <;> simp
@[simp] theorem nqPost_thm (s : State) (q : Nat) (b : List NqBody) : (nqPost s q b).thm = s.thm := by
  simp only [nqPost]; split; · simp
  · split <;> split <;> simp
@[simp] theorem nqPost_start (s : State) (q : Nat) (b : List NqBody) : (nqPost s q b).start = s.start := by
  simp only [nqPost]; split; · simp
  · split <;> split <;> simp
@[simp] theorem nqPost_ladder (s : State) (q : Nat) (b : List NqBody) : (nqPost s q b).ladder = s.ladder := by
  simp only [nqPost]; split; · simp
  · split <;> split <;> simp
@[simp] theorem nqPost_plog (s : State) (q : Nat) (b : List NqBody) : (nqPost s q b).plog = s.plog := by
  simp only [nqPost]; split; · simp
  · split <;> split <;> simp
@[simp] theorem nqPost_route (s : State) (q : Nat) (b : List NqBody) : (nqPost s q b).route = s.route := by
  simp only [nqPost]; split; · simp
  · split <;> split <;> simp
@[simp] theorem nqPost_i3c (s : State) (q : Nat) (b : List NqBody) : (nqPost s q b).i3c = s.i3c := by
  simp only [nqPost]; split; · simp
  · split <;> split <;> simp
@[simp] theorem nqPost_cmd (s : State) (q : Nat) (b : List NqBody) : (nqPost s q b).cmd = s.cmd := by
  simp only [nqPost]; split; · simp
  · split <;> split <;> simp
@[simp] theorem nqPost_ids (s : State) (q : Nat) (b : List NqBody) : (nqPost s q b).ids = s.ids := by
  simp only [nqPost]; split; · simp
  · split <;> split <;> simp
@[simp] theorem nqPost_port (s : State) (q : Nat) (b : List NqBody) : (nqPost s q b).port = s.port := by
  simp only [nqPost]; split; · simp
  · split <;> split <;> simp
@[simp] theorem nqPost_conns (s : State) (q : Nat) (b : List NqBody) : (nqPost s q b).conns = s.conns := by
  simp only [nqPost]; split; · simp
  · split <;> split <;> simp
@[simp] theorem nqPost_connGen (s : State) (q : Nat) (b : List NqBody) : (nqPost s q b).connGen = s.connGen := by
  simp only [nqPost]; split; · simp
  · split <;> split <;> simp
@[simp] theorem nqPost_ops (s : State) (q : Nat) (b : List NqBody) : (nqPost s q b).ops = s.ops := by
  simp only [nqPost]; split; · simp
  · split <;> split <;> simp
@[simp] theorem nqPost_tables (s : State) (q : Nat) (b : List NqBody) : (nqPost s q b).tables = s.tables := by
  simp only [nqPost]; split; · simp
  · split <;> split <;> simp
@[simp] theorem nqPost_range (s : State) (q : Nat) (b : List NqBody) : (nqPost s q b).range = s.range := by
  simp only [nqPost]; split; · simp
  · split <;> split <;> simp
@[simp] theorem nqPost_camp (s : State) (q : Nat) (b : List NqBody) : (nqPost s q b).camp = s.camp := by
  simp only [nqPost]; split; · simp
  · split <;> split <;> simp
@[simp] theorem nqPost_val (s : State) (q : Nat) (b : List NqBody) : (nqPost s q b).val = s.val := by
  simp only [nqPost]; split; · simp
  · split <;> split <;> simp
@[simp] theorem nqPost_cairn (s : State) (q : Nat) (b : List NqBody) : (nqPost s q b).cairn = s.cairn := by
  simp only [nqPost]; split; · simp
  · split <;> split <;> simp
@[simp] theorem nqPost_code (s : State) (q : Nat) (b : List NqBody) : (nqPost s q b).code = s.code := by
  simp only [nqPost]; split; · simp
  · split <;> split <;> simp
@[simp] theorem nqPost_sum (s : State) (q : Nat) (b : List NqBody) : (nqPost s q b).sum = s.sum := by
  simp only [nqPost]; split; · simp
  · split <;> split <;> simp
@[simp] theorem nqPost_key (s : State) (q : Nat) (b : List NqBody) : (nqPost s q b).key = s.key := by
  simp only [nqPost]; split; · simp
  · split <;> split <;> simp
@[simp] theorem nqPost_rope (s : State) (q : Nat) (b : List NqBody) : (nqPost s q b).rope = s.rope := by
  simp only [nqPost]; split; · simp
  · split <;> split <;> simp

@[simp] theorem notify_pending (s : State) (n : Nat) (r : LogRec) : (notify s n r).pending = s.pending := by
  simp only [notify]; split <;> simp
@[simp] theorem notify_timebase (s : State) (n : Nat) (r : LogRec) : (notify s n r).timebase = s.timebase := by
  simp only [notify]; split <;> simp
@[simp] theorem notify_free (s : State) (n : Nat) (r : LogRec) : (notify s n r).free = s.free := by
  simp only [notify]; split <;> simp
@[simp] theorem notify_fuse (s : State) (n : Nat) (r : LogRec) : (notify s n r).fuse = s.fuse := by
  simp only [notify]; split <;> simp
@[simp] theorem notify_pins (s : State) (n : Nat) (r : LogRec) : (notify s n r).pins = s.pins := by
  simp only [notify]; split <;> simp
@[simp] theorem notify_fab (s : State) (n : Nat) (r : LogRec) : (notify s n r).fab = s.fab := by
  simp only [notify]; split <;> simp
@[simp] theorem notify_seq (s : State) (n : Nat) (r : LogRec) : (notify s n r).seq = s.seq := by
  simp only [notify]; split <;> simp
@[simp] theorem notify_thm (s : State) (n : Nat) (r : LogRec) : (notify s n r).thm = s.thm := by
  simp only [notify]; split <;> simp
@[simp] theorem notify_start (s : State) (n : Nat) (r : LogRec) : (notify s n r).start = s.start := by
  simp only [notify]; split <;> simp
@[simp] theorem notify_ladder (s : State) (n : Nat) (r : LogRec) : (notify s n r).ladder = s.ladder := by
  simp only [notify]; split <;> simp
@[simp] theorem notify_plog (s : State) (n : Nat) (r : LogRec) : (notify s n r).plog = s.plog := by
  simp only [notify]; split <;> simp
@[simp] theorem notify_route (s : State) (n : Nat) (r : LogRec) : (notify s n r).route = s.route := by
  simp only [notify]; split <;> simp
@[simp] theorem notify_i3c (s : State) (n : Nat) (r : LogRec) : (notify s n r).i3c = s.i3c := by
  simp only [notify]; split <;> simp
@[simp] theorem notify_cmd (s : State) (n : Nat) (r : LogRec) : (notify s n r).cmd = s.cmd := by
  simp only [notify]; split <;> simp
@[simp] theorem notify_ids (s : State) (n : Nat) (r : LogRec) : (notify s n r).ids = s.ids := by
  simp only [notify]; split <;> simp
@[simp] theorem notify_port (s : State) (n : Nat) (r : LogRec) : (notify s n r).port = s.port := by
  simp only [notify]; split <;> simp
@[simp] theorem notify_conns (s : State) (n : Nat) (r : LogRec) : (notify s n r).conns = s.conns := by
  simp only [notify]; split <;> simp
@[simp] theorem notify_connGen (s : State) (n : Nat) (r : LogRec) : (notify s n r).connGen = s.connGen := by
  simp only [notify]; split <;> simp
@[simp] theorem notify_ops (s : State) (n : Nat) (r : LogRec) : (notify s n r).ops = s.ops := by
  simp only [notify]; split <;> simp
@[simp] theorem notify_tables (s : State) (n : Nat) (r : LogRec) : (notify s n r).tables = s.tables := by
  simp only [notify]; split <;> simp
@[simp] theorem notify_range (s : State) (n : Nat) (r : LogRec) : (notify s n r).range = s.range := by
  simp only [notify]; split <;> simp
@[simp] theorem notify_camp (s : State) (n : Nat) (r : LogRec) : (notify s n r).camp = s.camp := by
  simp only [notify]; split <;> simp
@[simp] theorem notify_val (s : State) (n : Nat) (r : LogRec) : (notify s n r).val = s.val := by
  simp only [notify]; split <;> simp
@[simp] theorem notify_cairn (s : State) (n : Nat) (r : LogRec) : (notify s n r).cairn = s.cairn := by
  simp only [notify]; split <;> simp
@[simp] theorem notify_code (s : State) (n : Nat) (r : LogRec) : (notify s n r).code = s.code := by
  simp only [notify]; split <;> simp
@[simp] theorem notify_sum (s : State) (n : Nat) (r : LogRec) : (notify s n r).sum = s.sum := by
  simp only [notify]; split <;> simp
@[simp] theorem notify_key (s : State) (n : Nat) (r : LogRec) : (notify s n r).key = s.key := by
  simp only [notify]; split <;> simp
@[simp] theorem notify_rope (s : State) (n : Nat) (r : LogRec) : (notify s n r).rope = s.rope := by
  simp only [notify]; split <;> simp

@[simp] theorem logEv_pending (s : State) (n : Nat) (e : Ev) (u : Nat) (d : List Nat) (p : Bool) : (logEv s n e u d p).pending = s.pending := by
  simp only [logEv]; split <;> split <;> simp
@[simp] theorem logEv_timebase (s : State) (n : Nat) (e : Ev) (u : Nat) (d : List Nat) (p : Bool) : (logEv s n e u d p).timebase = s.timebase := by
  simp only [logEv]; split <;> split <;> simp
@[simp] theorem logEv_free (s : State) (n : Nat) (e : Ev) (u : Nat) (d : List Nat) (p : Bool) : (logEv s n e u d p).free = s.free := by
  simp only [logEv]; split <;> split <;> simp
@[simp] theorem logEv_fuse (s : State) (n : Nat) (e : Ev) (u : Nat) (d : List Nat) (p : Bool) : (logEv s n e u d p).fuse = s.fuse := by
  simp only [logEv]; split <;> split <;> simp
@[simp] theorem logEv_pins (s : State) (n : Nat) (e : Ev) (u : Nat) (d : List Nat) (p : Bool) : (logEv s n e u d p).pins = s.pins := by
  simp only [logEv]; split <;> split <;> simp
@[simp] theorem logEv_fab (s : State) (n : Nat) (e : Ev) (u : Nat) (d : List Nat) (p : Bool) : (logEv s n e u d p).fab = s.fab := by
  simp only [logEv]; split <;> split <;> simp
@[simp] theorem logEv_seq (s : State) (n : Nat) (e : Ev) (u : Nat) (d : List Nat) (p : Bool) : (logEv s n e u d p).seq = s.seq := by
  simp only [logEv]; split <;> split <;> simp
@[simp] theorem logEv_thm (s : State) (n : Nat) (e : Ev) (u : Nat) (d : List Nat) (p : Bool) : (logEv s n e u d p).thm = s.thm := by
  simp only [logEv]; split <;> split <;> simp
@[simp] theorem logEv_start (s : State) (n : Nat) (e : Ev) (u : Nat) (d : List Nat) (p : Bool) : (logEv s n e u d p).start = s.start := by
  simp only [logEv]; split <;> split <;> simp
@[simp] theorem logEv_ladder (s : State) (n : Nat) (e : Ev) (u : Nat) (d : List Nat) (p : Bool) : (logEv s n e u d p).ladder = s.ladder := by
  simp only [logEv]; split <;> split <;> simp
@[simp] theorem logEv_route (s : State) (n : Nat) (e : Ev) (u : Nat) (d : List Nat) (p : Bool) : (logEv s n e u d p).route = s.route := by
  simp only [logEv]; split <;> split <;> simp
@[simp] theorem logEv_i3c (s : State) (n : Nat) (e : Ev) (u : Nat) (d : List Nat) (p : Bool) : (logEv s n e u d p).i3c = s.i3c := by
  simp only [logEv]; split <;> split <;> simp
@[simp] theorem logEv_cmd (s : State) (n : Nat) (e : Ev) (u : Nat) (d : List Nat) (p : Bool) : (logEv s n e u d p).cmd = s.cmd := by
  simp only [logEv]; split <;> split <;> simp
@[simp] theorem logEv_ids (s : State) (n : Nat) (e : Ev) (u : Nat) (d : List Nat) (p : Bool) : (logEv s n e u d p).ids = s.ids := by
  simp only [logEv]; split <;> split <;> simp
@[simp] theorem logEv_port (s : State) (n : Nat) (e : Ev) (u : Nat) (d : List Nat) (p : Bool) : (logEv s n e u d p).port = s.port := by
  simp only [logEv]; split <;> split <;> simp
@[simp] theorem logEv_conns (s : State) (n : Nat) (e : Ev) (u : Nat) (d : List Nat) (p : Bool) : (logEv s n e u d p).conns = s.conns := by
  simp only [logEv]; split <;> split <;> simp
@[simp] theorem logEv_connGen (s : State) (n : Nat) (e : Ev) (u : Nat) (d : List Nat) (p : Bool) : (logEv s n e u d p).connGen = s.connGen := by
  simp only [logEv]; split <;> split <;> simp
@[simp] theorem logEv_ops (s : State) (n : Nat) (e : Ev) (u : Nat) (d : List Nat) (p : Bool) : (logEv s n e u d p).ops = s.ops := by
  simp only [logEv]; split <;> split <;> simp
@[simp] theorem logEv_tables (s : State) (n : Nat) (e : Ev) (u : Nat) (d : List Nat) (p : Bool) : (logEv s n e u d p).tables = s.tables := by
  simp only [logEv]; split <;> split <;> simp
@[simp] theorem logEv_range (s : State) (n : Nat) (e : Ev) (u : Nat) (d : List Nat) (p : Bool) : (logEv s n e u d p).range = s.range := by
  simp only [logEv]; split <;> split <;> simp
@[simp] theorem logEv_camp (s : State) (n : Nat) (e : Ev) (u : Nat) (d : List Nat) (p : Bool) : (logEv s n e u d p).camp = s.camp := by
  simp only [logEv]; split <;> split <;> simp
@[simp] theorem logEv_val (s : State) (n : Nat) (e : Ev) (u : Nat) (d : List Nat) (p : Bool) : (logEv s n e u d p).val = s.val := by
  simp only [logEv]; split <;> split <;> simp
@[simp] theorem logEv_cairn (s : State) (n : Nat) (e : Ev) (u : Nat) (d : List Nat) (p : Bool) : (logEv s n e u d p).cairn = s.cairn := by
  simp only [logEv]; split <;> split <;> simp
@[simp] theorem logEv_code (s : State) (n : Nat) (e : Ev) (u : Nat) (d : List Nat) (p : Bool) : (logEv s n e u d p).code = s.code := by
  simp only [logEv]; split <;> split <;> simp
@[simp] theorem logEv_sum (s : State) (n : Nat) (e : Ev) (u : Nat) (d : List Nat) (p : Bool) : (logEv s n e u d p).sum = s.sum := by
  simp only [logEv]; split <;> split <;> simp
@[simp] theorem logEv_key (s : State) (n : Nat) (e : Ev) (u : Nat) (d : List Nat) (p : Bool) : (logEv s n e u d p).key = s.key := by
  simp only [logEv]; split <;> split <;> simp
@[simp] theorem logEv_rope (s : State) (n : Nat) (e : Ev) (u : Nat) (d : List Nat) (p : Bool) : (logEv s n e u d p).rope = s.rope := by
  simp only [logEv]; split <;> split <;> simp

@[simp] theorem pitchEv_pending (s : State) (n : Nat) (e : Ev) (d : List Nat) : (pitchEv s n e d).pending = s.pending := rfl
@[simp] theorem pitchEv_timebase (s : State) (n : Nat) (e : Ev) (d : List Nat) : (pitchEv s n e d).timebase = s.timebase := rfl
@[simp] theorem pitchEv_free (s : State) (n : Nat) (e : Ev) (d : List Nat) : (pitchEv s n e d).free = s.free := rfl
@[simp] theorem pitchEv_regs (s : State) (n : Nat) (e : Ev) (d : List Nat) : (pitchEv s n e d).regs = s.regs := rfl
@[simp] theorem pitchEv_fuse (s : State) (n : Nat) (e : Ev) (d : List Nat) : (pitchEv s n e d).fuse = s.fuse := rfl
@[simp] theorem pitchEv_pins (s : State) (n : Nat) (e : Ev) (d : List Nat) : (pitchEv s n e d).pins = s.pins := rfl
@[simp] theorem pitchEv_fab (s : State) (n : Nat) (e : Ev) (d : List Nat) : (pitchEv s n e d).fab = s.fab := rfl
@[simp] theorem pitchEv_seq (s : State) (n : Nat) (e : Ev) (d : List Nat) : (pitchEv s n e d).seq = s.seq := rfl
@[simp] theorem pitchEv_thm (s : State) (n : Nat) (e : Ev) (d : List Nat) : (pitchEv s n e d).thm = s.thm := rfl
@[simp] theorem pitchEv_start (s : State) (n : Nat) (e : Ev) (d : List Nat) : (pitchEv s n e d).start = s.start := rfl
@[simp] theorem pitchEv_ladder (s : State) (n : Nat) (e : Ev) (d : List Nat) : (pitchEv s n e d).ladder = s.ladder := rfl
@[simp] theorem pitchEv_log (s : State) (n : Nat) (e : Ev) (d : List Nat) : (pitchEv s n e d).log = s.log := rfl
@[simp] theorem pitchEv_nq (s : State) (n : Nat) (e : Ev) (d : List Nat) : (pitchEv s n e d).nq = s.nq := rfl
@[simp] theorem pitchEv_route (s : State) (n : Nat) (e : Ev) (d : List Nat) : (pitchEv s n e d).route = s.route := rfl
@[simp] theorem pitchEv_mgmt (s : State) (n : Nat) (e : Ev) (d : List Nat) : (pitchEv s n e d).mgmt = s.mgmt := rfl
@[simp] theorem pitchEv_i3c (s : State) (n : Nat) (e : Ev) (d : List Nat) : (pitchEv s n e d).i3c = s.i3c := rfl
@[simp] theorem pitchEv_cmd (s : State) (n : Nat) (e : Ev) (d : List Nat) : (pitchEv s n e d).cmd = s.cmd := rfl
@[simp] theorem pitchEv_ids (s : State) (n : Nat) (e : Ev) (d : List Nat) : (pitchEv s n e d).ids = s.ids := rfl
@[simp] theorem pitchEv_port (s : State) (n : Nat) (e : Ev) (d : List Nat) : (pitchEv s n e d).port = s.port := rfl
@[simp] theorem pitchEv_conns (s : State) (n : Nat) (e : Ev) (d : List Nat) : (pitchEv s n e d).conns = s.conns := rfl
@[simp] theorem pitchEv_connGen (s : State) (n : Nat) (e : Ev) (d : List Nat) : (pitchEv s n e d).connGen = s.connGen := rfl
@[simp] theorem pitchEv_ops (s : State) (n : Nat) (e : Ev) (d : List Nat) : (pitchEv s n e d).ops = s.ops := rfl
@[simp] theorem pitchEv_tables (s : State) (n : Nat) (e : Ev) (d : List Nat) : (pitchEv s n e d).tables = s.tables := rfl
@[simp] theorem pitchEv_range (s : State) (n : Nat) (e : Ev) (d : List Nat) : (pitchEv s n e d).range = s.range := rfl
@[simp] theorem pitchEv_camp (s : State) (n : Nat) (e : Ev) (d : List Nat) : (pitchEv s n e d).camp = s.camp := rfl
@[simp] theorem pitchEv_val (s : State) (n : Nat) (e : Ev) (d : List Nat) : (pitchEv s n e d).val = s.val := rfl
@[simp] theorem pitchEv_cairn (s : State) (n : Nat) (e : Ev) (d : List Nat) : (pitchEv s n e d).cairn = s.cairn := rfl
@[simp] theorem pitchEv_code (s : State) (n : Nat) (e : Ev) (d : List Nat) : (pitchEv s n e d).code = s.code := rfl
@[simp] theorem pitchEv_sum (s : State) (n : Nat) (e : Ev) (d : List Nat) : (pitchEv s n e d).sum = s.sum := rfl
@[simp] theorem pitchEv_key (s : State) (n : Nat) (e : Ev) (d : List Nat) : (pitchEv s n e d).key = s.key := rfl
@[simp] theorem pitchEv_rope (s : State) (n : Nat) (e : Ev) (d : List Nat) : (pitchEv s n e d).rope = s.rope := rfl

@[simp] theorem commit_pending (s t : State) : (commit s t).pending = s.pending := rfl
@[simp] theorem commit_fuse (s t : State) : (commit s t).fuse = fuseKeep s.fuse t.fuse := rfl
@[simp] theorem commit_mem (s t : State) : (commit s t).range.mem = memCanon t.range.mem := rfl
@[simp] theorem reach_timebase (s : State) (t : Nat) : (reach s t).timebase = max s.timebase t := rfl
@[simp] theorem useFree_free (s : State) : (useFree s).free = s.free + 1 := rfl

end Sys2Proof.Machine
end

