-- ==== Sys2Proof/Laws/Regs.lean ====
section
/-! SUPPORT. Reading register fields after writes. -/

namespace Sys2Proof.Machine

/-- A field that is written reads as the value cut to its width. -/
@[simp] theorem getF_setF_same (s : State) (f : Reg.Fld) (v : Nat) : getF (setF s f v) f = v % 2 ^ f.w := by
  unfold getF setF
  split
  · rename_i h; simp [← h]
  · simp

/-- A field's value fits its width. -/
theorem getF_lt (s : State) (f : Reg.Fld) : getF s f < 2 ^ f.w := Nat.mod_lt _ (Nat.two_pow_pos _)

/-- A write leaves every field at another place alone. -/
theorem getF_setF_ne (s : State) (f g : Reg.Fld) (v : Nat) (h : g.key ≠ f.key) : getF (setF s f v) g = getF s g := by
  unfold getF setF
  split <;> simp [tget_tdel_ne, tget_tset_ne, h]

/-- Reads depend on the register table alone. -/
theorem getF_of_regs {s t : State} (h : s.regs = t.regs) (f : Reg.Fld) : getF s f = getF t f := by simp [getF, h]

@[simp] theorem getF_commit (s t : State) (f : Reg.Fld) : getF (commit s t) f = getF t f := rfl

theorem getF_setB_same (s : State) (f : Reg.Fld) (b : Bool) : getF (setB s f b) f = (if b then 1 else 0) % 2 ^ f.w := by
  simp [setB]

theorem getF_setB_ne (s : State) (f g : Reg.Fld) (b : Bool) (h : g.key ≠ f.key) : getF (setB s f b) g = getF s g := by
  simp [setB, getF_setF_ne, h]

theorem getF_putF_ne (s : State) (f g : Reg.Fld) (n : Nat) (b : Bool) (h : g.key ≠ f.key) : getF (putF s f n b) g = getF s g := by
  simp [putF, getF_setF_ne, h]

@[simp] theorem getF_sendVector (s : State) (v : Nat) (f : Reg.Fld) : getF (sendVector s v) f = getF s f := by simp [getF]
@[simp] theorem getF_mbxVector (s : State) (f : Reg.Fld) : getF (mbxVector s) f = getF s f := by simp [getF]
@[simp] theorem getF_reach (s : State) (t : Nat) (f : Reg.Fld) : getF (reach s t) f = getF s f := rfl
@[simp] theorem getF_useFree (s : State) (f : Reg.Fld) : getF (useFree s) f = getF s f := rfl
@[simp] theorem getF_plogAdd (s : State) (n : Nat) (e : Ev) (d : List Nat) (l : Bool) (f : Reg.Fld) :
    getF (plogAdd s n e d l) f = getF s f := rfl
@[simp] theorem getF_pitchEv (s : State) (n : Nat) (e : Ev) (d : List Nat) (f : Reg.Fld) :
    getF (pitchEv s n e d) f = getF s f := rfl

/-! ## Recording an event touches the log's and the queues' own registers only -/

/-- A field that neither LOG_STATUS nor an NQ_STATUS holds. -/
def calm (f : Reg.Fld) : Bool := f.key / 64 % 4096 != 0x88 && f.key / 64 != 0x70000

theorem key_nqCount (q : Nat) : (Reg.nqStatusCount q).key = (0x40088 + 4096 * q) * 64 := by
  simp [Reg.Fld.key, Reg.FldD.at, Reg.nqStatusCountD]

theorem key_nqLost (q : Nat) : (Reg.nqStatusLost q).key = (0x40088 + 4096 * q) * 64 + 32 := by
  simp [Reg.Fld.key, Reg.FldD.at, Reg.nqStatusLostD]

theorem key_nqResets (q : Nat) : (Reg.nqStatusResets q).key = (0x40088 + 4096 * q) * 64 + 16 := by
  simp [Reg.Fld.key, Reg.FldD.at, Reg.nqStatusResetsD]

theorem calm_nq {f : Reg.Fld} (h : calm f = true) (q lo : Nat) (hl : lo < 64) : f.key ≠ (0x40088 + 4096 * q) * 64 + lo := by
  simp only [calm, Bool.and_eq_true, bne_iff_ne] at h; omega

theorem calm_log {f : Reg.Fld} (h : calm f = true) (lo : Nat) (hl : lo < 64) : f.key ≠ 0x70000 * 64 + lo := by
  simp only [calm, Bool.and_eq_true, bne_iff_ne] at h; omega

theorem getF_bumpF_ne (s : State) (f g : Reg.Fld) (k : Nat) (h : g.key ≠ f.key) : getF (bumpF s f k) g = getF s g := by
  simp [bumpF, getF_setF_ne, h]

theorem getF_setNq (s : State) (q : Nat) (n : Nq) {f : Reg.Fld} (h : calm f = true) : getF (setNq s q n) f = getF s f := by
  unfold setNq
  rw [getF_setF_ne _ _ _ _ (by rw [key_nqCount]; exact calm_nq h q 0 (by omega))]
  rfl

theorem getF_nqLost (s : State) (q k : Nat) {f : Reg.Fld} (h : calm f = true) :
    getF (bumpF s (Reg.nqStatusLost q) k) f = getF s f := getF_bumpF_ne _ _ _ _ (by rw [key_nqLost]; exact calm_nq h q 32 (by omega))

theorem getF_nqResets (s : State) (q k : Nat) {f : Reg.Fld} (h : calm f = true) :
    getF (bumpF s (Reg.nqStatusResets q) k) f = getF s f := getF_bumpF_ne _ _ _ _ (by rw [key_nqResets]; exact calm_nq h q 16 (by omega))

theorem getF_logDrop (s : State) {f : Reg.Fld} (h : calm f = true) : getF (logDrop s) f = getF s f := by
  have k : getF (bumpF s Reg.logStatusDropped) f = getF s f := getF_bumpF_ne _ _ _ _ (calm_log h 32 (by omega))
  simp only [logDrop]
  split
  · exact k
  · exact k

theorem getF_logPut (s : State) (n : Nat) (e : Ev) (u : Nat) (d : List Nat) (p : Bool) {f : Reg.Fld} (h : calm f = true) :
    getF (logPut s n e u d p).1 f = getF s f := by
  simp only [logPut]
  split
  · split <;> rfl
  · split
    · exact getF_logDrop s h
    · split
      · split
        · rfl
        · split
          · rfl
          · rw [getF_logDrop _ h, getF_setB_ne _ _ _ _ (calm_log h 17 (by omega))]; rfl
      · rfl

theorem getF_nqCheck (s : State) (q : Nat) {f : Reg.Fld} (h : calm f = true) : getF (nqCheck s q) f = getF s f := by
  simp only [nqCheck]
  split
  · rfl
  · split <;> simp only [getF_sendVector, getF_logPut _ _ _ _ _ _ h, getF_nqResets _ _ _ h, getF_nqLost _ _ _ h, getF_setNq _ _ _ h]

theorem getF_nqPost (s : State) (q : Nat) (b : List NqBody) {f : Reg.Fld} (h : calm f = true) :
    getF (nqPost s q b) f = getF s f := by
  simp only [nqPost]
  split
  · simp only [getF_sendVector, getF_nqLost _ _ _ h, getF_setNq _ _ _ h, getF_nqCheck _ _ h]
  · split <;> split <;> simp only [getF_sendVector, getF_nqLost _ _ _ h, getF_setNq _ _ _ h, getF_nqCheck _ _ h]

theorem getF_notify (s : State) (n : Nat) (r : LogRec) {f : Reg.Fld} (h : calm f = true) :
    getF (notify s n r) f = getF s f := by
  simp only [notify]; split
  · rfl
  · exact getF_nqPost _ _ _ h

/-- Recording an event changes no other register. -/
theorem getF_logEv (s : State) (n : Nat) (e : Ev) (u : Nat) (d : List Nat) (p : Bool) {f : Reg.Fld} (h : calm f = true) :
    getF (logEv s n e u d p) f = getF s f := by
  simp only [logEv]
  split <;> split <;> simp only [getF_notify _ _ _ h, getF_plogAdd, getF_logPut _ _ _ _ _ _ h]

end Sys2Proof.Machine
end

