-- ==== Sys2Proof/Machine/MediaBytes.lean ====
section
/-! DEFINITION. The bytes of the valley's structures (7), all little-endian (R214). -/

namespace Sys2Proof.Machine

/-- Codeword `c` of a page: 4,096 data bytes and 32 metadata bytes (Table 7-6). -/
def codeword (p : Page) (c : Nat) : Bytes × Bytes :=
  let data := memRead p.data (c * 4096) 4096
  let mask := ((List.range 64).filter fun i => p.poison.contains (c * 64 + i)).foldl (fun m i => m + 2 ^ i) 0
  let head := leBytes 8 p.seq ++ leBytes 5 (p.slab % 2 ^ 34) ++ [byte p.kind, byte (c + 4 * p.roped.toNat + 8 * p.sealed_.toNat), 0] ++
    leBytes 8 mask
  (data, head ++ leBytes 4 (crc32c (data ++ head)) ++ zeros 4)

/-- What a page read as: erased, a page of some kind, or torn (R214). `ones`: its four codewords read as all-ones; `page`: what
they decode to. -/
inductive PageState where
  | erased | programmed (p : Page) | torn
  deriving DecidableEq, Repr

def pageState (ones : Bool) (page : Option Page) : PageState :=
  match page with
  | some p => .programmed p
  | none => if ones then .erased else .torn

/-- A structure whose last four bytes are the CRC-32C of those before. -/
def withCrc (b : Bytes) : Bytes := b ++ leBytes 4 (crc32c b)

/-- The valley root record, 512 bytes (Table 7-7). -/
def rootBytes (r : Root) : Bytes :=
  let map : Nat := (r.failedDies.filter fun d => decide (d < 1024)).foldl (fun m d => putBit m d true) 0
  withCrc (bfit (leBytes 4 0x544F4F52 ++ leBytes 2 1 ++ zeros 2 ++ leBytes 8 r.seq ++ leBytes 8 r.identity ++ leBytes 8 r.dir ++
    leBytes 8 r.jrnlFirst ++ leBytes 4 r.jrnlBlocks ++ leBytes 4 (r.intentSet % 2) ++ leBytes 8 r.bivFirst ++ leBytes 4 r.bivBlocks ++
    leBytes 4 r.lastReplayed ++ leBytes 8 r.logFirst ++ [byte r.stop, 0, 0, 0] ++ leBytes 4 r.rangeGib ++ leBytes 4 r.budgetGib ++
    leBytes 8 r.tblFirst ++ leBytes 4 r.tblBlocks ++ leBytes 8 (r.imgSlot % 2 + r.imgSeq * 2) ++ zeros 24 ++ leBytes 128 map) 508)

/-- A journal record, 16 bytes (R216). -/
def jrecBytes : JRec → Bytes
  | .entry n e => leBytes 8 (durWord e) ++ leBytes 5 n ++ [1, 0, 0]
  | .image g b => leBytes 8 b ++ leBytes 5 g ++ [2, 0, 0]
  | .retired b => leBytes 8 b ++ zeros 5 ++ [3, 0, 0]
  | .dieFailed d => leBytes 8 d ++ zeros 5 ++ [4, 0, 0]

/-- A page of records behind a 64-byte header: magic, sequence, number of the first record, record count, CRC-32C over the page
(R216, R218). DESIGN CHOICE (log entry 136): the fields stand in the order in which the rules list them. -/
def ringPage (magic seq first count : Nat) (recs : Bytes) : Bytes :=
  let h := leBytes 4 magic ++ leBytes 8 seq ++ leBytes 8 first ++ leBytes 4 count
  h ++ leBytes 4 (crc32c (h ++ zeros 40 ++ recs)) ++ zeros 36 ++ recs

def jpageBytes (p : JPage) : Bytes := ringPage 0x4C4E524A p.seq p.first p.recs.length (p.recs.map jrecBytes).flatten

/-- The first 16 bytes of a table-log record (R218). -/
def trecHead (r : TRec) : Bytes :=
  leBytes 8 r.seq ++ [byte r.tbl, byte ((if r.del then 2 else 1) + 4 * min 15 (r.count - 1))] ++ leBytes 6 r.key

/-- An erase-intent record, 32 bytes (R219). -/
def intentBytes (i : Intent) : Bytes := withCrc (bfit (leBytes 8 i.block ++ leBytes 4 i.reason ++ leBytes 8 i.seq) 28)

/-- Header, index entry and trailer of a bivouac (Table 7-8). -/
def bivHeader (b : Bivouac) : Bytes :=
  withCrc (leBytes 4 0x43564942 ++ leBytes 8 b.seq ++ leBytes 8 b.identity ++ leBytes 8 b.stamp ++ leBytes 4 b.cycle ++ leBytes 4 b.cause ++
    leBytes 4 b.slabs.length ++ leBytes 4 b.budgetGib ++ leBytes 8 b.jrnl)
def bivEntry (x : BivSlab) : Nat :=
  x.slab % 2 ^ 34 + x.roped.toNat * 2 ^ 34 + x.sealed_.toNat * 2 ^ 35 + x.pois.toNat * 2 ^ 36
def bivTrailer (b : Bivouac) : Bytes :=
  let t := leBytes 4 0x43564942 ++ leBytes 8 b.seq ++ leBytes 4 (b.trailer.getD 0)
  t ++ leBytes 4 (crc32c (bivHeader b ++ t))

/-- A logbook page: a 64-byte header with the logical page, the page sequence, the first record's number and a CRC-32C, then 255
records (R221). -/
def logPageBytes (p : LogPage) : Bytes :=
  let h := leBytes 4 p.page ++ leBytes 8 p.seq ++ leBytes 8 p.first
  let recs := (p.recs.map recBytes).flatten
  h ++ leBytes 4 (crc32c (h ++ recs)) ++ zeros 40 ++ recs

end Sys2Proof.Machine
end

