-- ==== Sys2Proof/Machine/RopeBytes.lean ====
section
/-! DEFINITION. The bytes of the rope (11): the rope header of Table 11-3 and the order records of Tables 11-5 and 11-6, in network
order (R7). -/

namespace Sys2Proof.Machine

/-! ## Frames (Tables 11-3 and 11-4) -/

/-- Frame type and whether it is sequenced (Table 11-4). -/
def RopeBody.kind : RopeBody → Nat × Bool
  | .order _ => (0x1, true)
  | .confirm _ => (0x2, false)
  | .renew _ => (0x3, false)
  | .renewAck _ => (0x4, false)
  | .fillReq _ => (0x5, true)
  | .fillData .. => (0x6, true)
  | .fetchReq _ => (0x7, true)
  | .fetchData .. => (0x8, true)
  | .catchup .. => (0x9, true)
  | .hello _ | .control _ | .returnRequest => (0xA, true)
  | .ack => (0xB, false)

/-- The rope header: version 1, frame type, length of the content, rope sequence, ack sequence, team epoch (Table 11-3). -/
def ropeHeaderBytes (ty len seq ack epoch : Nat) : Bytes :=
  [1#8, byte ty] ++ beBytes 2 len ++ beBytes 4 seq ++ beBytes 4 ack ++ beBytes 4 epoch

/-! ## Order records (Tables 11-5 and 11-6) -/

/-- The command packet that follows a COMMAND record: header, parameters, and the numbers that the Lead assigned. DESIGN CHOICE (log
entry 140): the numbers follow the parameters, 8 bytes each. -/
def recordPacket (op tag who : Nat) (nums : List Nat) (body : Bytes) : Bytes :=
  let par := body ++ (nums.map (leBytes 8)).flatten
  leBytes 2 op ++ [0#8, 0#8] ++ leBytes 4 tag ++ leBytes 2 par.length ++ leBytes 2 who ++ zeros 20 ++ par

/-- Bytes 12 to 55 of a record, with its type, flags and operation. Where Table 11-6 names no places, the items stand from byte 16 on, 4
bytes each, the counts of 64 bits 8 bytes (DESIGN CHOICE, log entry 140). -/
def recordBody : OrderBody → Nat × Nat × Nat × Bytes
  | .operation apply wait single ty aop conn msn key addr status len digest result =>
    (0x01, apply.toNat + 2 * wait.toNat + 4 * single.toNat, ty * 16 + aop,
     beBytes 4 conn ++ beBytes 4 msn ++ beBytes 4 key ++ beBytes 6 addr ++ beBytes 2 status ++ beBytes 4 len ++ beBytes 4 digest ++
       bfit result 16)
  | .command op tag who nums body => (0x02, 2, 0, bfit (zeros 4 ++ beBytes 4 (recordPacket op tag who nums body).length) 44)
  | .topo t m => (0x03, 0, 0, bfit (zeros 4 ++ beBytes 4 t ++ beBytes 4 m) 44)
  | .chain q ev conn msn => (0x04, 0, 0, bfit (beBytes 4 conn ++ beBytes 4 q ++ beBytes 4 ev ++ beBytes 4 msn) 44)
  | .partMsg conn msn code qual detail isPush =>
    (0x05, 2, (if isPush then tyPush else tyEvent) * 16,
     bfit (beBytes 4 conn ++ beBytes 4 msn ++ zeros 20 ++ beBytes 2 code ++ beBytes 2 qual ++ beBytes 8 detail) 44)
  | .ivReserve conn limit => (0x06, 0, 0, bfit (beBytes 4 conn ++ beBytes 8 limit) 44)
  | .epochMark tb => (0x07, 0, 0, bfit (zeros 4 ++ beBytes 8 tb) 44)
  | .handover last => (0x08, 0, 0, bfit (zeros 4 ++ beBytes 8 last) 44)

/-- An order record, 64 bytes in network order (Table 11-5): type, flags, operation, order index, what its type holds, release mark. -/
def recordBytes (r : OrderRec) : Bytes :=
  let b := recordBody r.body
  [byte b.1, byte b.2.1, byte b.2.2.1, 0#8] ++ beBytes 8 r.idx ++ b.2.2.2 ++ beBytes 8 r.release

/-- A record with the command packet that follows a COMMAND record. -/
def recordWhole (r : OrderRec) : Bytes :=
  recordBytes r ++ (match r.body with | .command op tag who nums body => recordPacket op tag who nums body | _ => [])

/-- The content of a frame where the spec lays it out: order records, the applied index, the renewal sequence, nothing in ACK. -/
def ropeContent : RopeBody → Option Bytes
  | .order l => some (l.map recordWhole).flatten
  | .confirm i => some (beBytes 8 i)
  | .renew n | .renewAck n => some (beBytes 2 n)
  | .ack => some []
  | _ => none

/-- A rope frame after its EtherType: header and content; the sequence is 0 in an unsequenced frame. -/
def ropeFrameBytes (f : RopeFrame) : Option Bytes :=
  (ropeContent f.body).map fun d =>
    ropeHeaderBytes f.body.kind.1 d.length (if f.body.kind.2 then f.seq else 0) f.ack f.epoch ++ d

end Sys2Proof.Machine
end

