-- ==== Sys2Proof/Tests/Slice0.lean ====
section
/-! SUPPORT. Tests of the model: an ill-formed term for every check of WellFormed, small tests from the spec's own tables and
worked examples, and for each statement with hypotheses concrete states and operands that meet them (`witness_<Name>`, one
part for each of its clauses). -/

namespace Sys2Proof.Tests

open Sys2Proof.Machine

set_option maxRecDepth 20000
set_option Elab.async false
set_option linter.unreachableTactic false
set_option linter.unusedTactic false

/-! ## States of the tests -/

/-- The state after reset. -/
def r0 : State := State.reset

/-- A state with fields set. -/
def fld (l : List (Reg.Fld × Nat)) (s : State) : State := l.foldl (fun s x => setF s x.1 x.2) s

/-- The sequencer in a state, and the start at a stage. -/
def st (n : Nat) : State := fld [(Reg.seqStatusState, n)] r0
def stg (n : Nat) (s : State := r0) : State := fld [(Reg.fabStartStatusStage, n)] s

/-- In service. -/
def svc : State := stg 12 (st stService)

/-- The management link up, and a grant in force. -/
def win (s : State := r0) : State := { s with mgmt.linkUp := true }
def grant (l : Nat) : State := win (fld [(Reg.mbxGrantStatusLevel, l)] { r0 with mgmt.grantEnd := 10 })

/-- A ticket of the management principal by I3C, a state in which guide 1 runs, and one in which the ticket waits for it. -/
def tk (op : Nat) (par : Bytes := []) : Ticket :=
  { op := op, level := 3, mgmt := true, ident := 0, tag := 7, fresh := 0, par := par, chan := .i3c }
def gd (s : State) : State := setDom (if getF s Reg.fabStartStatusStage < 5 then stg 5 s else s) 11 true
def cmd (op : Nat) (par : Bytes := []) (s : State := r0) : State := { gd s with cmd.tickets := [(0, tk op par)] }

/-- A path, a connection in slot 2 (number 16386), and a state in service that has them. -/
def pth : PathSt := { sub := 0, src := 9, sport := 5, rxE := 3, txNext := 0 }
def cn (q : PathSt := pth) : Conn :=
  { gen := 1, ident := 5, hostNum := 7, unit := 4096, checks := 0, prio := 3, dscp := 0, nonce := [], saltIn := [],
    saltOut := [], winPk := 64, winBy := 65536, order := 1, paths := [(0, q)] }
def cst (c : Conn := cn) (s : State := svc) : State := { setSub s 0 subUp with conns := [(2, c)] }

/-- A packet of a type on that path. -/
def pk (ty : Nat) (n : Nat := 16386) : Pkt :=
  { sub := 0, src := 9, sport := 5, ty := ty, first := true, last := true, conn := n, psn := 3, msn := 1 }
def ctl (c : BitVec 8) (n : Nat := 16386) : Pkt := { pk 10 n with payload := [c] }

/-- A notification queue entry. -/
def qe : NqEntry := { num := 1, left := 0, body := .cont [] }

/-- A message, a work request's queue, a slab's entry and a page. -/
def msg0 : Msg := { first := pk tySend, mlen := 0 }
def qu (r : Option Run) (ring : Tab Bytes := []) : Queue :=
  { owner := 5, oconn := 16386, repeatMode := false, depth := 4, report := 0, run := r, ring := ring }
def sl (n : Nat) (x : Slab) (s : State := r0) : State := { s with range.slabs := [(n, x)] }
def pg (n : Nat) : Page := { kind := 0, slab := n }
def rn (l : List WrRun := []) : Run := { first := 0, fin := 0, next := 0, trig := ⟨16386, 1, []⟩, live := l }
def ob : Obj := { base := 0, len := 8192, owner := 5, cls := 1, mirror := 0 }
def rgn : Region := { key := 0, base := 0, len := 4096, obj := 0, rights := 0, group := 0, owner := 0, ownConn := 0, deadline := 1 }
def vms : Msg := { first := { pk 0 with exts := [⟨1, 5, 0, [0, 0, 0, 64]⟩] }, mlen := 0, region := some 3, parked := true }
def tpo : Topo := { owner := 5, look := 1, trail := 1, cmdOnly := false, loop := false, count := 3, marker := 2 }

/-- A twin of a role in a roped team, with both rope instances up. -/
def rp (role : Nat) : State :=
  { fld [(Reg.rlStatusRole, role), (Reg.rlStatusState, teamRoped)] svc with
    rope.inst := [(0, { up := true, lanes := 4 }), (1, { up := true, lanes := 4 })] }
def hd (seq : Nat := 0) (epoch : Nat := 0) : RopeHdr := { seq := seq, epoch := epoch }

/-- A command packet of the management principal, 32 bytes. -/
def cb (op level : Nat) (fresh : Nat := 0) (who : Nat := 0x1000) : Bytes :=
  leBytes 2 op ++ [BitVec.ofNat 8 (min level 1), BitVec.ofNat 8 level] ++ zeros 4 ++ zeros 2 ++ leBytes 2 who ++ zeros 4 ++
    leBytes 8 fresh ++ zeros 8
/-- A Second whose next record has a body. -/
def nx (b : OrderBody) : State := { rp roleSecond with rope.joined := true, rope.recs := [(1, ⟨1, 0, b⟩)] }
def idn : Ident := { mgmtNet := false, sessRoot := none, quota := 8, connectKey := [], cmdKey := none }
def rkey : Nat := 2 ^ 20 + 3
def kslot : KeySlot := { title := false, root := 1, label := [], limit := 20, auto := false, genMax := 4 }
def twin : Topo := { tpo with committed := true, marker := 0, steps := [(0, [(1, 49152, 64)]), (1, []), (2, [])] }
/-- A published sealed object, and an open one, with a region of each. -/
def unsl : State :=
  { r0 with
    tables.objects := [(1, { ob with mirror := mirPublished, st := .published, sealed_ := some ⟨0, 0, 0, 0, 4096, some 5⟩ }),
      (2, { ob with mirror := mirUnroped })],
    tables.regions := [(3, { rgn with key := rkey, obj := 1, len := 8192, rights := 16 }),
      (4, { rgn with key := rkey + 1, obj := 2, len := 8192, rights := 2 })] }
/-- Every segment of the range built, and a camp channel of a state with its DIMMs. -/
def bt (s : State) : State := fld [(Reg.campRangeStatusRebuildDone, 1)] s
def chn (x : CampCh := { spd := [{}, {}] }) (n : Nat := 2) : State :=
  fld [(Reg.campChStatusState 15, n)] { r0 with camp.ch := [(15, x)] }
def jp : JPage := { seq := 1, first := 1, recs := [] }
/-- A COPY of 64 bytes between two regions of an object, with a budget that has room. -/
def wcopy : Bytes :=
  [BitVec.ofNat 8 woCopy] ++ zeros 3 ++ leBytes 4 64 ++ leBytes 4 rkey ++ zeros 8 ++ leBytes 4 (rkey + 1) ++ leBytes 6 64 ++ zeros 34
def wst : State :=
  fld [(Reg.campRangeCfgBudgetGib, 1)] { svc with
    tables.queues := [(4095, qu (some rn) [(0, wcopy)])]
    tables.regions := [(3, { rgn with key := rkey, owner := 5, rights := 1 }), (4, { rgn with key := rkey + 1, owner := 5, rights := 2 })] }
def wout : State × ResvOut :=
  reserve (wrAdd wst 4095 0 { slot := 0, regions := [3, 4], value := 0, inv := (wrTarget wcopy rn.trig, 0) }) (.wr 4095 0)
    (wrDst wcopy) (wrLen wcopy)
/-- A channel with a rank that is forced to refresh, as a slot finds it. -/
def chrank : State := { chn with camp.rank := [(496, { force := true })] }
def chref : State :=
  let u := markThrottled (measure chrank) 31
  let q := subQ u 31
  dueRefresh (setSubQ u 31 { q with drain := decide (getF u Reg.campSchedCfgWqHigh ≤ q.wr.length) ||
    (q.drain && decide (getF u Reg.campSchedCfgWqLow < q.wr.length)) }) 496
def oneErr : List (Nat × Nat) :=
  match decodeWord ((7 :: zeros 79 : Bytes).map (·.toNat)) none with
  | .corrected e => e
  | _ => []
/-- A destage whose page failed, and the state in which its new place is picked. -/
def dfail : State :=
  { sl 3 { st := .destaging, target := some 7, wrote := false } with
    val.progs := [(7, .destage 3 (pg 3))], val.dies := [(0, { run := some (.prog 7) })], val.dev := some {}, val.ces := 1, val.perCe := 1 }
def dnext : State := retireBlock (progGone dfail 7) (vBlock dfail 7)

/-- A root blob for the part of serial number 0, as its wrap key seals it. -/
def blob : Bytes :=
  leBytes 4 0x4B425452 ++ [15, 1, 0, 0] ++ zeros 16 ++ zeros 12 ++ zeros 32 ++
    gcmTag (wrapKey 0) (zeros 12) (leBytes 4 0x4B425452 ++ [15, 1, 0, 0] ++ zeros 16) (zeros 32) ++ zeros 12

/-! ## Ill-formed operands -/

theorem test_wf_fabric :
    wellFormed (.fabVcoreReqWrite 0x1018 (zeros 4)) = false ∧
    wellFormed (.fabVcoreReqWrite 0x1010 (zeros 2)) = false ∧
    wellFormed (.fabVcoreReqWrite 0x1014 (zeros 8)) = false ∧
    wellFormed (.avsStepAck 4096) = false ∧
    wellFormed (.avsReadback 4096) = false ∧
    wellFormed (.stallWdogSample [(128, 0)]) = false ∧
    wellFormed (.pdIdleGate 128) = false ∧
    wellFormed (.pdWake 128) = false ∧
    wellFormed (.pdPowerUpGrant 128) = false ∧
    wellFormed (.hostLaneLoss 8 0 false) = false ∧
    wellFormed (.hostLaneLoss 0 8 false) = false ∧
    wellFormed (.subportLinkUp 32) = false ∧
    wellFormed (.frameTransmit 34) = false := by decide +kernel

theorem test_wf_requests :
    wellFormed (.readReq { sub := 32, ty := 0 }) = false ∧
    wellFormed (.readReq { ty := 1 }) = false ∧
    wellFormed (.writeReq { sub := 32, ty := 1 }) = false ∧
    wellFormed (.writeReq { ty := 2 }) = false ∧
    wellFormed (.writepReq { sub := 32, ty := 2, mlen := 64 }) = false ∧
    wellFormed (.writepReq { ty := 1, mlen := 64 }) = false ∧
    wellFormed (.writepReq { ty := 2 }) = false ∧
    wellFormed (.flush { sub := 32, ty := 2 }) = false ∧
    wellFormed (.flush { ty := 3 }) = false ∧
    wellFormed (.flush { ty := 2, mlen := 64 }) = false ∧
    wellFormed (.cas64 { sub := 32, ty := 3 }) = false ∧
    wellFormed (.cas64 { ty := 4 }) = false ∧
    wellFormed (.cas64 { ty := 3, exts := [⟨2, 5, 0x200, []⟩] }) = false ∧
    wellFormed (.cas64 { ty := 3, exts := [⟨2, 9, 0x300, []⟩] }) = false ∧
    wellFormed (.fadd64 { sub := 32, ty := 3, exts := [⟨2, 5, 0x200, []⟩] }) = false ∧
    wellFormed (.fadd64 { ty := 4, exts := [⟨2, 5, 0x200, []⟩] }) = false ∧
    wellFormed (.fadd64 { ty := 3 }) = false ∧
    wellFormed (.cas128 { sub := 32, ty := 3, exts := [⟨2, 9, 0x300, []⟩] }) = false ∧
    wellFormed (.cas128 { ty := 4, exts := [⟨2, 9, 0x300, []⟩] }) = false ∧
    wellFormed (.cas128 { ty := 3 }) = false ∧
    wellFormed (.send { sub := 32, ty := 4 }) = false ∧
    wellFormed (.send { ty := 5 }) = false ∧
    wellFormed (.send { ty := 4, exts := [⟨3, 1, 7, []⟩] }) = false ∧
    wellFormed (.triggeredSend { sub := 32, ty := 4, exts := [⟨3, 1, 7, []⟩] }) = false ∧
    wellFormed (.triggeredSend { ty := 3, exts := [⟨3, 1, 7, []⟩] }) = false ∧
    wellFormed (.triggeredSend { ty := 4 }) = false ∧
    wellFormed (.ack { sub := 32, ty := 7 }) = false ∧
    wellFormed (.ack { ty := 8 }) = false ∧
    wellFormed (.nak { sub := 32, ty := 8 }) = false ∧
    wellFormed (.nak { ty := 7 }) = false ∧
    wellFormed (.mgmt { sub := 32, ty := 10, mgmt := true }) = false ∧
    wellFormed (.mgmt { ty := 4, mgmt := true }) = false ∧
    wellFormed (.mgmt { ty := 10 }) = false ∧
    wellFormed (.ackDelayExpiry (2 ^ 24) 0) = false ∧
    wellFormed (.ackDelayExpiry 0 4) = false := by decide +kernel

theorem test_wf_connections :
    wellFormed (.connect { sub := 32, ty := 10, payload := [1] }) = false ∧
    wellFormed (.connect { ty := 4, payload := [1] }) = false ∧
    wellFormed (.connect { ty := 10, mgmt := true, payload := [1] }) = false ∧
    wellFormed (.connect { ty := 10, payload := [9] }) = false ∧
    wellFormed (.pathOpen { sub := 32, ty := 10, payload := [4] }) = false ∧
    wellFormed (.pathOpen { ty := 4, payload := [4] }) = false ∧
    wellFormed (.pathOpen { ty := 10, mgmt := true, payload := [4] }) = false ∧
    wellFormed (.pathOpen { ty := 10, payload := [9] }) = false ∧
    wellFormed (.close { sub := 32, ty := 10, payload := [6] }) = false ∧
    wellFormed (.close { ty := 4, payload := [6] }) = false ∧
    wellFormed (.close { ty := 10, mgmt := true, payload := [6] }) = false ∧
    wellFormed (.close { ty := 10, payload := [9] }) = false ∧
    wellFormed (.closed { sub := 32, ty := 10, payload := [7] }) = false ∧
    wellFormed (.closed { ty := 4, payload := [7] }) = false ∧
    wellFormed (.closed { ty := 10, mgmt := true, payload := [7] }) = false ∧
    wellFormed (.closed { ty := 10, payload := [9] }) = false ∧
    wellFormed (.closeDrainEnd (2 ^ 24)) = false ∧
    wellFormed (.controlResend (2 ^ 24)) = false ∧
    wellFormed (.retransmitTimerExpiry (2 ^ 24) 0) = false ∧
    wellFormed (.retransmitTimerExpiry 0 4) = false ∧
    wellFormed (.connNumberFree (2 ^ 24)) = false ∧
    wellFormed (.completionRepeat (2 ^ 24)) = false ∧
    wellFormed (.rnrWaitExpiry (2 ^ 24) 0) = false ∧
    wellFormed (.rnrWaitExpiry 0 4) = false ∧
    wellFormed (.msnRangeWaitExpiry (2 ^ 24) 0) = false ∧
    wellFormed (.msnRangeWaitExpiry 0 4) = false ∧
    wellFormed (.zeroWindowProbe (2 ^ 24)) = false ∧
    wellFormed (.windowRestore (2 ^ 24)) = false ∧
    wellFormed (.pfcFrame 32 0 0) = false ∧
    wellFormed (.pfcFrame 0 8 0) = false ∧
    wellFormed (.pfcFrame 0 0 65536) = false ∧
    wellFormed (.pfcPauseExpiry 32 0) = false ∧
    wellFormed (.pfcPauseExpiry 0 8) = false ∧
    wellFormed (.pfcRefreshTimer 32 0) = false ∧
    wellFormed (.pfcRefreshTimer 0 8) = false ∧
    wellFormed (.control { inst := 2 } .depart) = false ∧
    wellFormed (.leadPathTimeout (2 ^ 24)) = false := by decide +kernel

theorem test_wf_work :
    wellFormed (.workRequestStart 4096) = false ∧
    wellFormed (.workRequestComplete 4096 0) = false ∧
    wellFormed (.workRequestComplete 0 4096) = false ∧
    wellFormed (.workRequestFail 4096 0 .storage) = false ∧
    wellFormed (.workRequestFail 0 4096 .storage) = false ∧
    wellFormed (.promotionUnitFilled (2 ^ 34) []) = false ∧
    wellFormed (.promotionUnitFilled 0 [64]) = false ∧
    wellFormed (.valleyDirectTimer (2 ^ 24) 0) = false ∧
    wellFormed (.valleyDirectTimer 0 (2 ^ 32)) = false ∧
    wellFormed (.moverJobStart 64) = false ∧
    wellFormed (.moverUnitDone 64) = false ∧
    wellFormed (.destageProgramDone (2 ^ 34)) = false ∧
    wellFormed (.destageProgramFail (2 ^ 34)) = false ∧
    wellFormed (.walkerEvict 256) = false ∧
    wellFormed (.segmentRebuildDone 196608) = false ∧
    wellFormed (.markerLogTimer 1024) = false := by decide +kernel

theorem test_wf_camp :
    wellFormed (.ddrCommandIssue 16 0) = false ∧
    wellFormed (.ddrCommandIssue 0 2) = false ∧
    wellFormed (.campReadDone (2 ^ 43) (zeros 80) .demand) = false ∧
    wellFormed (.campReadDone 32 (zeros 80) .demand) = false ∧
    wellFormed (.campReadDone 0 (zeros 79) .demand) = false ∧
    wellFormed (.refreshInterval 16 0) = false ∧
    wellFormed (.refreshInterval 0 16) = false ∧
    wellFormed (.mr4Poll 16 0 false) = false ∧
    wellFormed (.mr4Poll 0 16 false) = false ∧
    wellFormed (.dimmTempPoll 16 0 0) = false ∧
    wellFormed (.dimmTempPoll 0 2 0) = false ∧
    wellFormed (.dimmTempPoll 0 0 256) = false ∧
    wellFormed (.rfgToken 16384 0) = false ∧
    wellFormed (.rfgToken 0 5) = false ∧
    wellFormed (.rfgHoldExpiry 16384 0) = false ∧
    wellFormed (.rfgHoldExpiry 0 5) = false ∧
    wellFormed (.campTrainStageDone 16 (.t1 [])) = false ∧
    wellFormed (.dqsoscRead 16 0 0) = false ∧
    wellFormed (.dqsoscRead 0 16 0) = false ∧
    wellFormed (.centringEscalation 16 0) = false ∧
    wellFormed (.centringEscalation 0 16) = false ∧
    wellFormed (.frameMoveDone (2 ^ 34)) = false := by decide +kernel

theorem test_wf_valley :
    wellFormed (.valleyReadDone (2 ^ 34) 0 .l0 0) = false ∧
    wellFormed (.valleyReadDone 0 4 .l0 0) = false ∧
    wellFormed (.valleyProgramDone (2 ^ 34) false 0) = false ∧
    wellFormed (.nandResetTimeout 1024) = false ∧
    wellFormed (.valleyEraseDone (2 ^ 34) false 0) = false ∧
    wellFormed (.programWaitExpiry 1024) = false ∧
    wellFormed (.verifyPassRead (.tlc (2 ^ 34)) .l0 0) = false ∧
    wellFormed (.verifyPassRead (.slc (2 ^ 34) 0) .l0 0) = false ∧
    wellFormed (.csProgram 0 (zeros 255) 0) = false ∧
    wellFormed (.csVerify 0 0 (zeros 47) []) = false ∧
    wellFormed (.csBankVerify 2 {}) = false := by decide +kernel

theorem test_wf_stores :
    wellFormed (.lineRepairDone (2 ^ 42) (default : Option Bytes)) = false ∧
    wellFormed (.scrubStep (zeros 64)) = false ∧
    wellFormed (.summitFillDone (2 ^ 42)) = false ∧
    wellFormed (.dirtyEvictAdmitted (2 ^ 42)) = false ∧
    wellFormed (.lockWaysWrite 0x90008 (zeros 4)) = false ∧
    wellFormed (.lockWaysWrite 0x90000 (zeros 2)) = false ∧
    wellFormed (.lockWaysWrite 0x90004 (zeros 8)) = false ∧
    wellFormed (.keyDerivationDone 4096) = false ∧
    wellFormed (.rootReunwrap 16) = false ∧
    wellFormed (.knownAnswerTest false 32 false) = false := by decide +kernel

theorem test_wf_rope :
    wellFormed (.order { inst := 2 } []) = false ∧
    wellFormed (.order {} (List.replicate 141 ⟨1, 0, .topo 0 0⟩)) = false ∧
    wellFormed (.confirm { inst := 2 } 0) = false ∧
    wellFormed (.confirm {} (2 ^ 64)) = false ∧
    wellFormed (.renew (.rope {}) 65536) = false ∧
    wellFormed (.renewAck (.rope {}) 65536) = false ∧
    wellFormed (.fillReq { inst := 2 } []) = false ∧
    wellFormed (.fillData { inst := 2 } 0 0 []) = false ∧
    wellFormed (.fetchReq { inst := 2 } {}) = false ∧
    wellFormed (.fetchData { inst := 2 } {} .notHeld) = false ∧
    wellFormed (.repairTimeout (2 ^ 34)) = false ∧
    wellFormed (.catchup { inst := 2 } 0 (zeros 16384) [] 0) = false ∧
    wellFormed (.catchup {} (2 ^ 34) (zeros 16384) [] 0) = false ∧
    wellFormed (.catchup {} 0 (zeros 16383) [] 0) = false ∧
    wellFormed (.returnRequest { inst := 2 }) = false ∧
    wellFormed (.ropeAck { inst := 2 }) = false ∧
    wellFormed (.ropeRetransmitTimer 2) = false ∧
    wellFormed (.ropeInstanceDown 2) = false ∧
    wellFormed (.ropeInstanceUp 2) = false ∧
    wellFormed (.ropeLaneLoss 2 0 false) = false ∧
    wellFormed (.ropeLaneLoss 0 8 false) = false := by decide +kernel

theorem test_wf_power :
    wellFormed (.psPgRise 24) = false ∧
    wellFormed (.dwellEnd 24) = false ∧
    wellFormed (.pgTimeout 24) = false ∧
    wellFormed (.psPgFall 24) = false ∧
    wellFormed (.pgLoss 24) = false ∧
    wellFormed (.monitorReading 32 0) = false ∧
    wellFormed (.monitorReading 0 1001) = false ∧
    wellFormed (.dischargeEnd 24 false) = false ∧
    wellFormed (.thermalScan []) = false ∧
    wellFormed (.guideHang 32) = false ∧
    wellFormed (.autoThaw 40) = false := by decide +kernel

theorem test_wf_window :
    wellFormed (.entdaa 128) = false ∧
    wellFormed (.setdasa 128 0) = false ∧
    wellFormed (.setdasa 0 128) = false ∧
    wellFormed (.nqPop 16 false) = false ∧
    wellFormed (.nqPeek 16 false) = false ∧
    wellFormed (.rcRead (2 ^ 26) 0) = false ∧
    wellFormed (.cvuCtxWrite 0x80000 []) = false ∧
    wellFormed (.cvuCtxWrite 0x80038 []) = false ∧
    wellFormed (.registerWrite (2 ^ 26) []) = false ∧
    wellFormed (.ingressFrameDrop 8 .twoTags) = false := by decide +kernel


/-! ## Small tests, from the spec's tables and worked examples -/

/-- "123456789" in ASCII. -/
def ascii : Bytes := [0x31, 0x32, 0x33, 0x34, 0x35, 0x36, 0x37, 0x38, 0x39]

/-- Table 10-7, column "Check". -/
theorem test_crc_32c : crcOf 1 ascii = 0xE3069283 := by decide +kernel
theorem test_crc_64_ecma : crcOf 2 ascii = 0x6C40DF5F0B497347 := by decide +kernel
theorem test_crc_64_xz : crcOf 3 ascii = 0x995DC9BBDF1939FA := by decide +kernel
theorem test_crc_32_iso : crcOf 4 ascii = 0xCBF43926 := by decide +kernel
theorem test_crc_16 : crcOf 5 ascii = 0x29B1 := by decide +kernel
theorem test_crc_8 : crcOf 6 ascii = 0xF4 := by decide +kernel

/-! Known answers of Table 0-6's functions: FIPS 197 example C.3; NIST SP 800-38B AES-256 example 1; the GCM specification's test
case 13; FIPS 180-4's "abc"; RFC 4231 test case 2. -/
theorem test_aes : aesBlock ((List.range 32).map (BitVec.ofNat 8)) ((List.range 16).map fun i => BitVec.ofNat 8 (17 * i)) =
    beBytes 16 0x8EA2B7CA516745BFEAFC49904B496089 := by decide +kernel
theorem test_cmac : cmac (beBytes 32 0x603DEB1015CA71BE2B73AEF0857D77811F352C073B6108D72D9810A30914DFF4) [] =
    beBytes 16 0x028962F61B7BF89EFC6B551F4667D983 := by decide +kernel
theorem test_gcm : gcmTag (zeros 32) (zeros 12) [] [] = beBytes 16 0x530F8AFBC74536B9A963B4F1C4CB738B := by decide +kernel
theorem test_sha384 : (sha384 [0x61, 0x62, 0x63]).take 16 = beBytes 16 0xCB00753F45A35E8BB5A03D699AC65007 := by decide +kernel
theorem test_hmac : (hmac [0x4A, 0x65, 0x66, 0x65] (beBytes 28 0x7768617420646F2079612077616E7420666F72206E6F7468696E673F)).take 16 =
    beBytes 16 0x5BDCC146BF60754E6A042426089575C7 := by decide +kernel

/-- The worked example after R166: CPA 0x0A4B_3EC0 with x4 RDIMMs and two rank bits. -/
theorem test_cpa_map : cpaMap false 2 0x0A4B3EC0 = { ch := 12, sub := 1, rank := 0, bg := 1, ba := 2, row := 5, col := 1648 } := by
  decide +kernel

/-- The worked example after R262: 20 MiB, 12 MiB and 7 MiB need 4, 2 and 2 ways. -/
theorem test_ways_needed : waysNeeded (20 * 2 ^ 20) = 4 ∧ waysNeeded (12 * 2 ^ 20) = 2 ∧ waysNeeded (7 * 2 ^ 20) = 2 := by
  decide

/-- The worked example of chapter 4: key 0x00300A17 is generation 3, index 0x00A17. -/
theorem test_region_key : keyGen 0x00300A17 = 3 ∧ keyIdx 0x00300A17 = 0xA17 := by decide

/-- The worked example of chapter 18, order 2: REQ = 16 under a grant at level 1. -/
theorem test_vcore_write : (match execFabVcoreReqWrite 0x1010 (leBytes 4 16) (grant 1) with
    | .next t => getF t Reg.fabVcoreReq == 16 && getF t Reg.fabVcoreTarget == 16
    | _ => false) = true := by decide +kernel

/-- Order 3: CAMP_RANGE_CFG needs custodian level; DENIED counts 1. -/
theorem test_denied : (match execRegisterWrite 0xA0000 (zeros 8) (grant 1) with
    | .next t => getF t Reg.mbxGrantStatusDenied == 1 && getF t Reg.campRangeCfgRangeGib == getF r0 Reg.campRangeCfgRangeGib
    | _ => false) = true := by decide +kernel

/-- Orders 1, 4 and 5: a freshness value is accepted once; the next one is accepted. -/
theorem test_fresh_once : (freshTake r0 4097 1).isSome = true ∧ ((freshTake r0 4097 1).bind (freshTake · 4097 1)) = none ∧
    ((freshTake r0 4097 1).bind (freshTake · 4097 2)).isSome = true := by decide +kernel

/-- Table 2-1's request codes: a step of the regulator moves two codes, 10 mV (R27). -/
theorem test_avs_steps : (match execAvsStepAck 760 { r0 with fab.avsSent := some 28 } with
    | .next t => getF t Reg.fabVcoreReadbackMv == 760
    | _ => false) = true := by decide +kernel

/-- A word of zeros is a code word, and the poison pattern is not clean (R230, R231). -/
theorem test_word_clean : decodeWord (List.replicate 80 0) none = .clean := by decide +kernel
theorem test_word_one_symbol : decodeWord (7 :: List.replicate 79 0) none ≠ .clean := by decide +kernel

/-- The block idles on an empty queue but for the tick of the model (log entry 6), and takes its front command first. -/
theorem test_step_front : (match step { r0 with pending := [.vinGood, .rstdaa] } with
    | .next t => t.pending == [.rstdaa]
    | _ => false) = true := by decide +kernel

/-- A command of an operand that no unit bears is refused by a fault. -/
theorem test_no_such_unit : (match step { r0 with pending := [.psPgRise 24] } with | .fault .noSuchUnit => true | _ => false) = true := by
  decide +kernel

/-- An unlisted byte of the range reads 0, and a written one reads back; writing 0 takes it out again. -/
theorem test_memory : memGet [] 5 = 0 ∧ memGet (memPut [] 5 [7]) 5 = 7 ∧ memPut (memPut [] 5 [7]) 5 [0] = [] := by decide

/-! ## Lemmas for the witnesses -/

theorem pickPlace_some (s : State) (v : Nat)
    (h : firstPlace s (placeOk s) 0 (32 * diesPerCh s * (dieBlocks s * ppb s)) = some v) : ∃ k, pickPlace s = some k := by
  unfold pickPlace
  dsimp only
  split
  · exact ⟨_, rfl⟩
  · split
    · exact ⟨_, rfl⟩
    · split
      · exact ⟨_, rfl⟩
      · exact ⟨v, h⟩

theorem placementFits_plain (s : State) (n cls f len : Nat) (h : 1 < cls) : placementFits s n cls f len = true := by
  simp [placementFits, h]

theorem unwrapRoot_tagged : unwrapRoot (cmd 0x0401 blob) blob =
    some (15, { kind := 1, id := 0, key := some (gcmXor (wrapKey 0) (zeros 12) 0 (zeros 32)) }) := by
  unfold unwrapRoot gcmOpen
  have h : bsub blob 68 16 = gcmTag (wrapKey (partSerial (cmd 0x0401 blob))) (bsub blob 24 12) (bsub blob 0 24)
      (bsub blob 36 32) := rfl
  rw [if_pos ⟨rfl, by decide, by decide, by decide, by decide, by decide⟩, if_pos h]
  rfl

theorem tpick_some {α : Type} (t : Tab α) (b w : Nat) (h : t = []) (hb : 0 < b) : ∃ n, tpick t 0 b w = some n := by
  subst h
  unfold tpick
  split
  · exact ⟨_, rfl⟩
  · exact ⟨0, by simp [tfree, thas, tget, hb]⟩

theorem newRegionKey_some (s : State) (h : s.tables.regions = []) : ∃ k, newRegionKey s = some k := by
  obtain ⟨n, hn⟩ := tpick_some s.tables.regions 1048576 (freeVal s) h (by decide)
  exact ⟨_, by rw [newRegionKey, hn]; rfl⟩

/-! ## Witnesses -/

theorem witness_QueueOrder :
    (∃ (s : State) (t : State), (step s = .next t)) ∧
    (∃ (s : State), (s.pending = []) ∧ (seqState s ≠ stStopping) ∧ ((∀ x ∈ s.ladder.fns, x.2.until_ = none))) :=
  ⟨⟨r0, commit r0 { r0 with timebase := 1 }, by first | rfl | decide +kernel | exact ⟨rfl, rfl, rfl, rfl, by decide +kernel, by decide +kernel⟩ | exact ⟨rfl, by decide, rfl, rfl, rfl, rfl, rfl, rfl, rfl⟩ | nofun⟩,
    ⟨r0, by decide +kernel⟩⟩

theorem witness_EveryCommandSettles :
    (∃ (c : Instr) (_s : State), (wellFormed c = true)) ∧
    (∃ (c : Instr) (_s : State), (wellFormed c = false)) :=
  ⟨⟨.vinGood, r0, by decide +kernel⟩,
    ⟨.psPgRise 24, r0, by decide +kernel⟩⟩

theorem witness_RangeFormKept :
    ∃ (s : State) (t : State), (s.memOk) ∧ (step s = .next t) :=
  ⟨r0, commit r0 { r0 with timebase := 1 }, by refine ⟨?_, ?_⟩ <;> (first | rfl | decide +kernel | exact ⟨rfl, rfl, rfl, rfl, by decide +kernel, by decide +kernel⟩ | exact ⟨rfl, by decide, rfl, rfl, rfl, rfl, rfl, rfl, rfl⟩ | nofun)⟩

theorem witness_FusesOnlyRise :
    ∃ (n : Nat) (s : State) (t : State), (Sys2Proof.core.run n s = .next t) :=
  ⟨0, r0, r0, by first | rfl | decide +kernel | exact ⟨rfl, rfl, rfl, rfl, by decide +kernel, by decide +kernel⟩ | exact ⟨rfl, by decide, rfl, rfl, rfl, rfl, rfl, rfl, rfl⟩ | nofun⟩

theorem witness_ResetState :
    (∃ (d : Reg.FldD), (d ∈ Reg.allFields)) ∧
    (∃ (d : Reg.FldD), (d ∈ Reg.allFields) ∧ (d.resetIsIndex = true)) :=
  ⟨⟨Reg.allFields.head (by decide), List.head_mem _⟩,
    ⟨(Reg.allFields.filter (·.resetIsIndex)).head (by decide +kernel),
      (List.mem_filter.mp (List.head_mem _)).1, (List.mem_filter.mp (List.head_mem _)).2⟩⟩

theorem witness_VcoreRequest :
    (∃ (s : State) (v : Nat), (s.mgmt.linkUp = true) ∧ (s.timebase < s.mgmt.grantEnd) ∧ (1 ≤ getF s Reg.mbxGrantStatusLevel) ∧ (getF s Reg.fabVcoreReq ≤ 46) ∧ (v < 256)) ∧
    (∃ (s : State) (t : Nat) (r : Nat) (tk : Ticket), (Waits s t 0x0603 tk) ∧ (tk.chan = .i3c) ∧ (46 < r)) ∧
    (∃ (s : State) (n : Nat) (mv : Nat), (s.fab.avsSent = some n) ∧ (mv < 4096) ∧ (620 + 5 * n ≤ mv + 10) ∧ (mv ≤ 620 + 5 * n + 10)) :=
  ⟨⟨grant 1, 255, by decide +kernel⟩,
    ⟨cmd 0x0603, 0, 47, tk 0x0603, by unfold Waits; decide +kernel⟩,
    ⟨{ r0 with fab.avsSent := some 26 }, 26, 750, by decide +kernel⟩⟩

theorem witness_WatchdogThreshold :
    (∃ (s : State) (v : Nat), (s.mgmt.linkUp = true) ∧ (s.timebase < s.mgmt.grantEnd) ∧ (1 ≤ getF s Reg.mbxGrantStatusLevel) ∧ (1 ≤ v) ∧ (v < 256) ∧ (getF s Reg.fabWdogThresh ≤ 4)) ∧
    (∃ (s : State) (d : Nat) (c : Nat), (0 < d) ∧ (d < 128) ∧ (c < 4096) ∧ (domOn s d = true) ∧ (tcnt s.fab.stuck (d + 128 * c) + 1 < getF s Reg.fabWdogThresh)) ∧
    (∃ (s : State) (d : Nat) (c : Nat), (0 < d) ∧ (d < 128) ∧ (c < 4096) ∧ (domOn s d = true) ∧ (getF s Reg.fabWdogThresh ≤ tcnt s.fab.stuck (d + 128 * c) + 1)) :=
  ⟨⟨grant 1, 5, by decide +kernel⟩,
    ⟨setDom r0 1 true, 1, 0, by decide +kernel⟩,
    ⟨{ setDom r0 1 true with fab.stuck := [(1, 3)] }, 1, 0, by decide +kernel⟩⟩

theorem witness_FabricClocksAndDomains :
    (∃ (s : State) (v : Nat), (s.mgmt.linkUp = true) ∧ (s.timebase < s.mgmt.grantEnd) ∧ (1 ≤ getF s Reg.mbxGrantStatusLevel) ∧ (v ≤ 46) ∧ (isSet s Reg.fabVcoreAvsFault = false)) ∧
    (∃ (s : State) (n : Nat) (mv : Nat), (s.fab.avsSent = some n) ∧ (mv < 4096) ∧ (620 + 5 * n ≤ mv + 10) ∧ (mv ≤ 620 + 5 * n + 10)) ∧
    (∃ (s : State) (n : Nat), (s.fab.avsSent = some n) ∧ (s.fab.avsTries < 3)) ∧
    (∃ (s : State) (n : Nat), (s.fab.avsSent = some n) ∧ (3 ≤ s.fab.avsTries)) ∧
    (∃ (_s : State) (mv : Nat), (600 ≤ mv) ∧ (mv ≤ 880)) ∧
    (∃ (s : State), (s.fab.refOk = true) ∧ (hasSecond s = false)) ∧
    (∃ (s : State), (s.fab.refOk = true) ∧ (hasSecond s = true)) ∧
    (∃ (_s : State) (mv : Nat), (wfAvsReadback mv = true) ∧ ((mv < 600 ∨ 880 < mv))) ∧
    (∃ (s : State) (d : Nat), (90 ≤ d) ∧ (d ≤ 109) ∧ (getF s Reg.fabPdIdleTime ≠ 0) ∧ (domOn s d = true) ∧ (domBusy s d = false)) ∧
    (∃ (s : State) (d : Nat), (90 ≤ d) ∧ (d ≤ 109) ∧ (domOn s d = false) ∧ ((ladFn s (fnKey 8 d)).held = false) ∧ ((recentUps s).length < 4) ∧ ((∀ e ∈ s.fab.wakeQ, d ≤ e))) ∧
    (∃ (s : State) (d : Nat), (90 ≤ d) ∧ (d ≤ 109) ∧ (domOn s d = false) ∧ ((ladFn s (fnKey 8 d)).held = false) ∧ (d ∉ s.fab.wakeQ) ∧ (4 ≤ (recentUps s).length)) ∧
    (∃ (s : State) (d : Nat) (q : List Nat), (90 ≤ d) ∧ (d ≤ 109) ∧ (s.fab.wakeQ = d :: q) ∧ ((∀ e ∈ q, d ≤ e)) ∧ ((recentUps s).length < 4)) :=
  ⟨⟨grant 1, 46, by decide +kernel⟩,
    ⟨{ r0 with fab.avsSent := some 28 }, 28, 760, by decide +kernel⟩,
    ⟨{ r0 with fab.avsSent := some 28 }, 28, by decide +kernel⟩,
    ⟨{ r0 with fab.avsSent := some 28, fab.avsTries := 3 }, 28, by decide +kernel⟩,
    ⟨r0, 600, by decide +kernel⟩,
    ⟨r0, by decide +kernel⟩,
    ⟨rp roleLead, by decide +kernel⟩,
    ⟨r0, 599, by decide +kernel⟩,
    ⟨fld [(Reg.fabPdIdleTime, 1)] (setDom r0 90 true), 90, by decide +kernel⟩,
    ⟨r0, 109, by decide +kernel⟩,
    ⟨{ r0 with fab.ups := [0, 0, 0, 0] }, 109, by decide +kernel⟩,
    ⟨{ r0 with fab.wakeQ := [91, 92] }, 91, [92], by decide +kernel⟩⟩

theorem witness_Rails :
    (∃ (s : State) (g : Nat) (t : Nat), (s.seq.group = some g) ∧ (s.seq.delayEnd = some t) ∧ (earlierInDwell s g = true)) ∧
    (∃ (s : State) (g : Nat) (r : Nat), (r < 24) ∧ (s.seq.group = some g) ∧ (railOn s r = true) ∧ (isSet s (Reg.seqRailPgUsed r) = true) ∧ (r ∉ s.seq.good) ∧ (thas s.seq.dwell r = false)) ∧
    (∃ (s : State) (r : Nat), (r < 24) ∧ (s.seq.group = none) ∧ (railOn s r = true) ∧ (railPg s r = true) ∧ (isSet s (Reg.seqRailPgUsed r) = true)) ∧
    (∃ (s : State) (r : Nat) (b : Nat), (r < 24) ∧ (tget s.seq.dwell r = some b) ∧ (monInside s r = true) ∧ (s.seq.group = none)) ∧
    (∃ (s : State) (r : Nat) (b : Nat) (g : Nat), (r < 24) ∧ (s.seq.enabledAt = some b) ∧ (s.seq.group = some g) ∧ (railOn s r = true) ∧ (r ∉ s.seq.good)) ∧
    (∃ (s : State) (r : Nat) (b : Nat), (r < 24) ∧ (tget s.seq.fell r = some b)) ∧
    (∃ (s : State) (r : Nat) (c : Nat), (r < 24) ∧ (0 < c) ∧ (c < 8) ∧ (getF s Reg.seqFaultFaultMap = 0) ∧ (seqState s = stOff)) ∧
    (∃ (s : State) (c : Nat) (pin : Nat), (wfMonitorReading c pin = true) ∧ (isSet s (Reg.seqMonEn c) = true) ∧ (monRails s c = []) ∧ (tget s.seq.monOut c = none)) :=
  ⟨⟨{ r0 with seq.group := some 0, seq.delayEnd := some 5 }, 0, 5, by decide +kernel⟩,
    ⟨putF (fld [(Reg.seqRailPgUsed 3, 1)] { r0 with seq.group := some 0 }) Reg.seqStatusRailsOn 3 true, 0, 3, by decide +kernel⟩,
    ⟨putF (putF (fld [(Reg.seqRailPgUsed 3, 1)] r0) Reg.seqStatusRailsOn 3 true) Reg.seqStatusPgState 3 true, 3, by decide +kernel⟩,
    ⟨{ r0 with seq.dwell := [(2, 7)] }, 2, 7, by decide +kernel⟩,
    ⟨putF { r0 with seq.group := some 0, seq.enabledAt := some 4 } Reg.seqStatusRailsOn 23 true, 23, 4, 0, by decide +kernel⟩,
    ⟨{ r0 with seq.fell := [(1, 9)] }, 1, 9, by decide +kernel⟩,
    ⟨r0, 23, 7, by decide +kernel⟩,
    ⟨fld [(Reg.seqMonEn 31, 1), (Reg.seqMonScaleQ4 31, 16)] r0, 31, 100, by decide +kernel⟩⟩

theorem witness_StoppingAndHoldUp :
    (∃ (s : State) (g : Nat), (s.seq.graceEnd = some g) ∧ (seqState s = stStopping)) ∧
    (∃ (s : State) (r : Nat) (a : Nat) (d : Nat), (r < 24) ∧ (a ≠ r) ∧ (s.seq.down = some d) ∧ (s.seq.pace = false) ∧ (s.seq.discharging = [r, a]) ∧ (discharged s r = true)) ∧
    (∃ (s : State) (r : Nat) (d : Nat), (r < 24) ∧ (s.seq.down = some d) ∧ (s.seq.pace = false) ∧ (s.seq.discharging = [r]) ∧ (discharged s r = true)) ∧
    (∃ (s : State) (r : Nat) (d : Nat), (r < 24) ∧ (s.seq.down = some d) ∧ (s.seq.pace = false) ∧ (s.seq.discharging = [r]) ∧ (discharged s r = false)) ∧
    (∃ (s : State) (d : Nat) (t : Nat), (s.seq.down = some d) ∧ (s.seq.delayEnd = some t) ∧ (s.seq.pace = true)) ∧
    (∃ (s : State), (seqState s = stBivouac)) ∧
    (∃ (s : State), (seqState s = stBivouac) ∧ (s.seq.bivStep < 5)) ∧
    (∃ (s : State), (isSet s Reg.seqStatusHoldupOk = true) ∧ (serviceOpen s = true) ∧ (seqState s = stService) ∧ (budgetGib s ≠ 0)) ∧
    (∃ (s : State), (getF s Reg.fabStartStatusStage = 9) ∧ (getF s Reg.fabStartStatusWait = 3)) :=
  ⟨⟨{ st stStopping with seq.graceEnd := some 8 }, 8, by decide +kernel⟩,
    ⟨{ r0 with seq.down := some 0, seq.discharging := [1, 2] }, 1, 2, 0, by decide +kernel⟩,
    ⟨{ r0 with seq.down := some 0, seq.discharging := [1] }, 1, 0, by decide +kernel⟩,
    ⟨putF (fld [(Reg.seqRailPgUsed 1, 1)] { r0 with seq.down := some 0, seq.discharging := [1] }) Reg.seqStatusPgState 1 true, 1, 0, by decide +kernel⟩,
    ⟨{ r0 with seq.down := some 0, seq.delayEnd := some 6, seq.pace := true }, 0, 6, by decide +kernel⟩,
    ⟨st stBivouac, by decide +kernel⟩,
    ⟨{ st stBivouac with seq.bivStep := 1 }, by decide +kernel⟩,
    ⟨fld [(Reg.seqStatusHoldupOk, 1), (Reg.campRangeCfgBudgetGib, 32)] svc, by decide +kernel⟩,
    ⟨fld [(Reg.fabStartStatusWait, 3)] (stg 9), by decide +kernel⟩⟩

theorem witness_InputCollapse :
    (∃ (s : State), ((seqState s = stService ∨ seqState s = stStopping))) ∧
    (∃ (s : State), ((seqState s = stStarting ∨ seqState s = stTest ∨ seqState s = stRecovery ∨ seqState s = stReplay))) ∧
    (∃ (s : State), ((seqState s = stOff ∨ seqState s = stBivouac ∨ seqState s = stDown))) ∧
    (∃ (s : State) (g : Nat), (s.seq.down = none) ∧ (topGroup s = some g)) :=
  ⟨⟨svc, by decide +kernel⟩,
    ⟨st stReplay, by decide +kernel⟩,
    ⟨st stDown, by decide +kernel⟩,
    ⟨putF r0 Reg.seqStatusRailsOn 0 true, 0, by decide +kernel⟩⟩

theorem witness_PressActions :
    (∃ (s : State), (s.seq.btnDown = none)) ∧
    (∃ (s : State) (b : Nat), (s.seq.btnDown = some b) ∧ (seqState s = stService)) ∧
    (∃ (s : State) (b : Nat), (s.seq.btnDown = some b) ∧ (seqState s = stOff) ∧ (isSet s Reg.seqCfgBtnOn = true)) ∧
    (∃ (s : State) (b : Nat), (s.seq.btnDown = some b) ∧ (seqState s ≠ stService) ∧ ((seqState s = stOff → isSet s Reg.seqCfgBtnOn = false))) ∧
    (∃ (s : State) (b : Nat), (s.seq.btnDown = some b) ∧ ((seqState s = stService ∨ seqState s = stStopping))) ∧
    (∃ (s : State) (b : Nat), (s.seq.btnDown = some b) ∧ ((seqState s = stStarting ∨ seqState s = stTest ∨ seqState s = stRecovery ∨ seqState s = stReplay))) ∧
    (∃ (s : State) (b : Nat), (s.seq.btnDown = some b) ∧ (seqState s = stOff)) ∧
    (∃ (s : State), (s.seq.stayOff = true) ∧ (s.seq.startPending = false) ∧ (s.seq.restartAt = none)) :=
  ⟨⟨r0, by decide +kernel⟩,
    ⟨{ svc with seq.btnDown := some 5 }, 5, by decide +kernel⟩,
    ⟨{ r0 with seq.btnDown := some 5 }, 5, by decide +kernel⟩,
    ⟨{ st stBivouac with seq.btnDown := some 5 }, 5, by decide +kernel⟩,
    ⟨{ st stStopping with seq.btnDown := some 5 }, 5, by decide +kernel⟩,
    ⟨{ st stReplay with seq.btnDown := some 5 }, 5, by decide +kernel⟩,
    ⟨{ r0 with seq.btnDown := some 5 }, 5, by decide +kernel⟩,
    ⟨{ r0 with seq.stayOff := true }, by decide +kernel⟩⟩

theorem witness_ManualReset :
    (∃ (s : State), ((seqState s = stService ∨ seqState s = stStarting ∨ seqState s = stRecovery ∨ seqState s = stReplay ∨ seqState s = stTest)) ∧ (4 ≤ getF s Reg.fabStartStatusStage)) ∧
    (∃ (s : State), ((seqState s = stBivouac ∨ seqState s = stStopping ∨ seqState s = stDown))) ∧
    (∃ (s : State) (_i : StageInfo), (s.start.inReset = true) ∧ (4 ≤ stage s)) :=
  ⟨⟨svc, by decide +kernel⟩,
    ⟨st stBivouac, by decide +kernel⟩,
    ⟨{ stg 5 with start.inReset := true }, .s5, by decide +kernel⟩⟩

theorem witness_AlwaysOnAndRestart :
    (∃ (s : State), (s.seq.startPending = true) ∧ (getF s Reg.fabStartStatusStage ≠ 1)) ∧
    (∃ (s : State), (role s = roleLead) ∧ (s.rope.departAt ≠ some s.timebase)) ∧
    (∃ (s : State), (s.rope.departAt = some s.timebase)) ∧
    (∃ (s : State) (b : Nat), (s.seq.restartAt = some b)) :=
  ⟨⟨{ stg 2 with seq.startPending := true }, by decide +kernel⟩,
    ⟨rp roleLead, by decide +kernel⟩,
    ⟨{ rp roleLead with rope.departAt := some 0 }, by decide +kernel⟩,
    ⟨{ r0 with seq.restartAt := some 3 }, 3, by decide +kernel⟩⟩

theorem witness_Thermal :
    (∃ (s : State) (v : Int), (-400 ≤ v) ∧ (v ≤ 1500) ∧ (getF s Reg.thmBrokenMap = 0) ∧ (v < warnClear s) ∧ (v < slowClear s) ∧ (v < restartLevel s) ∧ (v < tripAt s) ∧ (v < critAt s) ∧ (s.thm.odd = []) ∧ (getF s Reg.thmStatusSuspect = 0) ∧ (isSet s Reg.thmStatusWarn = false) ∧ (isSet s Reg.thmStatusRequested = false) ∧ (isSet s Reg.thmStatusEnforced = false)) ∧
    (∃ (s : State) (g : Nat), (s.thm.graceEnd = some g) ∧ (anyZone s (slowClear s) = true)) ∧
    (∃ (s : State) (b : Nat), (s.thm.stepAt = some b) ∧ (ceilingWay s = some false)) ∧
    (∃ (_s : State) (l : List (Option Int)), (wfThermalScan l = true)) ∧
    (∃ (s : State) (b : Nat), (s.thm.stepAt = some b) ∧ (ceilingWay s = some true)) ∧
    (∃ (s : State) (b : Nat), (s.thm.coolSince = some b) ∧ (s.thm.shut = false)) ∧
    (∃ (s : State) (b : Nat), (s.thm.coolSince = some b) ∧ (s.thm.shut = true) ∧ (isSet s Reg.thmCfgAutoRestart = false)) :=
  ⟨⟨r0, 250, by decide +kernel⟩,
    ⟨{ r0 with thm.graceEnd := some 4, thm.rd := (List.range 48).map fun i => (i, 1010) }, 4, by decide +kernel⟩,
    ⟨fld [(Reg.thmStatusEnforced, 1)] { r0 with thm.stepAt := some 4, thm.rd := (List.range 48).map fun i => (i, 1010) }, 4, by decide +kernel⟩,
    ⟨r0, List.replicate 48 none, by decide +kernel⟩,
    ⟨fld [(Reg.fabVcoreCeil, 20)] { r0 with thm.stepAt := some 4, thm.rd := (List.range 48).map fun i => (i, 300) }, 4, by decide +kernel⟩,
    ⟨{ r0 with thm.coolSince := some 0 }, 0, by decide +kernel⟩,
    ⟨{ r0 with thm.coolSince := some 0, thm.shut := true }, 0, by decide +kernel⟩⟩

theorem witness_StartStages :
    (∃ (s : State), (stage s = 1) ∧ (s.seq.startPending = false)) ∧
    (∃ (s : State), (stage s = 2) ∧ (seqState s = stStarting) ∧ (railsUp s = true)) ∧
    (∃ (s : State), (stage s = 3) ∧ (seqState s = stStarting) ∧ (s.start.inReset = false)) ∧
    (∃ (s : State), (stage s = 3) ∧ (seqState s = stStarting) ∧ (s.fab.refOk = true)) ∧
    (∃ (s : State), (stage s = 6) ∧ (seqState s = stStarting) ∧ (s.start.inReset = false) ∧ (s.start.halted = false) ∧ ((∀ c ∈ s.camp.liveMap, chState s c = 2))) ∧
    (∃ (s : State), (stage s = 10) ∧ (seqState s = stStarting) ∧ (s.start.inReset = false) ∧ (s.start.halted = false) ∧ (team s = teamRoped) ∧ (role s = roleLead)) ∧
    (∃ (s : State) (i : StageInfo) (a : _) (b : _), (4 ≤ infoStage i) ∧ (stage s = infoStage i) ∧ (s.start.inReset = false) ∧ (s.start.halted = false) ∧ ((seqState s = stStarting ∨ seqState s = stRecovery ∨ seqState s = stReplay)) ∧ (i = .s4 a b)) ∧
    (∃ (s : State) (i : StageInfo), (4 ≤ infoStage i) ∧ (stage s = infoStage i) ∧ (s.start.inReset = false) ∧ (s.start.halted = false) ∧ ((seqState s = stStarting ∨ seqState s = stRecovery ∨ seqState s = stReplay)) ∧ (i = .s5)) ∧
    (∃ (s : State) (i : StageInfo) (a : _) (b : _) (c : _), (4 ≤ infoStage i) ∧ (stage s = infoStage i) ∧ (s.start.inReset = false) ∧ (s.start.halted = false) ∧ ((seqState s = stStarting ∨ seqState s = stRecovery ∨ seqState s = stReplay)) ∧ (i = .s7 a b c)) ∧
    (∃ (s : State) (i : StageInfo), (4 ≤ infoStage i) ∧ (stage s = infoStage i) ∧ (s.start.inReset = false) ∧ (s.start.halted = false) ∧ ((seqState s = stStarting ∨ seqState s = stRecovery ∨ seqState s = stReplay)) ∧ (i = .s8)) ∧
    (∃ (s : State) (i : StageInfo), (4 ≤ infoStage i) ∧ (stage s = infoStage i) ∧ (s.start.inReset = false) ∧ (s.start.halted = false) ∧ ((seqState s = stStarting ∨ seqState s = stRecovery ∨ seqState s = stReplay)) ∧ (i = .s9)) ∧
    (∃ (s : State) (i : StageInfo), (4 ≤ infoStage i) ∧ (stage s = infoStage i) ∧ (s.start.inReset = false) ∧ (s.start.halted = false) ∧ ((seqState s = stStarting ∨ seqState s = stRecovery ∨ seqState s = stReplay)) ∧ (i = .s11)) ∧
    (∃ (s : State) (b : Nat), (s.fab.sdSince = some b) ∧ (stage s = 3) ∧ (getF s Reg.fabStartStatusWait = 1)) :=
  ⟨⟨stg 1, by decide +kernel⟩,
    ⟨{ fld [(Reg.seqRailOrder 0, 0)] (stg 2 (st stStarting)) with seq.good := List.range 24 }, by decide +kernel⟩,
    ⟨stg 3 (st stStarting), by decide +kernel⟩,
    ⟨stg 3 (st stStarting), by decide +kernel⟩,
    ⟨{ stg 6 (st stStarting) with camp.liveMap := [] }, by decide +kernel⟩,
    ⟨fld [(Reg.rlStatusState, teamRoped), (Reg.rlStatusRole, roleLead)] (stg 10 (st stStarting)), by decide +kernel⟩,
    ⟨stg 4 (st stStarting), .s4 none none, none, none, by decide +kernel⟩,
    ⟨stg 5 (st stStarting), .s5, by decide +kernel⟩,
    ⟨stg 7 (st stStarting), .s7 [] [] [], [], [], [], by decide +kernel⟩,
    ⟨stg 8 (st stStarting), .s8, by decide +kernel⟩,
    ⟨stg 9 (st stReplay), .s9, by decide +kernel⟩,
    ⟨stg 11 (st stRecovery), .s11, by decide +kernel⟩,
    ⟨fld [(Reg.fabStartStatusWait, 1)] { stg 3 with fab.sdSince := some 2 }, 2, by decide +kernel⟩⟩

theorem witness_LadderRows :
    (∃ (s : State) (g : Nat), (g < 32) ∧ (5 ≤ stage s) ∧ (domOn s (10 + g) = true)) ∧
    (∃ (s : State) (_i : Nat), (s.ladder.wait = 0) ∧ (serviceOpen s = false) ∧ (s.ladder.run = 3) ∧ (isSet s Reg.fabLadderCfgAutoCycle = false)) ∧
    (∃ (_s : State) (c : Nat) (_i : Nat), (c ≠ 0)) ∧
    (∃ (s : State), (s.fab.sdOk = true) ∧ (hasSecond s = false)) ∧
    (∃ (s : State) (_i : Nat), (s.ladder.wait = 0) ∧ (serviceOpen s = false) ∧ (s.ladder.run = 4)) ∧
    (∃ (s : State) (_i : Nat), (s.ladder.wait ≠ 0)) ∧
    (∃ (s : State), (s.fab.sdOk = true) ∧ (hasSecond s = true)) ∧
    (∃ (s : State), (s.fab.sdOk = false) ∧ (5 ≤ stage s)) ∧
    (∃ (s : State), (s.fab.sdOk = false) ∧ (stage s < 5)) :=
  ⟨⟨setDom (stg 12) 41 true, 31, by decide +kernel⟩,
    ⟨fld [(Reg.fabLadderCfgAutoCycle, 0)] { r0 with ladder.run := 3 }, 0, by decide +kernel⟩,
    ⟨r0, 1, 0, by decide +kernel⟩,
    ⟨r0, by decide +kernel⟩,
    ⟨{ r0 with ladder.run := 4 }, 0, by decide +kernel⟩,
    ⟨{ r0 with ladder.wait := 3 }, 0, by decide +kernel⟩,
    ⟨rp roleLead, by decide +kernel⟩,
    ⟨stg 5 { r0 with fab.sdOk := false }, by decide +kernel⟩,
    ⟨{ r0 with fab.sdOk := false }, by decide +kernel⟩⟩

theorem witness_I3cTarget :
    (∃ (s : State) (a : Nat), (wfEntdaa a = true) ∧ (domOn s 124 = true) ∧ (s.i3c.addr = none)) ∧
    (∃ (s : State) (a : Nat), (wfSetdasa 0x2A a = true) ∧ (domOn s 124 = true) ∧ (s.i3c.addr = none)) ∧
    (∃ (s : State), (domOn s 124 = true)) ∧
    (∃ (s : State), (domOn s 124 = true)) ∧
    (∃ (s : State), (domOn s 124 = true)) ∧
    (∃ (s : State) (last : Bool) (r : Reply) (rest : List (Bool × Reply)), (domOn s 124 = true) ∧ (s.i3c.addr.isSome = true) ∧ (s.i3c.replies = (last, r) :: rest)) ∧
    (∃ (s : State), (domOn s 124 = true) ∧ (s.i3c.addr.isSome = true)) ∧
    (∃ (s : State), (domOn s 124 = false)) ∧
    (∃ (s : State) (_d : Bytes), (domOn s 124 = true) ∧ (s.i3c.addr.isSome = true) ∧ (s.i3c.busy = false)) ∧
    (∃ (s : State) (_d : Bytes), (domOn s 124 = true) ∧ (s.i3c.addr.isSome = true) ∧ (s.i3c.busy = true)) :=
  ⟨⟨setDom r0 124 true, 127, by decide +kernel⟩,
    ⟨setDom r0 124 true, 127, by decide +kernel⟩,
    ⟨{ setDom r0 124 true with i3c.addr := some 9 }, by decide +kernel⟩,
    ⟨{ setDom r0 124 true with i3c.addr := some 9 }, by decide +kernel⟩,
    ⟨{ setDom r0 124 true with i3c.addr := some 9 }, by decide +kernel⟩,
    ⟨{ setDom r0 124 true with i3c.addr := some 9, i3c.replies := [(true, { status := 0, op := 1, tag := 2 })] }, true, { status := 0, op := 1, tag := 2 }, [], by decide +kernel⟩,
    ⟨{ setDom r0 124 true with i3c.addr := some 9 }, by decide +kernel⟩,
    ⟨r0, by decide +kernel⟩,
    ⟨{ setDom r0 124 true with i3c.addr := some 9 }, [1], by decide +kernel⟩,
    ⟨{ setDom r0 124 true with i3c.addr := some 9, i3c.busy := true }, [1], by decide +kernel⟩⟩

theorem witness_TestPortAndMarks :
    (∃ (s : State), (seqState s = stService)) ∧
    (∃ (s : State) (_off : Nat) (_d : Bytes), (s.pins.factory = false)) ∧
    (∃ (s : State) (_off : Nat) (_d : Bytes), (s.seq.locked = true)) ∧
    (∃ (s : State) (n : Nat) (_v : Nat), (n < 24) ∧ (s.pins.factory = true) ∧ (s.seq.locked = false)) ∧
    (∃ (s : State), (s.log.loaded = true) ∧ (isSet s Reg.logStatusFull = false) ∧ (s.log.sinceMark = true) ∧ (s.log.recs.length < 65535) ∧ ((∀ r, s.log.recs.getLast? = some r → r.ev ≠ .timeMark))) :=
  ⟨⟨svc, by decide +kernel⟩,
    ⟨r0, 0, [], by decide +kernel⟩,
    ⟨{ r0 with seq.locked := true }, 0, [], by decide +kernel⟩,
    ⟨{ r0 with pins.factory := true }, 23, 5, by decide +kernel⟩,
    ⟨{ r0 with log.loaded := true, log.sinceMark := true }, by decide +kernel⟩⟩

theorem witness_MailboxAndEndpoint :
    (∃ (s : State) (n : Nat), (n < 8) ∧ (s.mgmt.linkUp = true) ∧ (getF s (slotFld n) = 0)) ∧
    (∃ (s : State) (n : Nat), (n < 8) ∧ (s.mgmt.linkUp = true) ∧ (getF s (slotFld n) ≠ 0)) ∧
    (∃ (s : State) (n : Nat), (n < 8) ∧ (s.mgmt.linkUp = true) ∧ (getF s (slotFld n) = 3)) ∧
    (∃ (s : State) (n : Nat), (n < 8) ∧ (s.mgmt.linkUp = true) ∧ (getF s (slotFld n) ≠ 3)) ∧
    (∃ (s : State) (_b : BitVec 8), (s.mgmt.linkUp = true)) ∧
    (∃ (s : State), (s.mgmt.linkUp = true) ∧ (s.mgmt.busMaster = false) ∧ (getF s Reg.mbxIntStatusSlot = 0) ∧ ((∀ q, q < 16 → (nqOf s q).ents = []))) ∧
    (∃ (s : State), (s.mgmt.linkUp = true)) ∧
    (∃ (s : State), (s.pins.perstN = true)) ∧
    (∃ (s : State), (s.pins.perstN = false) ∧ (domOn s 124 = true) ∧ (s.start.inReset = false)) :=
  ⟨⟨win, 7, by decide +kernel⟩,
    ⟨setF win (slotFld 7) 1, 7, by decide +kernel⟩,
    ⟨setF win (slotFld 7) 3, 7, by decide +kernel⟩,
    ⟨win, 7, by decide +kernel⟩,
    ⟨win, 5, by decide +kernel⟩,
    ⟨win, by decide +kernel⟩,
    ⟨win, by decide +kernel⟩,
    ⟨r0, by decide +kernel⟩,
    ⟨{ setDom r0 124 true with pins.perstN := false }, by decide +kernel⟩⟩

theorem witness_WriteGrant :
    (∃ (s : State) (b : Bytes), (s.mgmt.linkUp = true) ∧ (b = bfit s.mgmt.grantReq 64) ∧ ((le b 0 1 = 0 ∨ 3 < le b 0 1 ∨ le b 2 2 = 0 ∨ 3600 < le b 2 2 ∨ notZero b 1 2 ++ notZero b 4 8 ++ notZero b 48 64 ≠ []))) ∧
    (∃ (s : State) (b : Bytes), (s.mgmt.linkUp = true) ∧ (b = bfit s.mgmt.grantReq 64) ∧ (1 ≤ le b 0 1) ∧ (le b 0 1 ≤ 3) ∧ (1 ≤ le b 2 2) ∧ (le b 2 2 ≤ 3600) ∧ (notZero b 1 2 ++ notZero b 4 8 ++ notZero b 48 64 = []) ∧ (keyFor s true 0 (le b 0 1) = none)) ∧
    (∃ (s : State) (k : Bytes) (b : Bytes), (s.mgmt.linkUp = true) ∧ (b = bfit s.mgmt.grantReq 64) ∧ (1 ≤ le b 0 1) ∧ (le b 0 1 ≤ 3) ∧ (1 ≤ le b 2 2) ∧ (le b 2 2 ≤ 3600) ∧ (notZero b 1 2 ++ notZero b 4 8 ++ notZero b 48 64 = []) ∧ (keyFor s true 0 (le b 0 1) = some k) ∧ (hmac k (b.take 16) ≠ bsub b 16 32)) ∧
    (∃ (s : State) (k : Bytes) (b : Bytes), (s.mgmt.linkUp = true) ∧ (b = bfit s.mgmt.grantReq 64) ∧ (1 ≤ le b 0 1) ∧ (le b 0 1 ≤ 3) ∧ (1 ≤ le b 2 2) ∧ (le b 2 2 ≤ 3600) ∧ (notZero b 1 2 ++ notZero b 4 8 ++ notZero b 48 64 = []) ∧ (keyFor s true 0 (le b 0 1) = some k) ∧ (hmac k (b.take 16) = bsub b 16 32) ∧ (freshTake s (freshKey true 0 (le b 0 1)) (le b 8 8) = none)) ∧
    (∃ (s : State) (s' : State) (k : Bytes) (b : Bytes), (s.mgmt.linkUp = true) ∧ (b = bfit s.mgmt.grantReq 64) ∧ (1 ≤ le b 0 1) ∧ (le b 0 1 ≤ 3) ∧ (1 ≤ le b 2 2) ∧ (le b 2 2 ≤ 3600) ∧ (notZero b 1 2 ++ notZero b 4 8 ++ notZero b 48 64 = []) ∧ (keyFor s true 0 (le b 0 1) = some k) ∧ (hmac k (b.take 16) = bsub b 16 32) ∧ (freshTake s (freshKey true 0 (le b 0 1)) (le b 8 8) = some s')) ∧
    (∃ (s : State), (getF s Reg.mbxGrantStatusLevel ≠ 0)) ∧
    (∃ (s : State), (s.mgmt.linkUp = true)) ∧
    (∃ (s : State), (s.mgmt.linkUp = true)) :=
  ⟨⟨win, zeros 64, by decide +kernel⟩,
    ⟨{ r0 with mgmt.linkUp := true, mgmt.grantReq := [1, 0, 0x10, 0x0E, 0, 0, 0, 0, 1, 0, 0, 0, 0, 0, 0, 0] }, bfit [1, 0, 0x10, 0x0E, 0, 0, 0, 0, 1, 0, 0, 0, 0, 0, 0, 0] 64, by decide +kernel⟩,
    ⟨{ r0 with mgmt.linkUp := true, cmd.opKey := some [7], mgmt.grantReq := [1, 0, 0x10, 0x0E, 0, 0, 0, 0, 1, 0, 0, 0, 0, 0, 0, 0] }, [7], bfit [1, 0, 0x10, 0x0E, 0, 0, 0, 0, 1, 0, 0, 0, 0, 0, 0, 0] 64, by decide +kernel⟩,
    ⟨{ ({ r0 with mgmt.linkUp := true, cmd.opKey := some [7], mgmt.grantReq := ([1, 0, 0x10, 0x0E, 0, 0, 0, 0, 1, 0, 0, 0, 0, 0, 0, 0] ++ hmac [7] [1, 0, 0x10, 0x0E, 0, 0, 0, 0, 1, 0, 0, 0, 0, 0, 0, 0]) } : State) with cmd.fresh := [(4097, ⟨1, []⟩)] }, [7], bfit ([1, 0, 0x10, 0x0E, 0, 0, 0, 0, 1, 0, 0, 0, 0, 0, 0, 0] ++ hmac [7] [1, 0, 0x10, 0x0E, 0, 0, 0, 0, 1, 0, 0, 0, 0, 0, 0, 0]) 64, by decide +kernel⟩,
    ⟨{ r0 with mgmt.linkUp := true, cmd.opKey := some [7], mgmt.grantReq := ([1, 0, 0x10, 0x0E, 0, 0, 0, 0, 1, 0, 0, 0, 0, 0, 0, 0] ++ hmac [7] [1, 0, 0x10, 0x0E, 0, 0, 0, 0, 1, 0, 0, 0, 0, 0, 0, 0]) }, (freshTake ({ r0 with mgmt.linkUp := true, cmd.opKey := some [7], mgmt.grantReq := ([1, 0, 0x10, 0x0E, 0, 0, 0, 0, 1, 0, 0, 0, 0, 0, 0, 0] ++ hmac [7] [1, 0, 0x10, 0x0E, 0, 0, 0, 0, 1, 0, 0, 0, 0, 0, 0, 0]) } : State) 4097 1).getD r0, [7], bfit ([1, 0, 0x10, 0x0E, 0, 0, 0, 0, 1, 0, 0, 0, 0, 0, 0, 0] ++ hmac [7] [1, 0, 0x10, 0x0E, 0, 0, 0, 0, 1, 0, 0, 0, 0, 0, 0, 0]) 64, by decide +kernel⟩,
    ⟨grant 1, by decide +kernel⟩,
    ⟨win, by decide +kernel⟩,
    ⟨win, by decide +kernel⟩⟩

theorem witness_WindowAndAuthority :
    (∃ (s : State), (s.mgmt.linkUp = true)) ∧
    (∃ (s : State) (q : Nat), (q < 16) ∧ (s.mgmt.linkUp = true)) ∧
    (∃ (s : State) (off : Nat) (d : Bytes), (wfRegisterWrite off = true) ∧ (s.mgmt.linkUp = true) ∧ (regAccess off d.length = true) ∧ (0x90000 ≤ off)) ∧
    (∃ (s : State) (d : Bytes), (d.length = 8) ∧ (s.mgmt.linkUp = true) ∧ (16 ≤ getF s Reg.cvuCtxSelCtx) ∧ (isSecond s = false) ∧ (1 ≤ grantLevel s) ∧ (role s = roleSingle) ∧ (s.key.ctxWait = []) ∧ ((ctxOf s (getF s Reg.cvuCtxSelCtx)).busy = false)) ∧
    (∃ (_lvl : Nat) (_mask : Nat) (_data : Nat) (_r : Written) (f : Reg.Fld), (f.acc = .ro ∨ f.acc = .rc ∨ f.acc = .wo)) ∧
    (∃ (lvl : Nat) (mask : Nat) (data : Nat) (s : State) (f : Reg.Fld), (f.acc = .rw) ∧ (f.off ≠ 0x90000) ∧ (f.off ≠ 0xA0018) ∧ (f.level ≤ lvl) ∧ (fieldOk s f (newVal s f mask data) = true) ∧ (newVal s f mask data < 2 ^ f.w) ∧ (readF s f = getF s f)) ∧
    (∃ (lvl : Nat) (_mask : Nat) (_data : Nat) (_s : State) (f : Reg.Fld), (f.acc = .rw) ∧ (f.off ≠ 0xA0018) ∧ (lvl < f.level)) ∧
    (∃ (_lvl : Nat) (_mask : Nat) (_data : Nat) (s : State) (f : Reg.Fld), (f.acc = .rwl) ∧ (fldLocked s f = true)) :=
  ⟨⟨win, by decide +kernel⟩,
    ⟨win, 15, by decide +kernel⟩,
    ⟨win, 0x90000, zeros 8, by decide +kernel⟩,
    ⟨{ fld [(Reg.cvuCtxSelCtx, 16)] (grant 1) with mgmt.grantEnd := 10 }, zeros 8, by decide +kernel⟩,
    ⟨0, 0, 0, { s := r0 }, Reg.idDevicePart, by decide +kernel⟩,
    ⟨1, 255, 46, r0, Reg.fabVcoreReq, by decide +kernel⟩,
    ⟨0, 0, 0, r0, Reg.fabVcoreReq, by decide +kernel⟩,
    ⟨0, 0, 0, svc, Reg.campRangeCfgBudgetGib, by decide +kernel⟩⟩

theorem witness_QueueWindows :
    (∃ (s : State) (q : Nat) (e : NqEntry) (rest : List NqEntry), (q < 16) ∧ (s.mgmt.linkUp = true) ∧ ((nqOf s q).rdA = (nqOf s q).rdB) ∧ ((nqOf s q).wrA = (nqOf s q).wrB) ∧ ((nqOf s q).ents = e :: rest)) ∧
    (∃ (s : State) (q : Nat) (e : NqEntry) (rest : List NqEntry), (q < 16) ∧ (s.mgmt.linkUp = true) ∧ ((nqOf s q).rdA = (nqOf s q).rdB) ∧ ((nqOf s q).wrA = (nqOf s q).wrB) ∧ ((nqOf s q).ents = e :: rest)) ∧
    (∃ (s : State) (q : Nat), (q < 16) ∧ (s.mgmt.linkUp = true) ∧ ((nqOf s q).rdA = (nqOf s q).rdB) ∧ ((nqOf s q).wrA = (nqOf s q).wrB) ∧ ((nqOf s q).ents = [])) ∧
    (∃ (s : State) (q : Nat), (q < 16) ∧ (s.mgmt.linkUp = true)) :=
  ⟨⟨{ win with nq := [(15, { ents := [qe], wrA := 1, wrB := 1 })] }, 15, qe, [], by decide +kernel⟩,
    ⟨{ win with nq := [(15, { ents := [qe], wrA := 1, wrB := 1 })] }, 15, qe, [], by decide +kernel⟩,
    ⟨win, 15, by decide +kernel⟩,
    ⟨win, 15, by decide +kernel⟩⟩

theorem witness_QueuePointers :
    (∃ (s : State) (q : Nat) (_b : Bool), (q < 16) ∧ (s.mgmt.linkUp = true) ∧ (s.log.loaded = true) ∧ (isSet s Reg.logStatusFull = false) ∧ (s.log.recs.length < 65535) ∧ ((∀ r, s.log.recs.getLast? = some r → r.ev ≠ .queueReset)) ∧ (((nqOf s q).rdA ≠ (nqOf s q).rdB ∨ (nqOf s q).wrA ≠ (nqOf s q).wrB))) ∧
    (∃ (s : State) (q : Nat), (q < 16) ∧ (s.mgmt.linkUp = true)) :=
  ⟨⟨{ win with log.loaded := true, nq := [(15, { wrA := 1 })] }, 15, true, by decide +kernel⟩,
    ⟨win, 15, by decide +kernel⟩⟩

theorem witness_RequestsAccepted :
    (∃ (c : Instr) (s : State) (p : Pkt) (k : Conn) (q : PathSt), ((c = .readReq p ∨ c = .writeReq p ∨ c = .writepReq p ∨ c = .flush p ∨ c = .cas64 p ∨ c = .fadd64 p ∨ c = .cas128 p ∨ c = .send p ∨ c = .triggeredSend p ∨ c = .mgmt p)) ∧ (wellFormed c = true) ∧ (OnRoute s p k q) ∧ (p.psn = q.rxE) ∧ (earlyOk s k p = true) ∧ (WellPacked k p) ∧ (p.seald = false) ∧ (msnBefore k.nextDone p.msn = false) ∧ (msnInSpan k.nextDone p.msn = true) ∧ (tget k.msgs p.msn = none) ∧ (isSecond s = false) ∧ (mustWait s p = false) ∧ (c ≠ .mgmt p)) ∧
    (∃ (c : Instr) (s : State) (p : Pkt) (k : Conn) (q : PathSt), ((c = .readReq p ∨ c = .writeReq p ∨ c = .writepReq p ∨ c = .flush p ∨ c = .cas64 p ∨ c = .fadd64 p ∨ c = .cas128 p ∨ c = .send p ∨ c = .triggeredSend p ∨ c = .mgmt p)) ∧ (wellFormed c = true) ∧ (OnRoute s p k q) ∧ (p.psn = q.rxE) ∧ (earlyOk s k p = true) ∧ (WellPacked k p) ∧ (p.seald = false) ∧ (msnBefore k.nextDone p.msn = false) ∧ (msnInSpan k.nextDone p.msn = true) ∧ (tget k.msgs p.msn = none) ∧ (isSecond s = false) ∧ (mustWait s p = false) ∧ (c = .mgmt p)) ∧
    (∃ (c : Instr) (s : State) (p : Pkt) (k : Conn) (q : PathSt) (w : _), ((c = .readReq p ∨ c = .writeReq p ∨ c = .writepReq p ∨ c = .flush p ∨ c = .cas64 p ∨ c = .fadd64 p ∨ c = .cas128 p ∨ c = .send p ∨ c = .triggeredSend p ∨ c = .mgmt p)) ∧ (wellFormed c = true) ∧ (OnRoute s p k q) ∧ (p.psn = q.rxE) ∧ (earlyOk s k p = true) ∧ (WellPacked k p) ∧ (p.seald = false) ∧ (msnBefore k.nextDone p.msn = false) ∧ (msnInSpan k.nextDone p.msn = true) ∧ (tget k.msgs p.msn = none) ∧ (isSecond s = false) ∧ (mustWait s p = false) ∧ (mustWait w p = true) ∧ (OnRoute w p k q) ∧ (earlyOk w k p = true) ∧ (c ≠ .mgmt p)) :=
  ⟨⟨.send (pk tySend), cst, pk tySend, cn, pth, by unfold OnRoute; unfold WellPacked; decide +kernel⟩,
    ⟨.mgmt { pk tyMgmt with mgmt := true, mlen := 64, payload := zeros 64 }, cst, { pk tyMgmt with mgmt := true, mlen := 64, payload := zeros 64 }, cn, pth, by unfold OnRoute; unfold WellPacked; decide +kernel⟩,
    ⟨.send { pk tySend with check := true, mlen := 8, payload := zeros 8 }, setDom cst 98 true, { pk tySend with check := true, mlen := 8, payload := zeros 8 }, cn, pth, cst, by unfold OnRoute; unfold WellPacked; decide +kernel⟩⟩

theorem witness_SequenceNakOnce :
    (∃ (c : Instr) (s : State) (p : Pkt) (k : Conn) (q : PathSt), ((c = .readReq p ∨ c = .writeReq p ∨ c = .writepReq p ∨ c = .flush p ∨ c = .cas64 p ∨ c = .fadd64 p ∨ c = .cas128 p ∨ c = .send p ∨ c = .triggeredSend p)) ∧ (wellFormed c = true) ∧ (OnRoute s p k q) ∧ (earlyOk s k p = true) ∧ (mustWait s p = false) ∧ (psnBehind p.psn q.rxE = false) ∧ (psnAhead p.psn q.rxE = true) ∧ ((q.nakUntil = none ∨ ∃ t, q.nakUntil = some t ∧ t ≤ s.timebase))) ∧
    (∃ (c : Instr) (s : State) (p : Pkt) (k : Conn) (q : PathSt) (t : _), ((c = .readReq p ∨ c = .writeReq p ∨ c = .writepReq p ∨ c = .flush p ∨ c = .cas64 p ∨ c = .fadd64 p ∨ c = .cas128 p ∨ c = .send p ∨ c = .triggeredSend p)) ∧ (wellFormed c = true) ∧ (OnRoute s p k q) ∧ (earlyOk s k p = true) ∧ (mustWait s p = false) ∧ (psnBehind p.psn q.rxE = false) ∧ (psnAhead p.psn q.rxE = true) ∧ (q.nakUntil = some t) ∧ (s.timebase < t)) ∧
    (∃ (s : State) (ci : Nat) (k : Nat) (c : Conn) (q : PathSt), (tget s.conns ci = some c) ∧ (c.path k = some q)) :=
  ⟨⟨.send { pk tySend with psn := 7 }, cst, { pk tySend with psn := 7 }, cn, pth, by unfold OnRoute; decide +kernel⟩,
    ⟨.send { pk tySend with psn := 7 }, cst (cn { pth with nakUntil := some 9 }), { pk tySend with psn := 7 }, cn { pth with nakUntil := some 9 }, { pth with nakUntil := some 9 }, 9, by unfold OnRoute; decide +kernel⟩,
    ⟨cst, 2, 0, cn, pth, by decide +kernel⟩⟩

theorem witness_Acknowledgements :
    (∃ (s : State) (p : Pkt) (k : Conn) (q : PathSt), (wfReadReq p = true) ∧ (OnRoute s p k q) ∧ (earlyOk s k p = true) ∧ (mustWait s p = false) ∧ (psnBehind p.psn q.rxE = true)) ∧
    (∃ (s : State) (p : Pkt) (ci : Nat) (k : Conn) (q : PathSt) (e : Ext), (wfAck p = true) ∧ (ingress s p = .take) ∧ (unseqRoute s p = some (ci, k, q)) ∧ (findExt p exPathAck = some e) ∧ (p.ackReq = false)) ∧
    (∃ (s : State) (p : Pkt) (ci : Nat) (k : Conn) (q : PathSt) (e : Ext), (wfAck p = true) ∧ (ingress s p = .take) ∧ (unseqRoute s p = some (ci, k, q)) ∧ (findExt p exPathAck = some e) ∧ (p.ackReq = true)) ∧
    (∃ (s : State) (p : Pkt), (wfAck p = true) ∧ (ingress s p = .take) ∧ (findExt p exPathAck = none)) ∧
    (∃ (s : State) (p : Pkt) (ci : Nat) (k : Conn) (q : PathSt) (e : Ext), (wfNak p = true) ∧ (ingress s p = .take) ∧ (unseqRoute s p = some (ci, k, q)) ∧ (findExt p exNak = some e) ∧ (e.lo.toNat / 256 = nkUnknownConnection)) ∧
    (∃ (s : State) (p : Pkt) (ci : Nat) (k : Conn) (q : PathSt) (e : Ext), (wfNak p = true) ∧ (ingress s p = .take) ∧ (unseqRoute s p = some (ci, k, q)) ∧ (findExt p exNak = some e) ∧ (e.lo.toNat / 256 ∉ [nkSequence, nkSealTag, nkNotReady, nkMsnRange, nkPathNotOpen, nkUnknownConnection])) ∧
    (∃ (s : State) (p : Pkt) (ci : Nat) (k : Conn) (q : PathSt) (e : Ext), (wfNak p = true) ∧ (ingress s p = .take) ∧ (unseqRoute s p = some (ci, k, q)) ∧ (findExt p exNak = some e) ∧ (e.lo.toNat / 256 = nkSequence ∨ e.lo.toNat / 256 = nkSealTag) ∧ (q.rewound = none)) ∧
    (∃ (s : State) (p : Pkt) (ci : Nat) (k : Conn) (q : PathSt) (e : Ext), (wfNak p = true) ∧ (ingress s p = .take) ∧ (unseqRoute s p = some (ci, k, q)) ∧ (findExt p exNak = some e) ∧ (e.lo.toNat / 256 = nkNotReady)) ∧
    (∃ (s : State) (p : Pkt) (ci : Nat) (k : Conn) (q : PathSt) (e : Ext), (wfNak p = true) ∧ (ingress s p = .take) ∧ (unseqRoute s p = some (ci, k, q)) ∧ (findExt p exNak = some e) ∧ (e.lo.toNat / 256 = nkMsnRange)) ∧
    (∃ (s : State) (p : Pkt) (ci : Nat) (k : Conn) (q : PathSt) (e : Ext), (wfNak p = true) ∧ (ingress s p = .take) ∧ (unseqRoute s p = some (ci, k, q)) ∧ (findExt p exNak = some e) ∧ (e.lo.toNat / 256 = nkPathNotOpen)) :=
  ⟨⟨cst, { pk 0 with psn := 2 }, cn, pth, by unfold OnRoute; decide +kernel⟩,
    ⟨cst, { pk 7 with exts := [⟨5, 3, 0, [0, 0]⟩] }, 2, cn, pth, ⟨5, 3, 0, [0, 0]⟩, by decide +kernel⟩,
    ⟨cst, { pk 7 with exts := [⟨5, 3, 0, [0, 0]⟩], ackReq := true }, 2, cn, pth, ⟨5, 3, 0, [0, 0]⟩, by decide +kernel⟩,
    ⟨cst, pk 7, by decide +kernel⟩,
    ⟨cst, { pk 8 with exts := [⟨10, 4, BitVec.ofNat 16 nkUnknownConnection * 256, [0, 0, 0]⟩] }, 2, cn, pth, ⟨10, 4, BitVec.ofNat 16 nkUnknownConnection * 256, [0, 0, 0]⟩, by decide +kernel⟩,
    ⟨cst, { pk 8 with exts := [⟨10, 4, 255 * 256, [0, 0, 0]⟩] }, 2, cn, pth, ⟨10, 4, 255 * 256, [0, 0, 0]⟩, by decide +kernel⟩,
    ⟨cst, { pk 8 with exts := [⟨10, 4, BitVec.ofNat 16 nkSequence * 256, [0, 0, 0]⟩] }, 2, cn, pth, ⟨10, 4, BitVec.ofNat 16 nkSequence * 256, [0, 0, 0]⟩, by decide +kernel⟩,
    ⟨cst, { pk 8 with exts := [⟨10, 4, BitVec.ofNat 16 nkNotReady * 256, [0, 0, 0]⟩] }, 2, cn, pth, ⟨10, 4, BitVec.ofNat 16 nkNotReady * 256, [0, 0, 0]⟩, by decide +kernel⟩,
    ⟨cst, { pk 8 with exts := [⟨10, 4, BitVec.ofNat 16 nkMsnRange * 256, [0, 0, 0]⟩] }, 2, cn, pth, ⟨10, 4, BitVec.ofNat 16 nkMsnRange * 256, [0, 0, 0]⟩, by decide +kernel⟩,
    ⟨cst, { pk 8 with exts := [⟨10, 4, BitVec.ofNat 16 nkPathNotOpen * 256, [0, 0, 0]⟩] }, 2, cn, pth, ⟨10, 4, BitVec.ofNat 16 nkPathNotOpen * 256, [0, 0, 0]⟩, by decide +kernel⟩⟩

theorem witness_AtomicsAndBytes :
    (∃ (op : Nat) (old : Nat) (a : Nat) (_b : Nat), (op ≠ 2) ∧ (old = a)) ∧
    (∃ (op : Nat) (old : Nat) (a : Nat) (_b : Nat), (op ≠ 2) ∧ (old ≠ a)) ∧
    (∃ (m : List Host.Cell) (_a : Nat) (_d : Bytes), (Memory.wf m = true)) ∧
    (∃ (_m : List Host.Cell) (a : Nat) (x : Nat) (d : Bytes), (x < a ∨ a + d.length ≤ x)) :=
  ⟨⟨3, 4, 4, 5, by decide +kernel⟩,
    ⟨1, 4, 5, 5, by decide +kernel⟩,
    ⟨[], 0, [1], by decide +kernel⟩,
    ⟨[], 5, 7, [1, 2], by decide +kernel⟩⟩

theorem witness_ConnectionControl :
    (∃ (s : State) (p : Pkt), (wfConnect p = true) ∧ (ingress s p = .take) ∧ (p.conn = 0)) ∧
    (∃ (s : State) (p : Pkt) (c : Conn), (wfPathOpen p = true) ∧ (ingress s p = .take) ∧ (p.conn ≠ 0) ∧ (connOf s p.conn = some c) ∧ (c.st.live = true) ∧ (serviceOpen s = true)) ∧
    (∃ (s : State) (p : Pkt) (k : Conn) (q : PathSt), (wfClose p = true) ∧ (OnRoute s p k q)) ∧
    (∃ (s : State) (p : Pkt), (wfClose p = true) ∧ (ingress s p = .take) ∧ (p.conn ≠ 0) ∧ (connOf s p.conn = none)) ∧
    (∃ (s : State) (p : Pkt) (ci : Nat) (k : Conn) (q : PathSt), (wfClosed p = true) ∧ (ingress s p = .take) ∧ (unseqRoute s p = some (ci, k, q))) :=
  ⟨⟨cst, ctl 1 0, by decide +kernel⟩,
    ⟨cst, ctl 4, cn, by decide +kernel⟩,
    ⟨cst, ctl 6, cn, pth, by refine ⟨?_, ?_⟩ <;> (first | rfl | decide +kernel | exact ⟨rfl, rfl, rfl, rfl, by decide +kernel, by decide +kernel⟩ | exact ⟨rfl, by decide, rfl, rfl, rfl, rfl, rfl, rfl, rfl⟩ | nofun)⟩,
    ⟨cst, ctl 6 5, by decide +kernel⟩,
    ⟨cst { cn with closeOut := some (0, 3, 8) }, ctl 7, 2, { cn with closeOut := some (0, 3, 8) }, pth, by decide +kernel⟩⟩

theorem witness_ConnectionAndPathTimers :
    (∃ (s : State) (n : Nat) (t : Nat) (c : Conn), (wfCloseDrainEnd n = true) ∧ (connOf s n = some c) ∧ (c.st = .closing t) ∧ (c.msgs = []) ∧ (c.respQ = []) ∧ (c.outst = []) ∧ (c.closeOut = none) ∧ (c.upPaths = [])) ∧
    (∃ (s : State) (n : Nat) (t : Nat) (k : Nat) (c : Conn) (q : PathSt) (l : Tab PathSt), (wfCloseDrainEnd n = true) ∧ (connOf s n = some c) ∧ (c.st = .closing t) ∧ (c.upPaths = (k, q) :: l)) ∧
    (∃ (s : State) (n : Nat) (t : Nat) (c : Conn), (wfCloseDrainEnd n = true) ∧ (connOf s n = some c) ∧ (c.st = .closing t) ∧ (c.upPaths = [])) ∧
    (∃ (s : State) (n : Nat) (reason : Nat) (at_ : Nat) (c : Conn), (wfControlResend n = true) ∧ (connOf s n = some c) ∧ (c.closeOut = some (reason, 0, at_))) ∧
    (∃ (s : State) (n : Nat) (reason : Nat) (tries : Nat) (at_ : Nat) (c : Conn), (wfControlResend n = true) ∧ (connOf s n = some c) ∧ (c.closeOut = some (reason, tries + 1, at_))) ∧
    (∃ (s : State) (n : Nat) (t : Nat) (c : Conn), (wfConnNumberFree n = true) ∧ (connOf s n = some c) ∧ (c.st = .error t)) ∧
    (∃ (s : State) (n : Nat) (t : Nat) (c : Conn), (wfLeadPathTimeout n = true) ∧ (connOf s n = some c) ∧ (c.leadLost = some t) ∧ (c.upPaths = [])) ∧
    (∃ (s : State) (n : Nat) (k : Nat) (t : Nat) (c : Conn) (q : PathSt) (h : Held) (l : List Held), (wfRetransmitTimerExpiry n k = true) ∧ (connOf s n = some c) ∧ (c.path k = some q) ∧ (q.timer = some t) ∧ (q.held = h :: l) ∧ (q.retry + 1 ≤ getF s Reg.hpTmtCfgRetryLimit)) ∧
    (∃ (s : State) (n : Nat) (k : Nat) (t : Nat) (c : Conn) (q : PathSt), (wfRetransmitTimerExpiry n k = true) ∧ (connOf s n = some c) ∧ (c.path k = some q) ∧ (q.timer = some t) ∧ (getF s Reg.hpTmtCfgRetryLimit < q.retry + 1)) ∧
    (∃ (s : State) (n : Nat) (k : Nat) (t : Nat) (c : Conn) (q : PathSt), (wfAckDelayExpiry n k = true) ∧ (connOf s n = some c) ∧ (c.path k = some q) ∧ (q.ackDue = some t)) ∧
    (∃ (s : State) (n : Nat) (k : Nat) (e : Nat) (t : Nat) (c : Conn) (q : PathSt), (wfRnrWaitExpiry n k = true) ∧ (connOf s n = some c) ∧ (c.path k = some q) ∧ (q.rnr = some (e, t))) ∧
    (∃ (s : State) (n : Nat) (k : Nat) (e : Nat) (t : Nat) (c : Conn) (q : PathSt), (wfMsnRangeWaitExpiry n k = true) ∧ (connOf s n = some c) ∧ (c.path k = some q) ∧ (q.msnWait = some (e, t))) ∧
    (∃ (s : State) (n : Nat) (k : Nat) (c : Conn) (o : Outst) (l : List Outst), (wfCompletionRepeat n = true) ∧ (connOf s n = some c) ∧ (c.outst = o :: l) ∧ (nextPath c o.lastPath = some k)) :=
  ⟨⟨cst { cn with st := .closing 4, paths := [] }, 16386, 4, { cn with st := .closing 4, paths := [] }, by decide +kernel⟩,
    ⟨cst { cn with st := .closing 4 }, 16386, 4, 0, { cn with st := .closing 4 }, pth, [], by decide +kernel⟩,
    ⟨cst { cn with st := .closing 4, paths := [] }, 16386, 4, { cn with st := .closing 4, paths := [] }, by decide +kernel⟩,
    ⟨cst { cn with closeOut := some (5, 0, 8) }, 16386, 5, 8, { cn with closeOut := some (5, 0, 8) }, by decide +kernel⟩,
    ⟨cst { cn with closeOut := some (5, 3, 8) }, 16386, 5, 2, 8, { cn with closeOut := some (5, 3, 8) }, by decide +kernel⟩,
    ⟨cst { cn with st := .error 9 }, 16386, 9, { cn with st := .error 9 }, by decide +kernel⟩,
    ⟨cst { cn with leadLost := some 9, paths := [] }, 16386, 9, { cn with leadLost := some 9, paths := [] }, by decide +kernel⟩,
    ⟨cst (cn ({ pth with timer := some 4, held := [{ psn := 0, pkt := pk 0, at_ := 1 }] } : PathSt)), 16386, 0, 4, cn ({ pth with timer := some 4, held := [{ psn := 0, pkt := pk 0, at_ := 1 }] } : PathSt), { pth with timer := some 4, held := [{ psn := 0, pkt := pk 0, at_ := 1 }] }, { psn := 0, pkt := pk 0, at_ := 1 }, [], by decide +kernel⟩,
    ⟨cst (cn ({ pth with timer := some 4, retry := 7 } : PathSt)), 16386, 0, 4, cn ({ pth with timer := some 4, retry := 7 } : PathSt), { pth with timer := some 4, retry := 7 }, by decide +kernel⟩,
    ⟨cst (cn ({ pth with ackDue := some 4 } : PathSt)), 16386, 0, 4, cn ({ pth with ackDue := some 4 } : PathSt), { pth with ackDue := some 4 }, by decide +kernel⟩,
    ⟨cst (cn ({ pth with rnr := some (0, 4) } : PathSt)), 16386, 0, 0, 4, cn ({ pth with rnr := some (0, 4) } : PathSt), { pth with rnr := some (0, 4) }, by decide +kernel⟩,
    ⟨cst (cn ({ pth with msnWait := some (0, 4) } : PathSt)), 16386, 0, 0, 4, cn ({ pth with msnWait := some (0, 4) } : PathSt), { pth with msnWait := some (0, 4) }, by decide +kernel⟩,
    ⟨cst { cn with outst := [{ msn := 1, status := 0, flags := 0 }] }, 16386, 0, { cn with outst := [{ msn := 1, status := 0, flags := 0 }] }, { msn := 1, status := 0, flags := 0 }, [], by decide +kernel⟩⟩

theorem witness_FlowControl :
    (∃ (s : State) (n : Nat) (k : Nat) (q : PathSt) (c : Conn), (wfZeroWindowProbe n = true) ∧ (connOf s n = some c) ∧ (c.winBy = 0) ∧ (choosePath c none = some (k, q))) ∧
    (∃ (s : State) (n : Nat) (k : Nat) (q : PathSt) (c : Conn), (wfZeroWindowProbe n = true) ∧ (connOf s n = some c) ∧ (c.winPk = 0) ∧ (choosePath c none = some (k, q))) ∧
    (∃ (s : State) (n : Nat) (c : Conn), (wfWindowRestore n = true) ∧ (connOf s n = some c) ∧ (c.reduced = true) ∧ (windowEighths s c ≠ 0)) ∧
    (∃ (_s : State) (sub : Nat) (prio : Nat) (quanta : Nat), (wfPfcFrame sub prio quanta = true) ∧ (quanta ≠ 0)) ∧
    (∃ (_s : State) (sub : Nat) (prio : Nat), (wfPfcFrame sub prio 0 = true)) ∧
    (∃ (s : State) (sub : Nat) (prio : Nat) (b : Nat), (wfPfcPauseExpiry sub prio = true) ∧ (tget s.port.rxPause (occKey sub prio) = some b)) ∧
    (∃ (s : State) (sub : Nat) (prio : Nat), (wfPfcRefreshTimer sub prio = true) ∧ (occKey sub prio ∈ s.port.xoff) ∧ ((s.port.globalXoff = true ∨ xonBytes s ≤ occOf s sub prio))) :=
  ⟨⟨cst { cn with winBy := 0 }, 16386, 0, pth, { cn with winBy := 0 }, by decide +kernel⟩,
    ⟨cst { cn with winPk := 0 }, 16386, 0, pth, { cn with winPk := 0 }, by decide +kernel⟩,
    ⟨cst { cn with reduced := true }, 16386, { cn with reduced := true }, by decide +kernel⟩,
    ⟨r0, 31, 7, 65535, by decide +kernel⟩,
    ⟨r0, 31, 7, by decide +kernel⟩,
    ⟨{ r0 with port.rxPause := [(255, 4)] }, 31, 7, 4, by decide +kernel⟩,
    ⟨{ r0 with port.xoff := [255], port.globalXoff := true }, 31, 7, by decide +kernel⟩⟩

theorem witness_Ports :
    (∃ (s : State) (x : Nat) (prio : Nat) (quanta : Nat) (rest : List Frame), (x < 32) ∧ (subRuns s x = true) ∧ (tget s.port.fifo x = some (.pfc prio quanta :: rest))) ∧
    (∃ (_s : State) (n : Nat) (_w : DropWhy), (n < 8)) ∧
    (∃ (s : State) (x : Nat) (f : Frame) (rest : List Frame), (wfFrameTransmit x = true) ∧ ((if x < 32 then subRuns s x || subState s x == subQuiesced else (ropeInst s (x - 32)).up) = true) ∧ (takeFirst (fun f => ! paused s x f) ((tget s.port.fifo x).getD []) = some (f, rest))) ∧
    (∃ (s : State) (n : Nat) (lane : Nat) (k : Nat), (n < 8) ∧ (lane < 8) ∧ (getF s (Reg.hpPortCfgMode n) ≤ 1) ∧ (bitF s (Reg.hpPortStatusLaneFail n) lane = false) ∧ ((modeSubs (getF s (Reg.hpPortCfgMode n))).find? (fun k => (modeLanes (getF s (Reg.hpPortCfgMode n)) k).contains lane) = some k) ∧ (subState s (4 * n + k) = subUp)) ∧
    (∃ (s : State) (n : Nat) (lane : Nat) (k : Nat) (b : Bool), (n < 8) ∧ (lane < 8) ∧ (bitF s (Reg.hpPortStatusLaneFail n) lane = false) ∧ ((modeSubs (getF s (Reg.hpPortCfgMode n))).find? (fun k => (modeLanes (getF s (Reg.hpPortCfgMode n)) k).contains lane) = some k) ∧ ((2 ≤ getF s (Reg.hpPortCfgMode n) ∨ b = false))) ∧
    (∃ (s : State) (sub : Nat), (wfSubportLinkUp sub = true) ∧ (s.fab.sdOk = true) ∧ (sub % 4 ∈ modeSubs (getF s (Reg.hpPortCfgMode (sub / 4)))) ∧ ((subState s sub = subTraining ∨ subState s sub = subDown))) ∧
    (∃ (s : State) (n : Nat) (lane : Nat), (n < 8) ∧ (lane < 8) ∧ (getF s (Reg.hpPortCfgMode n) = 0) ∧ (bitF s (Reg.hpPortStatusLaneFail n) lane = false) ∧ (subState s (4 * n) = subUp) ∧ (s.conns = [])) ∧
    (∃ (s : State) (n : Nat), (n < 8) ∧ (s.fab.sdOk = true) ∧ (getF s (Reg.hpPortCfgMode n) = 0) ∧ (subState s (4 * n) = subTraining) ∧ (getF s (Reg.hpPortStatusLaneFail n) = 0) ∧ (s.conns = []) ∧ ((ladFn s (fnKey 1 (4 * n))).rung = 0)) :=
  ⟨⟨{ setSub r0 31 subUp with port.fifo := [(31, [.pfc 3 8])] }, 31, 3, 8, [], by decide +kernel⟩,
    ⟨r0, 7, .twoTags, by decide +kernel⟩,
    ⟨{ setSub r0 31 subUp with port.fifo := [(31, [.pfc 3 0])] }, 31, .pfc 3 0, [], by decide +kernel⟩,
    ⟨setSub r0 28 subUp, 7, 7, 0, by decide +kernel⟩,
    ⟨setSub r0 28 subUp, 7, 7, 0, false, by decide +kernel⟩,
    ⟨setSub r0 28 subTraining, 28, by decide +kernel⟩,
    ⟨setSub r0 28 subUp, 7, 7, by decide +kernel⟩,
    ⟨setSub r0 28 subTraining, 7, by decide +kernel⟩⟩

theorem witness_BudgetAndWork :
    (∃ (s : State) (r : Resv) (rest : List Resv), (s.ops.budgetQ = r :: rest) ∧ (writeThrough s = false) ∧ (budgetFits s (r.slabs.filter fun n => ! isCharged s n) = true)) ∧
    (∃ (s : State) (r : Resv) (rest : List Resv), (s.ops.budgetQ = r :: rest) ∧ (writeThrough s = true)) ∧
    (∃ (s : State) (r : Resv) (n : Nat) (ci : Nat) (msn : Nat) (m : Msg), (s.ops.budgetQ.find? (·.id == n) = some r) ∧ (r.who = .msg ci msn) ∧ (msgOf s ci msn = some m)) ∧
    (∃ (s : State) (r : Resv) (n : Nat) (q : Nat) (slot : Nat) (x : Queue), (s.ops.budgetQ.find? (·.id == n) = some r) ∧ (r.who = .wr q slot) ∧ (queueOf s q = some x)) ∧
    (∃ (s : State) (o : State) (q : Nat) (x : Queue) (r : Run) (regs : List Nat) (rs : List Nat), (wfWorkRequestStart q = true) ∧ (queueOf s q = some x) ∧ (x.run = some r) ∧ (r.stopped = false) ∧ (r.live = []) ∧ (r.done = []) ∧ (isSecond s = false) ∧ (rxOff s = false) ∧ (s.rope.handover = none) ∧ ((wrOp (x.wr r.next) = woCopy ∨ wrOp (x.wr r.next) = woWrite)) ∧ (wrLenOk (x.wr r.next) = true) ∧ (wrValidate s x.owner true (wrRegions (x.wr r.next)) = .inr regs) ∧ (reserve (wrAdd s q r.next { slot := r.next, regions := regs, value := 0, inv := (wrTarget (x.wr r.next) r.trig, 0) }) (.wr q r.next) (wrDst (x.wr r.next)) (wrLen (x.wr r.next)) = (o, .charged rs))) ∧
    (∃ (s : State) (q : Nat) (x : Queue) (r : Run), (wfWorkRequestStart q = true) ∧ (queueOf s q = some x) ∧ (x.run = some r) ∧ (r.stopped = false) ∧ (r.live = []) ∧ (r.done = []) ∧ (isSecond s = false) ∧ (rxOff s = false) ∧ (s.rope.handover = none) ∧ (wrOp (x.wr r.next) = woNotify)) ∧
    (∃ (s : State) (q : Nat) (slot : Nat), (wfWorkRequestComplete q slot = true) ∧ (wrFinished s q slot = true)) ∧
    (∃ (s : State) (q : Nat) (slot : Nat) (_cause : ChainCause), (wfWorkRequestFail q slot = true) ∧ ((wrRun s q slot).isSome = true)) :=
  ⟨⟨fld [(Reg.campRangeCfgBudgetGib, 1)] { r0 with ops.budgetQ := [⟨0, .wr 0 0, [9], 8⟩] }, ⟨0, .wr 0 0, [9], 8⟩, [], by decide +kernel⟩,
    ⟨fld [(Reg.seqStatusWriteThrough, 1)] { r0 with ops.budgetQ := [⟨0, .wr 0 0, [9], 8⟩] }, ⟨0, .wr 0 0, [9], 8⟩, [], by decide +kernel⟩,
    ⟨{ cst { cn with msgs := [(1, msg0)] } with ops.budgetQ := [⟨7, .msg 2 1, [9], 8⟩] }, ⟨7, .msg 2 1, [9], 8⟩, 7, 2, 1, msg0, by decide +kernel⟩,
    ⟨{ r0 with ops.budgetQ := [⟨7, .wr 2 5, [], 0⟩], tables.queues := [(2, qu none)] }, ⟨7, .wr 2 5, [], 0⟩, 7, 2, 5, qu none, by decide +kernel⟩,
    ⟨wst, (wout).1, 4095, qu (some rn) [(0, wcopy)], rn, [3, 4], [0], by decide +kernel⟩,
    ⟨{ svc with tables.queues := [(4095, qu (some rn) [(0, [BitVec.ofNat 8 woNotify])])] }, 4095, qu (some rn) [(0, [BitVec.ofNat 8 woNotify])], rn, by decide +kernel⟩,
    ⟨{ r0 with tables.queues := [(4095, qu (some (rn [{ slot := 0, regions := [] }])))] }, 4095, 0, by decide +kernel⟩,
    ⟨{ r0 with tables.queues := [(4095, qu (some (rn [{ slot := 0, regions := [] }])))] }, 4095, 0, .storage, by decide +kernel⟩⟩

theorem witness_MoversAndDestage :
    (∃ (s : State) (m : Nat) (n : Nat), (wfMoverJobStart m = true) ∧ (thas s.range.movers m = false) ∧ (domOn s (102 + m / 8) = true) ∧ (powerStops s = false) ∧ (s.range.jobs = [{ cls := 1, kind := .promote n }]) ∧ (segBuilt s (segOf n) = true) ∧ (frameFree s n = true) ∧ ((slabOf s n).st = .valley)) ∧
    (∃ (s : State) (m : Nat) (j : Job), (wfMoverJobStart m = true) ∧ (thas s.range.movers m = false) ∧ (domOn s (102 + m / 8) = true) ∧ (powerStops s = false) ∧ (bestJob s = some j)) ∧
    (∃ (s : State) (m : Nat) (n : Nat) (j : Job), (wfMoverUnitDone m = true) ∧ (tget s.range.movers m = some j) ∧ (j.kind = .check n) ∧ (((objOf s n).map (·.len)).getD 0 ≤ j.offset + 4096)) ∧
    (∃ (s : State) (m : Nat) (g : Nat) (j : Job), (wfMoverUnitDone m = true) ∧ (tget s.range.movers m = some j) ∧ (j.kind = .rebuild g)) ∧
    (∃ (s : State) (m : Nat) (t : Nat) (j : Job), (wfMoverUnitDone m = true) ∧ (tget s.range.movers m = some j) ∧ (j.kind = .unseal t)) ∧
    (∃ (s : State) (m : Nat) (n : Nat) (j : Job), (wfMoverUnitDone m = true) ∧ (tget s.range.movers m = some j) ∧ (j.kind = .check n) ∧ (s.range.jobs = []) ∧ (bgRebuild s = []) ∧ (j.offset + 4096 < ((objOf s n).map (·.len)).getD 0)) ∧
    (∃ (s : State) (n : Nat) (u : Nat), (wfPromotionUnitFilled n [] = true) ∧ ((slabOf s n).unit = some u) ∧ ((slabOf s n).st = .promoting) ∧ ((s.range.movers.any fun j => promotes n j.2.kind) = true) ∧ (((slabOf s n).vloc.any (readWaits s)) = false)) ∧
    (∃ (s : State) (n : Nat) (v : Nat) (pg : Page), (wfDestageProgramDone n = true) ∧ ((slabOf s n).target = some v) ∧ (tget s.val.progs v = some (.destage n pg)) ∧ (progRuns s v = true) ∧ ((slabOf s n).st = .destaging) ∧ ((slabOf s n).wrote = false)) ∧
    (∃ (s : State) (n : Nat) (v : Nat) (pg : Page), (wfDestageProgramDone n = true) ∧ ((slabOf s n).target = some v) ∧ (tget s.val.progs v = some (.destage n pg)) ∧ (progRuns s v = true) ∧ ((slabOf s n).st = .destaging) ∧ ((slabOf s n).wrote = true)) ∧
    (∃ (s : State) (n : Nat) (v : Nat) (pg : Page) (k : _), (wfDestageProgramFail n = true) ∧ ((slabOf s n).target = some v) ∧ (tget s.val.progs v = some (.destage n pg)) ∧ (progRuns s v = true) ∧ ((slabOf s n).st = .destaging) ∧ (let w := retireBlock (progGone s v) (vBlock s v); pickPlace w = some k)) ∧
    (∃ (s : State) (n : Nat) (v : Nat) (pg : Page), (wfDestageProgramFail n = true) ∧ ((slabOf s n).target = some v) ∧ (tget s.val.progs v = some (.destage n pg)) ∧ (progRuns s v = true) ∧ ((slabOf s n).st = .destaging) ∧ (let w := retireBlock (progGone s v) (vBlock s v); pickPlace w = none)) :=
  ⟨⟨{ setDom (bt { chn with range.slabs := [(3, { st := .valley })], camp.liveMap := [15] }) 109 true with range.jobs := [{ cls := 1, kind := .promote 3 }] }, 63, 3, by decide +kernel⟩,
    ⟨{ setDom (bt r0) 109 true with range.jobs := [{ cls := 1, kind := .promote 3 }] }, 63, { cls := 1, kind := .promote 3 }, by decide +kernel⟩,
    ⟨{ r0 with range.movers := [(63, { cls := 5, kind := .check 1, offset := 4096 })], tables.objects := [(1, ob)] }, 63, 1, { cls := 5, kind := .check 1, offset := 4096 }, by decide +kernel⟩,
    ⟨{ r0 with range.movers := [(63, { cls := 2, kind := .rebuild 1 })] }, 63, 1, { cls := 2, kind := .rebuild 1 }, by decide +kernel⟩,
    ⟨{ r0 with range.movers := [(63, { cls := 3, kind := .unseal 1 })] }, 63, 1, { cls := 3, kind := .unseal 1 }, by decide +kernel⟩,
    ⟨{ r0 with range.movers := [(63, { cls := 5, kind := .check 1 })], tables.objects := [(1, ob)] }, 63, 1, { cls := 5, kind := .check 1 }, by decide +kernel⟩,
    ⟨{ sl 3 { st := .promoting, unit := some 3 } with range.movers := [(0, { cls := 1, kind := .promote 3 })] }, 3, 3, by decide +kernel⟩,
    ⟨{ sl 3 { st := .destaging, target := some 7, wrote := false } with val.progs := [(7, .destage 3 (pg 3))], val.dies := [(0, { run := some (.prog 7) })] }, 3, 7, pg 3, by decide +kernel⟩,
    ⟨{ sl 3 { st := .destaging, target := some 7, wrote := true } with val.progs := [(7, .destage 3 (pg 3))], val.dies := [(0, { run := some (.prog 7) })] }, 3, 7, pg 3, by decide +kernel⟩,
    (pickPlace_some dnext ((firstPlace dnext (placeOk dnext) 0 (32 * diesPerCh dnext * (dieBlocks dnext * ppb dnext))).getD 0)
      (by decide +kernel)).elim fun k h => ⟨dfail, 3, 7, pg 3, k, by decide +kernel, by decide +kernel, by decide +kernel, by decide +kernel, by decide +kernel, h⟩,
    ⟨{ sl 3 { st := .destaging, target := some 7, wrote := false } with val.progs := [(7, .destage 3 (pg 3))], val.dies := [(0, { run := some (.prog 7) })] }, 3, 7, pg 3, by decide +kernel⟩⟩

theorem witness_RangeWalk :
    (∃ (s : State) (part : Nat) (n : Nat), (wfWalkerEvict part = true) ∧ (freeFrames s part < 1024) ∧ (walkerNext s part = some n) ∧ (candidate { s with range.walker := tset s.range.walker part n } n = true) ∧ (slabCls { s with range.walker := tset s.range.walker part n } n = 3)) ∧
    (∃ (s : State) (part : Nat), (wfWalkerEvict part = true) ∧ (1024 ≤ freeFrames s part)) ∧
    (∃ (s : State) (g : Nat), (wfSegmentRebuildDone g = true) ∧ ((s.range.movers.any fun j => j.2.kind == .rebuild g) = true)) ∧
    (∃ (s : State) (c : Nat) (msn : Nat) (d : Nat) (k : Conn) (m : Msg) (x : RangeX), (wfValleyDirectTimer c msn = true) ∧ (connOf s c = some k) ∧ (msgOf s (connIdx c) msn = some m) ∧ (msgDeadline s m = some d) ∧ (rangeOf m.first = some x) ∧ (m.parked = true) ∧ (m.first.ty = tyRead)) ∧
    (∃ (s : State) (n : Nat) (t : Topo) (b : _), (wfMarkerLogTimer n = true) ∧ (tget s.tables.topos n = some t) ∧ (t.marker ≠ t.logged) ∧ (t.loggedAt = some b)) ∧
    (∃ (s : State) (n : Nat) (t : Topo), (wfMarkerLogTimer n = true) ∧ (tget s.tables.topos n = some t) ∧ (t.marker ≠ t.logged) ∧ (t.loggedAt = none)) :=
  ⟨⟨sl 255 { st := .clean }, 255, 255, by decide +kernel⟩,
    ⟨{ r0 with camp.liveMap := [0], camp.ch := [(0, { spd := [{ pkg := 1 }, { pkg := 1 }] })] }, 255, by decide +kernel⟩,
    ⟨{ r0 with range.movers := [(0, ⟨4, .rebuild 5, 0⟩)] }, 5, by decide +kernel⟩,
    ⟨{ cst { cn with msgs := [(1, vms)] } with tables.regions := [(3, rgn)] }, 16386, 1, us 8, { cn with msgs := [(1, vms)] }, vms, ⟨0, 0, 64⟩, by decide +kernel⟩,
    ⟨{ r0 with tables.topos := [(1023, { tpo with loggedAt := some 5 })] }, 1023, { tpo with loggedAt := some 5 }, 5, by decide +kernel⟩,
    ⟨{ r0 with tables.topos := [(1023, tpo)] }, 1023, tpo, by decide +kernel⟩⟩

theorem witness_CampRefreshAndTimers :
    (∃ (s : State) (t : State) (ch : Nat) (sub : Nat), (wfDdrCommandIssue ch sub = true) ∧ (chState s ch = 2) ∧ (let k := ch * 2 + sub; let u := markThrottled (measure s) k; let q := subQ u k; rankOne (setSubQ u k { q with drain := decide (getF u Reg.campSchedCfgWqHigh ≤ q.wr.length) || (q.drain && decide (getF u Reg.campSchedCfgWqLow < q.wr.length)) }) k = some t)) ∧
    (∃ (s : State) (ch : Nat) (sub : Nat) (l : _) (x : _), (wfDdrCommandIssue ch sub = true) ∧ (chState s ch = 2) ∧ (let k := ch * 2 + sub; let u := markThrottled (measure s) k; let q := subQ u k; let v := setSubQ u k { q with drain := decide (getF u Reg.campSchedCfgWqHigh ≤ q.wr.length) || (q.drain && decide (getF u Reg.campSchedCfgWqLow < q.wr.length)) }; rankOne v k = none) ∧ (let k := ch * 2 + sub; let u := markThrottled (measure s) k; let q := subQ u k; let v := setSubQ u k { q with drain := decide (getF u Reg.campSchedCfgWqHigh ≤ q.wr.length) || (q.drain && decide (getF u Reg.campSchedCfgWqLow < q.wr.length)) }; (candRanks v k).findSome? (fun l => (pickCand v (subQ v k).ptr l).map fun x => (l, x)) = some (l, x))) ∧
    (∃ (s : State) (ch : Nat) (rank : Nat), (wfRefreshInterval ch rank = true) ∧ (chState s ch = 2) ∧ (rank < (campCh s ch).ranks)) ∧
    (∃ (s : State) (ch : Nat) (rank : Nat) (_b : Bool), (wfMr4Poll ch rank = true) ∧ (chState s ch = 2) ∧ (rank < (campCh s ch).ranks)) ∧
    (∃ (s : State) (rk : Nat), (rankSt s rk = { debt := 8 }) ∧ (s.camp.open_ = [])) ∧
    (∃ (s : State) (ch : Nat) (d : Nat) (c : Nat), (wfDimmTempPoll ch d c = true) ∧ (d < (campCh s ch).dimms) ∧ (d ∉ (campCh s ch).hotDimms) ∧ (getF s Reg.campRefCfgDimmHotC ≤ c)) ∧
    (∃ (s : State) (b : Nat) (i : Nat) (x : Throttle), (wfRfgToken b i = true) ∧ (tget (bankSt s b).thr i = some x)) ∧
    (∃ (s : State) (b : Nat) (i : Nat) (x : Throttle), (wfRfgHoldExpiry b i = true) ∧ (tget (bankSt s b).thr i = some x)) ∧
    (∃ (s : State) (ch : Nat) (r : Nat), (ch < 16) ∧ (chState s ch = 2) ∧ (r < (campCh s ch).ranks) ∧ (r < 16)) ∧
    (∃ (s : State) (ch : Nat) (r : Nat) (ps : Nat), (wfDqsoscRead ch r = true) ∧ (chState s ch = 2) ∧ (r < (campCh s ch).ranks) ∧ (ps ≤ getF s Reg.campRefCfgRetrainPs)) ∧
    (∃ (s : State) (ch : Nat) (r : Nat) (ps : Nat), (wfDqsoscRead ch r = true) ∧ (chState s ch = 2) ∧ (r < (campCh s ch).ranks) ∧ (getF s Reg.campRefCfgRetrainPs < ps)) ∧
    (∃ (s : State) (ch : Nat) (r : Nat) (b : Nat), (wfCentringEscalation ch r = true) ∧ (tget s.camp.centring (ch * 32 + r) = some b)) ∧
    (∃ (s : State) (n : Nat) (f : Nat), (wfFrameMoveDone n = true) ∧ (tget s.camp.moves n = some f) ∧ ((slabOf s n).st = .clean)) ∧
    (∃ (s : State) (p : CampPort) (b : Nat), (tget (measure s).camp.raised (whKey p) = some b) ∧ (p ∈ (measure s).camp.whistle)) ∧
    (∃ (s : State) (ch : Nat) (d : Nat), (wfCampTrainStageDone ch = true) ∧ (chState s ch = 1) ∧ ((campCh s ch).stage = 2) ∧ ((campCh s ch).dimm = d)) ∧
    (∃ (s : State) (ch : Nat) (_l : List DimmSpd), (wfCampTrainStageDone ch = true) ∧ (chState s ch = 1) ∧ ((campCh s ch).stage = 1)) ∧
    (∃ (s : State) (ch : Nat) (g : Nat), (wfCampTrainStageDone ch = true) ∧ (chState s ch = 1) ∧ ((campCh s ch).stage = 5) ∧ ((campCh s ch).group = g) ∧ ((campCh s ch).groups ≤ g + 1) ∧ ((campCh s ch).reinit = false)) ∧
    (∃ (s : State) (ch : Nat), (wfCampTrainStageDone ch = true) ∧ (chState s ch = 1) ∧ ((campCh s ch).stage = 6) ∧ (s.camp.pendingRows = [])) ∧
    (∃ (s : State) (cpa : Nat) (w : Bytes) (_p : CampPort), (wfCampReadDone cpa w = true) ∧ (chState s (campLoc s cpa).ch = 2) ∧ (s.code.merges = []) ∧ (decodeWord (w.map (·.toNat)) ((tget s.code.marked (rankKey (campLoc s cpa))).map (·.1)) = .clean)) ∧
    (∃ (s : State) (cpa : Nat) (w : Bytes) (_p : CampPort), (wfCampReadDone cpa w = true) ∧ (chState s (campLoc s cpa).ch = 2)) :=
  ⟨⟨chrank, chref, 15, 1, by decide +kernel⟩,
    ⟨{ chn with camp.q := [(31, { rd := [⟨.demand, 0, 0, 0, 0, 0⟩] })], camp.liveMap := [15] }, 15, 1, [(false, ⟨.demand, 0, 0, 0, 0, 0⟩)], (false, ⟨.demand, 0, 0, 0, 0, 0⟩), by decide +kernel⟩,
    ⟨fld [(Reg.campChStatusState 15, 2)] { r0 with camp.ch := [(15, { spd := [{ pkg := 1 }, { pkg := 1 }] })] }, 15, 1, by decide +kernel⟩,
    ⟨fld [(Reg.campChStatusState 15, 2)] { r0 with camp.ch := [(15, { spd := [{ pkg := 1 }, { pkg := 1 }] })] }, 15, 1, true, by decide +kernel⟩,
    ⟨{ r0 with camp.rank := [(5, { debt := 8 })] }, 5, by decide +kernel⟩,
    ⟨fld [(Reg.campChStatusState 15, 2)] { r0 with camp.ch := [(15, { spd := [{ pkg := 1 }, { pkg := 1 }] })] }, 15, 1, 95, by decide +kernel⟩,
    ⟨{ r0 with camp.bank := [(9, { thr := [(4, ⟨none, 1, 4, 2, 9⟩)] })] }, 9, 4, ⟨none, 1, 4, 2, 9⟩, by decide +kernel⟩,
    ⟨{ r0 with camp.bank := [(9, { thr := [(4, ⟨none, 1, 4, 2, 9⟩)] })] }, 9, 4, ⟨none, 1, 4, 2, 9⟩, by decide +kernel⟩,
    ⟨fld [(Reg.campChStatusState 15, 2)] { r0 with camp.ch := [(15, { spd := [{ pkg := 1 }, { pkg := 1 }] })] }, 15, 1, by decide +kernel⟩,
    ⟨fld [(Reg.campChStatusState 15, 2)] { r0 with camp.ch := [(15, { spd := [{ pkg := 1 }, { pkg := 1 }] })] }, 15, 1, 0, by decide +kernel⟩,
    ⟨chn, 15, 1, 65536, by decide +kernel⟩,
    ⟨{ r0 with camp.centring := [(481, 9)] }, 15, 1, 9, by decide +kernel⟩,
    ⟨{ sl 3 { st := .clean } with camp.moves := [(3, 8)] }, 3, 8, by decide +kernel⟩,
    ⟨{ st stBivouac with seq.bivStep := 4 }, .bivouac, 0, by decide +kernel⟩,
    ⟨fld [(Reg.campChStatusState 15, 1)] { r0 with camp.ch := [(15, { spd := [{}, {}], stage := 2, dimm := 1 })] }, 15, 1, by decide +kernel⟩,
    ⟨chn { stage := 1 } 1, 15, [], by decide +kernel⟩,
    ⟨chn { spd := [{}], stage := 5 } 1, 15, 0, by decide +kernel⟩,
    ⟨fld [(Reg.campChStatusState 15, 1)] { r0 with camp.ch := [(15, { spd := [{}, {}], stage := 6 })] }, 15, by decide +kernel⟩,
    ⟨{ fld [(Reg.campChStatusState 15, 2)] r0 with camp.liveMap := [15] }, 0, zeros 80, .demand, by decide +kernel⟩,
    ⟨{ fld [(Reg.campChStatusState 15, 2)] r0 with camp.liveMap := [15] }, 0, zeros 80, .demand, by decide +kernel⟩⟩

theorem witness_ValleyReads :
    (∃ (s : State) (v : Nat) (cw : Nat) (_bits : Nat) (level : DecodeLevel), (wfValleyReadDone v cw = true) ∧ (levelNum (levelReached s v level) < 4)) ∧
    (∃ (s : State) (v : Nat) (cw : Nat) (_bits : Nat) (level : DecodeLevel), (wfValleyReadDone v cw = true) ∧ (levelReached s v level = .l4)) ∧
    (∃ (s : State) (v : Nat) (cw : Nat) (_bits : Nat) (level : DecodeLevel), (wfValleyReadDone v cw = true) ∧ (levelReached s v level = .failed)) ∧
    (∃ (s : State) (v : Nat), (dieDown s (vDie v) = true)) ∧
    (∃ (s : State) (d : Nat), (wfNandResetTimeout d = true) ∧ ((dieOf s d).failed = true)) ∧
    (∃ (s : State) (d : Nat), (wfNandResetTimeout d = true) ∧ ((dieOf s d).failed = false)) ∧
    (∃ (s : State) (d : Nat), (wfNandResetTimeout d = true) ∧ ((dieOf s d).failed = false) ∧ (let u := logEv (putF (setDie s d { dieOf s d with failed := true }) (Reg.valNvStatusFailedDies (d / 32)) (d % 32) true) (srcValley (d / 32)) .dieFailed (d % 32) [d / 32, d % 32] true; diePagesLive u d = []) ∧ (let u := logEv (putF (setDie s d { dieOf s d with failed := true }) (Reg.valNvStatusFailedDies (d / 32)) (d % 32) true) (srcValley (d / 32)) .dieFailed (d % 32) [d / 32, d % 32] true; let w := writeRoot u (rootStop u); diePagesLive w d = [])) ∧
    (∃ (_s : State) (d : Nat), (wfNandResetTimeout d = true)) ∧
    (∃ (s : State) (d : Nat), (wfProgramWaitExpiry d = true) ∧ (((dieOf s d).wait.any fun w => decide (4 ≤ w.rank)) = true)) ∧
    (∃ (s : State) (v : Nat) (_bits : Nat) (_level : DecodeLevel), (wfVerifyPassRead (.tlc v) = true) ∧ (thas s.val.pages v = false)) ∧
    (∃ (s : State) (v : Nat) (_bits : Nat) (level : DecodeLevel) (x : Page), (wfVerifyPassRead (.tlc v) = true) ∧ (tget s.val.pages v = some x) ∧ (pageLive s (v, x) = true) ∧ (1 ≤ levelNum (levelReached s v level)) ∧ (levelNum (levelReached s v level) < 4)) ∧
    (∃ (s : State) (b : Nat) (n : Nat) (_bits : Nat) (level : DecodeLevel), (wfVerifyPassRead (.slc b n) = true) ∧ (isSys s b = true) ∧ (n < slcPages s) ∧ (levelNum level < 4)) ∧
    (∃ (s : State) (p : VerifyPage), (p ∉ s.val.verified) ∧ (s.val.verified.length + 1 < passPages s)) ∧
    (∃ (s : State) (p : VerifyPage), (p ∈ s.val.verified) ∧ (s.val.verified.length < passPages s)) ∧
    (∃ (s : State) (p : VerifyPage), (p ∉ s.val.verified) ∧ (passPages s ≤ s.val.verified.length + 1)) ∧
    (∃ (s : State) (p : VerifyPage) (b : _), (p ∉ s.val.verified) ∧ (passPages s ≤ s.val.verified.length + 1) ∧ (b ∈ (verifyNext s p).val.blocks)) :=
  ⟨⟨r0, 5, 3, 2, .l3, by decide +kernel⟩,
    ⟨{ r0 with val.stripes := [(5 * 32, {})] }, 5, 3, 2, .l4, by decide +kernel⟩,
    ⟨r0, 5, 3, 2, .failed, by decide +kernel⟩,
    ⟨{ r0 with val.dies := [(0, { failed := true })] }, 5, by decide +kernel⟩,
    ⟨{ r0 with val.dies := [(1023, { failed := true })] }, 1023, by decide +kernel⟩,
    ⟨r0, 1023, by decide +kernel⟩,
    ⟨r0, 1023, by decide +kernel⟩,
    ⟨r0, 1023, by decide +kernel⟩,
    ⟨{ r0 with val.dies := [(3, { wait := [.prog 7] })] }, 3, by decide +kernel⟩,
    ⟨r0, 7, 0, .l0, by decide +kernel⟩,
    ⟨{ sl 3 { st := .clean, vloc := some 7 } with val.pages := [(7, pg 3)] }, 7, 0, .l3, pg 3, by decide +kernel⟩,
    ⟨r0, 0, 0, 0, .l3, by decide +kernel⟩,
    ⟨{ r0 with val.jrnl := [jp, jp] }, .slc 0 0, by decide +kernel⟩,
    ⟨{ r0 with val.jrnl := [jp, jp], val.verified := [.slc 0 0] }, .slc 0 0, by decide +kernel⟩,
    ⟨r0, .slc 0 0, by decide +kernel⟩,
    ⟨{ r0 with val.blocks := [(7, { l4 := 2 })] }, .slc 0 0, (7, { l4 := 0 }), by decide +kernel⟩⟩

theorem witness_ValleyPrograms :
    (∃ (s : State) (v : Nat) (_pct : Nat) (_ok : Bool), (wfValleyProgramDone v = true) ∧ ((tget s.val.progs v = none ∨ progRuns s v = false))) ∧
    (∃ (s : State) (v : Nat) (pct : Nat) (n : Nat) (frm : Nat) (pg : Page), (wfValleyProgramDone v = true) ∧ (progRuns s v = true) ∧ (tget s.val.progs v = some (.relocate n frm pg)) ∧ (pct ≤ 200)) ∧
    (∃ (s : State) (v : Nat) (pct : Nat) (k : ProgKind), (wfValleyProgramDone v = true) ∧ (progRuns s v = true) ∧ (tget s.val.progs v = some k) ∧ (200 < pct)) ∧
    (∃ (s : State) (v : Nat) (_pct : Nat) (st : Nat), (wfValleyProgramDone v = true) ∧ (progRuns s v = true) ∧ (tget s.val.progs v = some (.parity st))) ∧
    (∃ (s : State) (b : Nat) (_pct : Nat) (_ok : Bool), (wfValleyEraseDone b = true) ∧ (((blockOf s b).intent = none ∨ (dieOf s (blockDie b)).run ≠ some (.erase b)))) ∧
    (∃ (s : State) (b : Nat) (pct : Nat) (i : Nat), (wfValleyEraseDone b = true) ∧ ((blockOf s b).intent = some i) ∧ ((dieOf s (blockDie b)).run = some (.erase b)) ∧ (pct ≤ 200)) ∧
    (∃ (s : State) (b : Nat) (pct : Nat) (i : Nat), (wfValleyEraseDone b = true) ∧ ((blockOf s b).intent = some i) ∧ ((dieOf s (blockDie b)).run = some (.erase b)) ∧ (200 < pct)) ∧
    (∃ (s : State) (b : Nat) (p : _), (p ∈ (eraseEnds s b true).val.pages)) :=
  ⟨⟨r0, 7, 0, true, by decide +kernel⟩,
    ⟨{ r0 with val.progs := [(7, .relocate 3 9 (pg 3))], val.dies := [(0, { run := some (.prog 7) })] }, 7, 200, 3, 9, pg 3, by decide +kernel⟩,
    ⟨{ r0 with val.progs := [(7, .parity 3)], val.dies := [(0, { run := some (.prog 7) })] }, 7, 201, .parity 3, by decide +kernel⟩,
    ⟨{ r0 with val.progs := [(7, .parity 3)], val.dies := [(0, { run := some (.prog 7) })] }, 7, 0, 3, by decide +kernel⟩,
    ⟨r0, 7, 0, true, by decide +kernel⟩,
    ⟨{ r0 with val.blocks := [(7, { intent := some 4 })], val.dies := [(7 * 32, { run := some (.erase 7) })] }, 7, 200, 4, by decide +kernel⟩,
    ⟨{ r0 with val.blocks := [(7, { intent := some 4 })], val.dies := [(7 * 32, { run := some (.erase 7) })] }, 7, 201, 4, by decide +kernel⟩,
    ⟨{ r0 with val.pages := [(2 ^ 24, pg 3)] }, 7, (2 ^ 24, pg 3), by decide +kernel⟩⟩

theorem witness_StoredTimers :
    (∃ (s : State) (k : Nat) (x : Stripe), (tget s.val.stripes k = some x)) ∧
    (∃ (s : State) (k : Nat) (x : Stripe), (tget s.val.stripes k = some x) ∧ (stripeBusy s k = false)) ∧
    (∃ (s : State) (b : Nat), (s.val.jrnlSince = some b)) ∧
    (∃ (s : State) (b : Nat), (s.val.tlogSince = some b)) ∧
    (∃ (s : State), (s.log.loaded = true) ∧ (s.log.changed = true) ∧ (s.log.recs ≠ []) ∧ (s.log.recs.length ≤ 255)) ∧
    (∃ (s : State), ((s.log.loaded = false ∨ s.log.changed = false))) ∧
    (∃ (s : State) (b : Nat), (s.cairn.lastFlush = some b) ∧ (s.timebase < b + sec 3600)) ∧
    (∃ (s : State) (b : Nat), (s.cairn.lastFlush = some b) ∧ (b + sec 3600 ≤ s.timebase)) :=
  ⟨⟨{ r0 with val.stripes := [(3, { pages := [1] })] }, 3, { pages := [1] }, by decide +kernel⟩,
    ⟨{ r0 with val.stripes := [(3, { pages := [1] })] }, 3, { pages := [1] }, by decide +kernel⟩,
    ⟨{ r0 with val.jrnlSince := some 4 }, 4, by decide +kernel⟩,
    ⟨{ r0 with val.tlogSince := some 4 }, 4, by decide +kernel⟩,
    ⟨{ r0 with log.loaded := true, log.changed := true, log.recs := [⟨1, 1, 0, .timeMark, 0, false, false, []⟩] }, by decide +kernel⟩,
    ⟨r0, by decide +kernel⟩,
    ⟨{ r0 with cairn.lastFlush := some 4, timebase := 3 + sec 3600 }, 4, by decide +kernel⟩,
    ⟨{ r0 with cairn.lastFlush := some 4, timebase := 4 + sec 3600 }, 4, by decide +kernel⟩⟩

theorem witness_CairnService :
    (∃ (s : State) (n : Nat) (tries : Nat), (n < 4096) ∧ (csProtected s (n * 4096) = false) ∧ (tries ≤ 3)) ∧
    (∃ (s : State) (n : Nat) (_tries : Nat), (n < 4096) ∧ (csProtected s (n * 4096) = true)) ∧
    (∃ (_s : State) (n : Nat) (_tries : Nat), (4096 ≤ n)) ∧
    (∃ (s : State) (off : Nat) (tries : Nat) (d : Bytes), (wfCsProgram d = true) ∧ (off % 256 = 0) ∧ (off < 0x1000000) ∧ (csProtected s off = false) ∧ (tries ≤ 4)) ∧
    (∃ (s : State) (off : Nat) (tries : Nat) (d : Bytes), (wfCsProgram d = true) ∧ (off % 256 = 0) ∧ (off < 0x1000000) ∧ (csProtected s off = false) ∧ (4 < tries) ∧ (9 ≤ getF s Reg.valCairnStatusSparesLeft)) ∧
    (∃ (s : State) (off : Nat) (tries : Nat) (d : Bytes), (wfCsProgram d = true) ∧ (off % 256 = 0) ∧ (off < 0x1000000) ∧ (csProtected s off = false) ∧ (4 < tries) ∧ (getF s Reg.valCairnStatusSparesLeft = 0)) ∧
    (∃ (_s : State) (off : Nat) (len : Nat) (g : Bytes) (_r : Bytes), (wfCsVerify g = true) ∧ (off + len ≤ 0x1000000)) ∧
    (∃ (s : State) (n : Nat), (n < 2) ∧ (bankRunning s ≠ some n)) ∧
    (∃ (s : State) (n : Nat), (n < 2) ∧ (bankRunning s ≠ some n)) ∧
    (∃ (_s : State) (b : Nat) (_i : BankImage), (wfCsBankVerify b = true)) ∧
    (∃ (s : State) (b : Nat) (i : BankImage), (wfCsBankVerify b = true) ∧ (i.secVersion < fuseSecCounter s)) :=
  ⟨⟨r0, 4079, 3, by decide +kernel⟩,
    ⟨fld [(Reg.fabStartStatusBank, 0)] (stg 5), 16, 0, by decide +kernel⟩,
    ⟨r0, 4096, 0, by decide +kernel⟩,
    ⟨r0, 256, 4, zeros 256, by decide +kernel⟩,
    ⟨fld [(Reg.valCairnStatusSparesLeft, 9)] r0, 256, 5, zeros 256, by decide +kernel⟩,
    ⟨fld [(Reg.valCairnStatusSparesLeft, 0)] r0, 256, 5, zeros 256, by decide +kernel⟩,
    ⟨r0, 0x0FFFFFF, 1, zeros 48, zeros 32, by decide +kernel⟩,
    ⟨r0, 1, by decide +kernel⟩,
    ⟨r0, 1, by decide +kernel⟩,
    ⟨r0, 1, {}, by decide +kernel⟩,
    ⟨{ r0 with fuse := [(68, 2)] }, 1, {}, by decide +kernel⟩⟩

theorem witness_Protection :
    (∃ (s : State) (l : Nat) (k : Nat) (_d : Bytes), (wfLineRepairDone l = true) ∧ (tget s.code.repairing l = some k) ∧ (k ≠ 2)) ∧
    (∃ (s : State) (l : Nat) (_d : Option Bytes), (wfLineRepairDone l = true) ∧ (tget s.code.repairing l = some 2)) ∧
    (∃ (s : State) (l : Nat) (k : Nat), (wfLineRepairDone l = true) ∧ (tget s.code.repairing l = some k) ∧ (k ≠ 2)) ∧
    (∃ (s : State) (w : Bytes), (wfScrubStep w = true) ∧ (isSet s Reg.campCodeCfgScrubEn = false)) ∧
    (∃ (s : State) (w : Bytes), (wfScrubStep w = true) ∧ (isSet s Reg.campCodeCfgScrubEn = true) ∧ (chState s (campLoc s s.code.patrol).ch ≠ 2) ∧ (s.code.patrol + 64 < campGib s * 2 ^ 30)) ∧
    (∃ (s : State) (w : Bytes) (e : _), (wfScrubStep w = true) ∧ (isSet s Reg.campCodeCfgScrubEn = true) ∧ (campGib s ≠ 0) ∧ (chState s (campLoc s s.code.patrol).ch = 2) ∧ (let m := (tget s.code.marked (rankKey (campLoc s s.code.patrol))).map (·.1); decodeWord (w.map (·.toNat)) m = .corrected e)) ∧
    (∃ (s : State) (w : Bytes), (wfScrubStep w = true) ∧ (isSet s Reg.campCodeCfgScrubEn = true) ∧ (campGib s ≠ 0) ∧ (chState s (campLoc s s.code.patrol).ch = 2) ∧ (let m := (tget s.code.marked (rankKey (campLoc s s.code.patrol))).map (·.1); (∀ e, decodeWord (w.map (·.toNat)) m ≠ .corrected e))) ∧
    (∃ (s : State) (st : SramStore) (a : Nat), (isSet s Reg.campCodeCfgScrubEn = true) ∧ (tget s.code.win.sram (sramKey st a) = none) ∧ (1 < getF s Reg.campCodeCfgSramThresh)) ∧
    (∃ (s : State) (_st : SramStore) (_a : Nat) (bad : Nat), (isSet s Reg.campCodeCfgScrubEn = true) ∧ (2 ≤ bad)) ∧
    (∃ (s : State) (_st : SramStore) (_a : Nat), (isSet s Reg.campCodeCfgScrubEn = true)) :=
  ⟨⟨{ r0 with code.repairing := [(9, 4)] }, 9, 4, zeros 64, by decide +kernel⟩,
    ⟨{ r0 with code.repairing := [(9, 2)] }, 9, none, by decide +kernel⟩,
    ⟨{ r0 with code.repairing := [(9, 4)] }, 9, 4, by decide +kernel⟩,
    ⟨fld [(Reg.campCodeCfgScrubEn, 0)] r0, zeros 80, by decide +kernel⟩,
    ⟨{ fld [(Reg.campCodeCfgScrubEn, 1)] r0 with camp.liveMap := [0], camp.ch := [(0, { spd := [{ gib := 8 }] })] }, zeros 80, by decide +kernel⟩,
    ⟨{ fld [(Reg.campCodeCfgScrubEn, 1), (Reg.campChStatusState 0, 2)] r0 with camp.liveMap := [0], camp.ch := [(0, { spd := [{ gib := 8 }] })] }, 7 :: zeros 79, oneErr, by decide +kernel⟩,
    ⟨{ fld [(Reg.campCodeCfgScrubEn, 1), (Reg.campChStatusState 0, 2)] r0 with camp.liveMap := [0], camp.ch := [(0, { spd := [{ gib := 8 }] })] }, zeros 80, by refine ⟨?_, ?_, ?_, ?_, ?_⟩ <;> (first | rfl | decide +kernel | exact ⟨rfl, rfl, rfl, rfl, by decide +kernel, by decide +kernel⟩ | exact ⟨rfl, by decide, rfl, rfl, rfl, rfl, rfl, rfl, rfl⟩ | nofun)⟩,
    ⟨fld [(Reg.campCodeCfgScrubEn, 1), (Reg.campCodeCfgSramThresh, 2)] r0, .ingress, 7, by decide +kernel⟩,
    ⟨fld [(Reg.campCodeCfgScrubEn, 1)] r0, .ingress, 7, 2, by decide +kernel⟩,
    ⟨fld [(Reg.campCodeCfgScrubEn, 1)] r0, .ingress, 7, by decide +kernel⟩⟩

theorem witness_Summit :
    (∃ (s : State) (l : Nat) (key : Nat), (wfSummitFillDone l = true) ∧ (tget s.sum.fills l = some key) ∧ ((s.sum.evicting.any fun x => x.2 == key) = false) ∧ (zeroLine s l = false) ∧ (bitF s Reg.sumStatusWaysOn (key % 16) = true) ∧ (key ∉ s.code.disabled) ∧ (s.sum.stopped = false)) ∧
    (∃ (s : State) (l : Nat) (key : Nat), (wfSummitFillDone l = true) ∧ (tget s.sum.fills l = some key) ∧ ((s.sum.evicting.any fun x => x.2 == key) = false) ∧ ((bitF s Reg.sumStatusWaysOn (key % 16) = false ∨ key ∈ s.code.disabled ∨ s.sum.stopped = true))) ∧
    (∃ (s : State) (l : Nat), (wfSummitFillDone l = true) ∧ (tget s.sum.fills l = none)) ∧
    (∃ (s : State) (l : Nat) (key : Nat), (wfDirtyEvictAdmitted l = true) ∧ (tget s.sum.evicting l = some key) ∧ ((s.sum.fills.find? fun x => x.2 == key) = none)) ∧
    (∃ (s : State) (l : Nat) (key : Nat) (f : Nat × Nat), (wfDirtyEvictAdmitted l = true) ∧ (tget s.sum.evicting l = some key) ∧ ((s.sum.fills.find? fun x => x.2 == key) = some f)) ∧
    (∃ (s : State) (off : Nat) (d : Bytes), (wfLockWaysWrite off d = true) ∧ (s.mgmt.linkUp = true)) ∧
    (∃ (s : State) (off : Nat) (d : Bytes), (wfLockWaysWrite off d = true) ∧ (s.mgmt.linkUp = false)) ∧
    (∃ (s : State) (v : Nat), (lockWaysBad s v = true)) ∧
    (∃ (s : State) (v : Nat), (lockWaysBad s v = false) ∧ (lockWays s < v) ∧ (s.sum.raising = none) ∧ (s.sum.walks = [])) ∧
    (∃ (s : State), (s.sum.walks = [])) ∧
    (∃ (s : State) (w : Nat) (v : Nat), (s.sum.walks = [.lock w]) ∧ (s.sum.raising = some v) ∧ (v ≤ 8) ∧ ((∀ k ∈ tkeys s.sum.lines, k % 16 ≠ w))) ∧
    (∃ (s : State) (w : Nat), (s.sum.walks = [.off w none]) ∧ (w < 16) ∧ ((∀ k ∈ tkeys s.sum.lines, k % 16 ≠ w))) :=
  ⟨⟨fld [(Reg.sumStatusWaysOn, 2^16 - 1)] { sl 3 { st := .clean } with sum.fills := [(768, 31)] }, 768, 31, by decide +kernel⟩,
    ⟨{ r0 with sum.fills := [(768, 31)], sum.stopped := true }, 768, 31, by decide +kernel⟩,
    ⟨r0, 5, by decide +kernel⟩,
    ⟨{ r0 with sum.evicting := [(768, 31)] }, 768, 31, by decide +kernel⟩,
    ⟨{ r0 with sum.evicting := [(768, 31)], sum.fills := [(5, 31)] }, 768, 31, (5, 31), by decide +kernel⟩,
    ⟨win, 0x90004, zeros 4, by decide +kernel⟩,
    ⟨r0, 0x90000, zeros 8, by decide +kernel⟩,
    ⟨r0, 9, by decide +kernel⟩,
    ⟨fld [(Reg.sumStatusWaysOn, 2^16 - 1)] r0, 8, by decide +kernel⟩,
    ⟨r0, by decide +kernel⟩,
    ⟨{ r0 with sum.walks := [.lock 3], sum.raising := some 8 }, 3, 8, by decide +kernel⟩,
    ⟨{ r0 with sum.walks := [.off 15 none] }, 15, by decide +kernel⟩⟩

theorem witness_Keys :
    (∃ (s : State) (_ok : Bool), (s.key.queue = [])) ∧
    (∃ (s : State) (_ok : Bool) (r : CipherReq) (rest : List CipherReq) (k : KeySlot), (s.key.queue = r :: rest) ∧ (tget s.key.slots r.slot = some k) ∧ (k.keyLost = true) ∧ (thas s.key.roots k.root = true) ∧ (s.key.queue.length < 4096)) ∧
    (∃ (s : State) (r : CipherReq) (rest : List CipherReq) (k : KeySlot) (c : Nat) (m : Nat) (u : Nat) (_ok : Bool), (s.key.queue = r :: rest) ∧ (tget s.key.slots r.slot = some k) ∧ (k.keyLost = false) ∧ (r.use = .title c m u) ∧ (cipherAwake s = true) ∧ (s.key.queue.length < 4096)) ∧
    (∃ (s : State) (r : CipherReq) (rest : List CipherReq) (k : KeySlot) (t : Nat) (u : Nat) (_ok : Bool), (s.key.queue = r :: rest) ∧ (tget s.key.slots r.slot = some k) ∧ (k.keyLost = false) ∧ (r.use = .unseal t u) ∧ (cipherAwake s = true) ∧ (s.key.queue.length < 4096)) ∧
    (∃ (s : State) (_ok : Bool), (cipherAwake s = false) ∧ (s.key.queue.length < 4096)) ∧
    (∃ (s : State) (_ok : Bool), (4096 ≤ s.key.queue.length)) ∧
    (∃ (s : State) (r : CipherReq) (rest : List CipherReq) (c : Nat) (m : Nat) (u : Nat) (_ok : Bool), (s.key.queue = r :: rest) ∧ (tget s.key.slots r.slot = none) ∧ (r.use = .title c m u) ∧ (cipherAwake s = true) ∧ (s.key.queue.length < 4096)) ∧
    (∃ (s : State) (n : Nat) (k : KeySlot) (r : RootKey) (b : Bytes), (wfKeyDerivationDone n = true) ∧ (tget s.key.slots n = some k) ∧ (tget s.key.roots k.root = some r) ∧ (r.key = some b)) ∧
    (∃ (s : State) (n : Nat) (r : RootKey) (b : Bytes), (wfRootReunwrap n = true) ∧ (tget s.key.roots n = some r) ∧ (r.key = none) ∧ (tget s.key.blobs n = some b)) ∧
    (∃ (s : State) (n : Nat) (r : RootKey), (wfRootReunwrap n = true) ∧ (tget s.key.roots n = some r) ∧ (r.key.isSome = true)) ∧
    (∃ (_s : State) (u : Nat), (wfKnownAnswerTest u = true)) ∧
    (∃ (_s : State) (u : Nat), (u < 16)) ∧
    (∃ (_s : State) (u : Nat), (u < 16)) ∧
    (∃ (_s : State) (u : Nat), (wfKnownAnswerTest u = true)) :=
  ⟨⟨r0, true, by decide +kernel⟩,
    ⟨{ r0 with key.queue := [⟨5, .title 2 1 0⟩], key.slots := [(5, { title := true, root := 1, label := [], limit := 20, auto := false, genMax := 4, keyLost := true })], key.roots := [(1, ⟨1, 9, none⟩)] }, true, ⟨5, .title 2 1 0⟩, [], { title := true, root := 1, label := [], limit := 20, auto := false, genMax := 4, keyLost := true }, by decide +kernel⟩,
    ⟨{ setDom r0 90 true with key.queue := [⟨5, .title 2 1 0⟩], key.slots := [(5, { title := true, root := 1, label := [], limit := 20, auto := false, genMax := 4 })] }, ⟨5, .title 2 1 0⟩, [], { title := true, root := 1, label := [], limit := 20, auto := false, genMax := 4 }, 2, 1, 0, true, by decide +kernel⟩,
    ⟨{ setDom r0 90 true with key.queue := [⟨5, .unseal 2 1⟩], key.slots := [(5, { title := true, root := 1, label := [], limit := 20, auto := false, genMax := 4 })] }, ⟨5, .unseal 2 1⟩, [], { title := true, root := 1, label := [], limit := 20, auto := false, genMax := 4 }, 2, 1, true, by decide +kernel⟩,
    ⟨r0, true, by decide +kernel⟩,
    ⟨{ r0 with key.queue := List.replicate 4096 ⟨5, .title 2 1 0⟩ }, true, by decide +kernel⟩,
    ⟨{ setDom r0 90 true with key.queue := [⟨5, .title 2 1 0⟩] }, ⟨5, .title 2 1 0⟩, [], 2, 1, 0, true, by decide +kernel⟩,
    ⟨{ r0 with key.slots := [(5, { title := true, root := 1, label := [], limit := 20, auto := false, genMax := 4, keyLost := true })], key.roots := [(1, ⟨1, 9, some [7]⟩)] }, 5, { title := true, root := 1, label := [], limit := 20, auto := false, genMax := 4, keyLost := true }, ⟨1, 9, some [7]⟩, [7], by decide +kernel⟩,
    ⟨{ r0 with key.roots := [(15, ⟨1, 9, none⟩)], key.blobs := [(15, zeros 64)] }, 15, ⟨1, 9, none⟩, zeros 64, by decide +kernel⟩,
    ⟨{ r0 with key.roots := [(15, ⟨1, 9, some []⟩)] }, 15, ⟨1, 9, some []⟩, by decide +kernel⟩,
    ⟨r0, 7, by decide +kernel⟩,
    ⟨r0, 15, by decide +kernel⟩,
    ⟨r0, 15, by decide +kernel⟩,
    ⟨r0, 7, by decide +kernel⟩⟩

theorem witness_RopeFramesAndFills :
    (∃ (s : State) (h : RopeHdr) (_b : Bool), ((ropeInst s h.inst).up = false)) ∧
    (∃ (s : State) (h : RopeHdr) (_b : Bool), ((ropeInst s h.inst).up = true) ∧ (s.start.inReset = false) ∧ (h.epoch < s.cairn.epoch)) ∧
    (∃ (s : State) (h : RopeHdr), ((ropeInst s h.inst).up = true) ∧ (s.start.inReset = false) ∧ (h.epoch = s.cairn.epoch) ∧ (h.seq = (ropeInst s h.inst).rx)) ∧
    (∃ (s : State) (h : RopeHdr), ((ropeInst s h.inst).up = true) ∧ (s.start.inReset = false) ∧ (h.epoch = s.cairn.epoch) ∧ (h.seq ≠ (ropeInst s h.inst).rx)) ∧
    (∃ (s : State) (h : RopeHdr), (wfRopeAck h = true) ∧ ((ropeInst s h.inst).up = true) ∧ (s.start.inReset = false) ∧ (h.epoch = s.cairn.epoch)) ∧
    (∃ (s : State) (i : Nat) (b : Nat), (wfRopeRetransmitTimer i = true) ∧ ((ropeInst s i).timer = some b) ∧ ((ropeInst s i).up = true) ∧ ((ropeInst s i).retry < 7)) ∧
    (∃ (s : State) (i : Nat) (b : Nat), (wfRopeRetransmitTimer i = true) ∧ ((ropeInst s i).timer = some b) ∧ ((ropeInst s i).up = true) ∧ (7 ≤ (ropeInst s i).retry)) ∧
    (∃ (s : State) (i : Nat), (wfRopeInstanceDown i = true) ∧ ((ropeInst s i).up = false)) ∧
    (∃ (_s : State) (i : Nat), (wfRopeInstanceDown i = true)) ∧
    (∃ (s : State) (i : Nat), (wfRopeInstanceDown i = true) ∧ ((ropeInst s i).up = true) ∧ ((ropeInst s (1 - i)).up = true) ∧ ((ropeInst s i).held = [])) ∧
    (∃ (s : State) (i : Nat), (wfRopeInstanceUp i = true) ∧ ((ladFn s (fnKey 7 i)).held = false) ∧ (s.fab.sdOk = true) ∧ ((ropeInst s i).up = false) ∧ (s.start.inReset = false)) ∧
    (∃ (s : State) (i : Nat), (wfRopeInstanceUp i = true) ∧ (((ladFn s (fnKey 7 i)).held = true ∨ s.fab.sdOk = false ∨ (ropeInst s i).up = true ∨ s.start.inReset = true))) ∧
    (∃ (s : State) (i : Nat) (lane : Nat), (wfRopeLaneLoss i lane = true) ∧ ((ropeInst s i).up = true) ∧ ((ropeInst s i).lanes ≠ 4)) ∧
    (∃ (s : State) (i : Nat) (lane : Nat) (b : Bool), (wfRopeLaneLoss i lane = true) ∧ ((ropeInst s i).up = true) ∧ ((b = false ∨ (ropeInst s i).lanes = 4))) ∧
    (∃ (s : State) (i : Nat) (lane : Nat) (_b : Bool), (wfRopeLaneLoss i lane = true) ∧ ((ropeInst s i).up = false)) ∧
    (∃ (s : State) (u : State) (h : RopeHdr) (i : Nat) (d : Bytes), (wfFillReq h = true) ∧ (ropeIn s h true = (u, true)) ∧ (tget u.rope.payload i = some d) ∧ (tget u.rope.sent i = none)) ∧
    (∃ (s : State) (u : State) (h : RopeHdr) (i : Nat) (x : Nat) (rel : Nat) (ty : Nat) (aop : Nat) (conn : Nat) (msn : Nat) (key : Nat) (addr : Nat) (status : Nat) (len : Nat) (digest : Nat) (ap : Bool) (w : Bool) (sg : Bool) (res : Bytes) (d : Bytes), (wfFillReq h = true) ∧ (ropeIn s h true = (u, true)) ∧ (tget u.rope.payload i = some d) ∧ (tget u.rope.sent i = some ⟨x, rel, .operation ap w sg ty aop conn msn key addr status len digest res⟩)) ∧
    (∃ (s : State) (u : State) (h : RopeHdr) (i : Nat), (wfFillReq h = true) ∧ (ropeIn s h true = (u, true)) ∧ (tget u.rope.payload i = none)) ∧
    (∃ (s : State) (u : State) (h : RopeHdr) (i : Nat) (_d : Bytes), (wfFillData h = true) ∧ (ropeIn s h true = (u, true)) ∧ (isSecond u = true) ∧ (u.rope.applied < i) ∧ (tget u.rope.payload i = none) ∧ (i ∉ u.rope.filled)) ∧
    (∃ (s : State) (i : Nat) (b : Nat) (rest : Tab Nat), (s.rope.fillAt = (i, b) :: rest) ∧ (tget s.rope.recs i = none)) ∧
    (∃ (s : State) (i : Nat) (b : Nat) (x : Nat) (rel : Nat) (aop : Nat) (msn : Nat) (key : Nat) (addr : Nat) (status : Nat) (len : Nat) (digest : Nat) (rest : Tab Nat) (ap : Bool) (w : Bool) (sg : Bool) (res : Bytes), (s.rope.fillAt = (i, b) :: rest) ∧ (tget s.rope.recs i = some ⟨x, rel, .operation ap w sg tyWrite aop 0 msn key addr status len digest res⟩) ∧ (let u := reach { s with rope.fillAt := tdel s.rope.fillAt i } b; (recPayload u i 0 msn digest).1.isSome = false)) ∧
    (∃ (s : State) (i : Nat) (b : Nat) (x : Nat) (rel : Nat) (aop : Nat) (msn : Nat) (key : Nat) (addr : Nat) (status : Nat) (len : Nat) (digest : Nat) (rest : Tab Nat) (ap : Bool) (w : Bool) (sg : Bool) (res : Bytes), (s.rope.fillAt = (i, b) :: rest) ∧ (tget s.rope.recs i = some ⟨x, rel, .operation ap w sg tyWrite aop 0 msn key addr status len digest res⟩) ∧ (let u := reach { s with rope.fillAt := tdel s.rope.fillAt i } b; (recPayload u i 0 msn digest).1.isSome = true)) ∧
    (∃ (s : State), (s.rope.fillAt = [])) ∧
    (∃ (s : State) (u : State) (h : RopeHdr) (f : Fetch), (wfFetchReq h = true) ∧ (ropeIn s h true = (u, true)) ∧ (f.published = true)) ∧
    (∃ (s : State) (u : State) (h : RopeHdr) (f : Fetch), (wfFetchReq h = true) ∧ (ropeIn s h true = (u, true)) ∧ (f.published = false) ∧ (allApplied u = false)) ∧
    (∃ (s : State) (u : State) (h : RopeHdr) (f : Fetch), (wfFetchReq h = true) ∧ (ropeIn s h true = (u, true)) ∧ (f.published = false) ∧ (allApplied u = true) ∧ (u.rope.fetches = []) ∧ (u.rope.recopy = [])) ∧
    (∃ (s : State) (u : State) (h : RopeHdr) (_f : Fetch) (_a : FetchAnswer), (wfFetchData h = true) ∧ (ropeIn s h true = (u, true))) ∧
    (∃ (s : State) (n : Nat) (b : Nat), (wfRepairTimeout n = true) ∧ (tget s.rope.repairAt n = some b) ∧ ((∀ x ∈ s.code.repairing, x.1 / 256 = n → x.2 ≠ 4))) ∧
    (∃ (s : State) (n : Nat) (b : Nat) (l : Nat), (wfRepairTimeout n = true) ∧ (tget s.rope.repairAt n = some b) ∧ (s.code.repairing = [(l, 4)]) ∧ (l / 256 = n)) ∧
    (∃ (s : State) (n : Nat), (wfRepairTimeout n = true) ∧ (tget s.rope.repairAt n = none)) :=
  ⟨⟨r0, hd, true, by decide +kernel⟩,
    ⟨{ rp roleLead with cairn.epoch := 1 }, hd, true, by decide +kernel⟩,
    ⟨rp roleLead, hd, by decide +kernel⟩,
    ⟨rp roleLead, hd 5, by decide +kernel⟩,
    ⟨rp roleLead, hd, by decide +kernel⟩,
    ⟨{ rp roleLead with rope.inst := [(0, { up := true, lanes := 4, retry := 6, timer := some 4 })] }, 0, 4, by decide +kernel⟩,
    ⟨{ rp roleLead with rope.inst := [(0, { up := true, lanes := 4, retry := 7, timer := some 4 })] }, 0, 4, by decide +kernel⟩,
    ⟨{ rp roleLead with rope.inst := [(0, {}), (1, { up := true, lanes := 4 })] }, 0, by decide +kernel⟩,
    ⟨r0, 1, by decide +kernel⟩,
    ⟨rp roleLead, 1, by decide +kernel⟩,
    ⟨{ rp roleLead with rope.inst := [(0, {}), (1, { up := true, lanes := 4 })] }, 0, by decide +kernel⟩,
    ⟨rp roleLead, 1, by decide +kernel⟩,
    ⟨{ rp roleLead with rope.inst := [(1, { up := true, lanes := 8 })] }, 1, 3, by decide +kernel⟩,
    ⟨rp roleLead, 1, 3, true, by decide +kernel⟩,
    ⟨{ rp roleLead with rope.inst := [(0, {}), (1, { up := true, lanes := 4 })] }, 0, 3, true, by decide +kernel⟩,
    ⟨{ rp roleLead with rope.payload := [(4, [1])] }, (ropeIn ({ rp roleLead with rope.payload := [(4, [1])] }) (hd) true).1, hd, 4, [1], by decide +kernel⟩,
    ⟨{ rp roleLead with rope.payload := [(4, [1])], rope.sent := [(4, ⟨4, 0, .operation true true false tyWrite 0 16386 1 0 64 0 1 7 []⟩)] }, (ropeIn ({ rp roleLead with rope.payload := [(4, [1])], rope.sent := [(4, ⟨4, 0, .operation true true false tyWrite 0 16386 1 0 64 0 1 7 []⟩)] }) (hd) true).1, hd, 4, 4, 0, tyWrite, 0, 16386, 1, 0, 64, 0, 1, 7, true, true, false, [], [1], by decide +kernel⟩,
    ⟨rp roleLead, (ropeIn (rp roleLead) (hd) true).1, hd, 4, by decide +kernel⟩,
    ⟨rp roleSecond, (ropeIn (rp roleSecond) (hd) true).1, hd, 4, [1], by decide +kernel⟩,
    ⟨{ r0 with rope.fillAt := [(4, 2)] }, 4, 2, [], by decide +kernel⟩,
    ⟨{ r0 with rope.fillAt := [(4, 2)], rope.recs := [(4, ⟨4, 0, .operation true true false tyWrite 0 0 1 0 64 0 1 (crc32c [1]) []⟩)] }, 4, 2, 4, 0, 0, 1, 0, 64, 0, 1, crc32c [1], [], true, true, false, [], by decide +kernel⟩,
    ⟨{ r0 with rope.fillAt := [(4, 2)], rope.recs := [(4, ⟨4, 0, .operation true true false tyWrite 0 0 1 0 64 0 1 (crc32c [1]) []⟩)], rope.payload := [(4, [1])], rope.filled := [4] }, 4, 2, 4, 0, 0, 1, 0, 64, 0, 1, crc32c [1], [], true, true, false, [], by decide +kernel⟩,
    ⟨r0, by decide +kernel⟩,
    ⟨rp roleLead, (ropeIn (rp roleLead) (hd) true).1, hd, { published := true }, by decide +kernel⟩,
    ⟨{ rp roleLead with rope.recs := [(4, ⟨4, 0, .topo 1 2⟩)] }, (ropeIn ({ rp roleLead with rope.recs := [(4, ⟨4, 0, .topo 1 2⟩)] }) (hd) true).1, hd, {}, by decide +kernel⟩,
    ⟨rp roleSecond, (ropeIn (rp roleSecond) (hd) true).1, hd, {}, by decide +kernel⟩,
    ⟨rp roleLead, (ropeIn (rp roleLead) (hd) true).1, hd, {}, .notHeld, by decide +kernel⟩,
    ⟨{ r0 with rope.repairAt := [(9, 4)] }, 9, 4, by decide +kernel⟩,
    ⟨{ r0 with rope.repairAt := [(9, 4)], code.repairing := [(9 * 256 + 3, 4)] }, 9, 4, 9 * 256 + 3, by decide +kernel⟩,
    ⟨r0, 9, by decide +kernel⟩⟩

theorem witness_OrderStream :
    (∃ (s : State) (u : State) (h : RopeHdr) (r : OrderRec), (wfOrder h [r] = true) ∧ (ropeIn s h true = (u, true)) ∧ (isSecond u = true) ∧ (u.rope.applied < r.idx) ∧ (u.rope.recs = [])) ∧
    (∃ (s : State) (u : State) (h : RopeHdr) (l : List OrderRec), (wfOrder h l = true) ∧ (ropeIn s h true = (u, false))) ∧
    (∃ (s : State) (u : State) (h : RopeHdr) (l : List OrderRec), (wfOrder h l = true) ∧ (ropeIn s h true = (u, true)) ∧ (isSecond u = false)) ∧
    (∃ (s : State), (nextRec s = none)) ∧
    (∃ (s : State) (r : OrderRec) (op : _) (tag : _) (who : _) (nums : _) (body : _), (nextRec s = some r) ∧ (r.body = .command op tag who nums body)) ∧
    (∃ (s : State) (r : OrderRec) (n : _) (m : _), (nextRec s = some r) ∧ (r.body = .topo n m)) ∧
    (∃ (s : State) (r : OrderRec) (q : _) (ev : _) (conn : _) (msn : _), (nextRec s = some r) ∧ (r.body = .chain q ev conn msn)) ∧
    (∃ (s : State) (r : OrderRec) (conn : _) (msn : _) (code : _) (qual : _) (detail : _) (p : _), (nextRec s = some r) ∧ (r.body = .partMsg conn msn code qual detail p)) ∧
    (∃ (s : State) (r : OrderRec) (conn : _) (limit : _), (nextRec s = some r) ∧ (r.body = .ivReserve conn limit)) ∧
    (∃ (s : State) (r : OrderRec) (b : _), (nextRec s = some r) ∧ (r.body = .epochMark b)) ∧
    (∃ (s : State) (r : OrderRec) (last : _), (nextRec s = some r) ∧ (r.body = .handover last) ∧ (last = s.rope.applied)) ∧
    (∃ (s : State) (r : OrderRec) (last : _), (nextRec s = some r) ∧ (r.body = .handover last) ∧ (last ≠ s.rope.applied)) ∧
    (∃ (s : State) (r : OrderRec) (w : Bool) (sg : Bool) (ty : Nat) (aop : Nat) (conn : Nat) (msn : Nat) (key : Nat) (addr : Nat) (status : Nat) (len : Nat) (digest : Nat) (res : Bytes), (nextRec s = some r) ∧ (r.body = .operation false w sg ty aop conn msn key addr status len digest res)) ∧
    (∃ (s : State) (r : OrderRec) (w : Bool) (sg : Bool) (conn : Nat) (msn : Nat) (key : Nat) (addr : Nat) (len : Nat) (digest : Nat) (f : Bool), (len ≠ 0) ∧ (nextRec s = some r) ∧ (r.body = .operation true w sg tyWrite 0 conn msn key addr 0 len digest []) ∧ (recPayload s r.idx conn msn digest = (none, f))) ∧
    (∃ (s : State) (r : OrderRec) (w : Bool) (sg : Bool) (conn : Nat) (msn : Nat) (key : Nat) (addr : Nat) (len : Nat) (digest : Nat) (d : Bytes), (len ≠ 0) ∧ (nextRec s = some r) ∧ (r.body = .operation true w sg tyWrite 0 conn msn key addr 0 len digest []) ∧ (recPayload s r.idx conn msn digest = (some d, false)) ∧ ((slabsOf addr d.length).all (applyReady s addr d.length) = true) ∧ (writeThrough s = true)) ∧
    (∃ (s : State) (u : State) (h : RopeHdr) (idx : Nat), (wfConfirm h idx = true) ∧ (ropeIn s h false = (u, true)) ∧ (hasSecond u = true) ∧ (u.rope.confirmed < idx) ∧ (idx ≤ u.rope.index) ∧ ((confirmTaken u idx).rope.handover = none)) ∧
    (∃ (s : State) (u : State) (h : RopeHdr) (idx : Nat), (wfConfirm h idx = true) ∧ (ropeIn s h false = (u, true)) ∧ ((hasSecond u = false ∨ idx ≤ u.rope.confirmed ∨ u.rope.index < idx))) :=
  ⟨⟨rp roleSecond, (ropeIn (rp roleSecond) (hd) true).1, hd, ⟨4, 0, .topo 1 2⟩, by decide +kernel⟩,
    ⟨rp roleSecond, (ropeIn (rp roleSecond) (hd 3) true).1, hd 3, [], by decide +kernel⟩,
    ⟨rp roleLead, (ropeIn (rp roleLead) (hd) true).1, hd, [], by decide +kernel⟩,
    ⟨r0, by decide +kernel⟩,
    ⟨nx (.command 1 2 3 [] []), ⟨1, 0, .command 1 2 3 [] []⟩, 1, 2, 3, [], [], by decide +kernel⟩,
    ⟨nx (.topo 1 2), ⟨1, 0, .topo 1 2⟩, 1, 2, by decide +kernel⟩,
    ⟨nx (.chain 1 2 3 4), ⟨1, 0, .chain 1 2 3 4⟩, 1, 2, 3, 4, by decide +kernel⟩,
    ⟨nx (.partMsg 1 2 3 4 5 true), ⟨1, 0, .partMsg 1 2 3 4 5 true⟩, 1, 2, 3, 4, 5, true, by decide +kernel⟩,
    ⟨nx (.ivReserve 1 2), ⟨1, 0, .ivReserve 1 2⟩, 1, 2, by decide +kernel⟩,
    ⟨nx (.epochMark 5), ⟨1, 0, .epochMark 5⟩, 5, by decide +kernel⟩,
    ⟨nx (.handover 0), ⟨1, 0, .handover 0⟩, 0, by decide +kernel⟩,
    ⟨nx (.handover 3), ⟨1, 0, .handover 3⟩, 3, by decide +kernel⟩,
    ⟨nx (.operation false true false 1 0 16386 1 0 64 0 64 0 []), ⟨1, 0, .operation false true false 1 0 16386 1 0 64 0 64 0 []⟩, true, false, 1, 0, 16386, 1, 0, 64, 0, 64, 0, [], by decide +kernel⟩,
    ⟨nx (.operation true true false tyWrite 0 16386 1 0 64 0 1 (crc32c [1]) []), ⟨1, 0, .operation true true false tyWrite 0 16386 1 0 64 0 1 (crc32c [1]) []⟩, true, false, 16386, 1, 0, 64, 1, crc32c [1], false, by decide +kernel⟩,
    ⟨fld [(Reg.campRangeCfgBudgetGib, 0)] { bt (nx (.operation true true false tyWrite 0 16386 1 0 64 0 1 (crc32c [1]) [])) with rope.payload := [(1, [1])], rope.filled := [1], camp.ch := [(15, { spd := [{}, {}] })], camp.liveMap := [15] }, ⟨1, 0, .operation true true false tyWrite 0 16386 1 0 64 0 1 (crc32c [1]) []⟩, true, false, 16386, 1, 0, 64, 1, crc32c [1], [1], by decide +kernel⟩,
    ⟨{ rp roleLead with rope.index := 4 }, (ropeIn ({ rp roleLead with rope.index := 4 }) (hd) false).1, hd, 4, by decide +kernel⟩,
    ⟨rp roleLead, (ropeIn (rp roleLead) (hd) false).1, hd, 0, by decide +kernel⟩⟩

theorem witness_Lease :
    (∃ (s : State) (u : State) (h : RopeHdr) (n : Nat), (wfRenew n = true) ∧ (ropeIn s h false = (u, true)) ∧ (isSecond u = true)) ∧
    (∃ (_s : State) (w : BitVec 32) (n : Nat), (wfRenew n = true) ∧ (belayCrcOk w = false)) ∧
    (∃ (s : State) (w : BitVec 32) (n : Nat) (b : Nat), (wfRenewAck n = true) ∧ (belayOk s w belayAck = true) ∧ (hasSecond s = true) ∧ (s.rope.handover = none) ∧ (tget s.rope.renewAt (belaySeqOf w) = some b)) ∧
    (∃ (s : State) (u : State) (h : RopeHdr) (n : Nat), (wfRenewAck n = true) ∧ (ropeIn s h false = (u, true)) ∧ (hasSecond u = false)) ∧
    (∃ (s : State), (hasSecond s = true) ∧ (isSet s Reg.fabTbStatusClkLoss = true)) ∧
    (∃ (s : State), (hasSecond s = true) ∧ (s.rope.handover = none) ∧ (isSet s Reg.fabTbStatusClkLoss = false)) ∧
    (∃ (s : State), (hasSecond s = false)) ∧
    (∃ (s : State) (b : Nat), (s.rope.leaseEnd = some b) ∧ (hasSecond s = true) ∧ (s.rope.handover = none)) ∧
    (∃ (s : State) (b : Nat), (s.rope.expiry = some b) ∧ (isSecond s = true)) ∧
    (∃ (s : State) (g : Nat), (s.rope.guard = some g) ∧ (isSecond s = true)) ∧
    (∃ (s : State), (s.rope.guard = none) ∧ (s.rope.expiry = none) ∧ (s.rope.leaseEnd = none)) ∧
    (∃ (s : State) (w : BitVec 32), (belayOk s w belayDepart = true)) ∧
    (∃ (s : State) (b : Nat), (s.rope.lastWord = some b) ∧ (isSet s Reg.rlStatusBelayUp = true)) :=
  ⟨⟨rp roleSecond, (ropeIn (rp roleSecond) (hd) false).1, hd, 65535, by decide +kernel⟩,
    ⟨r0, belayWord belayAck 1 5 ^^^ 1, 0, by decide +kernel⟩,
    ⟨{ rp roleLead with rope.renewAt := [(5, 9)] }, belayWord belayAck 1 5, 65535, 9, by decide +kernel⟩,
    ⟨rp roleSecond, (ropeIn (rp roleSecond) (hd) false).1, hd, 0, by decide +kernel⟩,
    ⟨fld [(Reg.fabTbStatusClkLoss, 1)] (rp roleLead), by decide +kernel⟩,
    ⟨rp roleLead, by decide +kernel⟩,
    ⟨rp roleSecond, by decide +kernel⟩,
    ⟨{ rp roleLead with rope.leaseEnd := some 4 }, 4, by decide +kernel⟩,
    ⟨{ rp roleSecond with rope.expiry := some 4 }, 4, by decide +kernel⟩,
    ⟨{ rp roleSecond with rope.guard := some 4 }, 4, by decide +kernel⟩,
    ⟨r0, by decide +kernel⟩,
    ⟨r0, belayWord belayDepart 1 0, by decide +kernel⟩,
    ⟨fld [(Reg.rlStatusBelayUp, 1)] { r0 with rope.lastWord := some 4 }, 4, by decide +kernel⟩⟩

theorem witness_TeamJoin :
    (∃ (s : State) (u : State) (r : RopeHdr) (_h : Hello), ((ropeIn s { r with epoch := max r.epoch s.cairn.epoch } true) = (u, true))) ∧
    (∃ (s : State) (_h : Hello), (team s ≠ teamNegotiating)) ∧
    (∃ (s : State) (h : Hello), (isSecond s = false) ∧ (serviceOpen s = true) ∧ (h.serving = true) ∧ (silent s = false)) ∧
    (∃ (s : State) (b : Nat), (s.rope.helloAt = some b) ∧ (team s = teamNegotiating) ∧ (isSet s Reg.rlCfgSoloOpen = false) ∧ (s.start.soloOrdered = false)) ∧
    (∃ (s : State) (b : Nat), (s.rope.helloAt = some b) ∧ (team s = teamNegotiating) ∧ (isSet s Reg.rlCfgSoloOpen = false) ∧ (s.start.soloOrdered = false)) ∧
    (∃ (s : State) (b : Nat), (s.rope.helloAt = some b) ∧ (team s ≠ teamNegotiating)) ∧
    (∃ (s : State) (b : Nat), (s.rope.helloAt = some b) ∧ (team s = teamNegotiating) ∧ (isSet s Reg.rlCfgSoloOpen = true)) ∧
    (∃ (s : State) (u : State) (h : RopeHdr) (n : Nat) (stamp : Nat) (d : Bytes) (_p : List Nat), (wfCatchup h n d = true) ∧ (ropeIn s h true = (u, true)) ∧ (isSecond u = true) ∧ (u.rope.applied < stamp) ∧ (u.rope.catchBuf = [])) ∧
    (∃ (s : State) (u : State) (h : RopeHdr) (n : Nat) (stamp : Nat) (d : Bytes) (_p : List Nat), (wfCatchup h n d = true) ∧ (ropeIn s h true = (u, true)) ∧ (isSecond u = true) ∧ (stamp ≤ u.rope.applied) ∧ (u.rope.catchBuf = []) ∧ ((slabOf u n).st ≠ .promoting)) ∧
    (∃ (s : State) (u : State) (h : RopeHdr) (n : Nat) (_stamp : Nat) (d : Bytes) (_p : List Nat), (wfCatchup h n d = true) ∧ (ropeIn s h true = (u, true)) ∧ (isSecond u = false) ∧ (hasSecond u = true)) ∧
    (∃ (s : State) (u : State) (h : RopeHdr) (_c : Control), (wfControl h = true) ∧ (ropeIn s h true = (u, true))) ∧
    (∃ (s : State) (u : State) (h : RopeHdr), (wfReturnRequest h = true) ∧ (ropeIn s h true = (u, true)) ∧ (role u = roleLead) ∧ (team u = teamRoped)) ∧
    (∃ (s : State) (u : State) (h : RopeHdr), (wfReturnRequest h = true) ∧ (ropeIn s h true = (u, true)) ∧ (team u ≠ teamRoped)) ∧
    (∃ (s : State) (b : Nat), (s.rope.roped = some b) ∧ (isSecond s = true) ∧ (team s = teamRoped) ∧ (isSet s Reg.rlCfgReturnEn = true) ∧ (s.pins.twinId = getF s Reg.rlCfgPreferred) ∧ (isSet s Reg.fabTbStatusClkLoss = false)) ∧
    (∃ (s : State), (s.rope.roped = none)) ∧
    (∃ (s : State) (i : Nat) (b : Nat), (tget s.rope.hold i = some b) ∧ (s.conns = [])) ∧
    (∃ (s : State) (i : Nat) (b : Nat), (tget s.rope.hold i = some b) ∧ ((∀ x ∈ s.conns, ∀ y ∈ x.2.msgs, ∀ r, y.2.st ≠ .rope i r))) ∧
    (∃ (s : State) (i : Nat), (tget s.rope.hold i = none)) ∧
    (∃ (s : State) (i : Nat) (b : Nat) (ci : Nat) (msn : Nat) (k : Conn) (m : Msg) (r : Result), (tget s.rope.hold i = some b) ∧ (s.conns = [(ci, k)]) ∧ (k.msgs = [(msn, m)]) ∧ (m.st = .rope i r)) ∧
    (∃ (s : State), (role s = roleLead) ∧ (silent s = false) ∧ (team s = teamSingle)) ∧
    (∃ (s : State), (role s = roleLead) ∧ (silent s = false) ∧ (team s = teamRoped) ∧ (s.rope.handover = none)) ∧
    (∃ (s : State), (role s ≠ roleLead)) :=
  ⟨⟨rp roleLead, (ropeIn (rp roleLead) (hd) true).1, hd, {}, by decide +kernel⟩,
    ⟨rp roleLead, {}, by decide +kernel⟩,
    ⟨fld [(Reg.rlStatusState, teamSingle)] svc, { serving := true }, by decide +kernel⟩,
    ⟨{ fld [(Reg.rlStatusState, teamNegotiating)] r0 with rope.helloAt := some 4 }, 4, by decide +kernel⟩,
    ⟨{ fld [(Reg.rlStatusState, teamNegotiating)] r0 with rope.helloAt := some 4 }, 4, by decide +kernel⟩,
    ⟨{ rp roleLead with rope.helloAt := some 4 }, 4, by decide +kernel⟩,
    ⟨fld [(Reg.rlCfgSoloOpen, 1)] ({ fld [(Reg.rlStatusState, teamNegotiating)] r0 with rope.helloAt := some 4 }), 4, by decide +kernel⟩,
    ⟨rp roleSecond, (ropeIn (rp roleSecond) (hd) true).1, hd, 9, 4, zeros 16384, [], by decide +kernel⟩,
    ⟨rp roleSecond, (ropeIn (rp roleSecond) (hd) true).1, hd, 9, 0, zeros 16384, [], by decide +kernel⟩,
    ⟨rp roleLead, (ropeIn (rp roleLead) (hd) true).1, hd, 9, 0, zeros 16384, [], by decide +kernel⟩,
    ⟨rp roleLead, (ropeIn (rp roleLead) (hd) true).1, hd, .depart, by decide +kernel⟩,
    ⟨rp roleLead, (ropeIn (rp roleLead) (hd) true).1, hd, by decide +kernel⟩,
    ⟨fld [(Reg.rlStatusState, teamSingle)] (rp roleLead), (ropeIn (fld [(Reg.rlStatusState, teamSingle)] (rp roleLead)) (hd) true).1, hd, by decide +kernel⟩,
    ⟨fld [(Reg.rlCfgReturnEn, 1)] { rp roleSecond with rope.roped := some 4 }, 4, by decide +kernel⟩,
    ⟨r0, by decide +kernel⟩,
    ⟨{ r0 with rope.hold := [(4, 9)] }, 4, 9, by decide +kernel⟩,
    ⟨{ r0 with rope.hold := [(4, 9)] }, 4, 9, by refine ⟨?_, ?_⟩ <;> (first | rfl | decide +kernel | exact ⟨rfl, rfl, rfl, rfl, by decide +kernel, by decide +kernel⟩ | exact ⟨rfl, by decide, rfl, rfl, rfl, rfl, rfl, rfl, rfl⟩ | nofun)⟩,
    ⟨r0, 4, by decide +kernel⟩,
    ⟨{ cst { cn with msgs := [(1, { msg0 with st := .rope 4 (.comp 0 0) })] } with rope.hold := [(4, 9)] }, 4, 9, 2, 1, { cn with msgs := [(1, { msg0 with st := .rope 4 (.comp 0 0) })] }, { msg0 with st := .rope 4 (.comp 0 0) }, .comp 0 0, by decide +kernel⟩,
    ⟨fld [(Reg.rlStatusState, teamSingle)] (rp roleLead), by decide +kernel⟩,
    ⟨rp roleLead, by decide +kernel⟩,
    ⟨rp roleSecond, by decide +kernel⟩⟩

theorem witness_Acceptance :
    (∃ (_s : State) (_ch : Chan) (b : Bytes) (off : Nat), (formatFault b = some off)) ∧
    (∃ (_s : State) (_ch : Chan) (b : Bytes), (formatFault b = none) ∧ (opInfo (cmdHdr b).op = none)) ∧
    (∃ (s : State) (ch : Chan) (b : Bytes) (lvl : Nat) (chans : Nat), (formatFault b = none) ∧ (opInfo (cmdHdr b).op = some (lvl, chans)) ∧ (channelOk s ch chans (cmdHdr b) = false)) ∧
    (∃ (s : State) (ch : Chan) (b : Bytes) (lvl : Nat) (chans : Nat), (formatFault b = none) ∧ (opInfo (cmdHdr b).op = some (lvl, chans)) ∧ (channelOk s ch chans (cmdHdr b) = true) ∧ ((cmdHdr b).level < needsLevel s (cmdHdr b) (bsub b 32 (cmdHdr b).plen) lvl)) ∧
    (∃ (s : State) (ch : Chan) (b : Bytes) (k : Bytes) (lvl : Nat) (chans : Nat), (formatFault b = none) ∧ (opInfo (cmdHdr b).op = some (lvl, chans)) ∧ (channelOk s ch chans (cmdHdr b) = true) ∧ (needsLevel s (cmdHdr b) (bsub b 32 (cmdHdr b).plen) lvl ≤ (cmdHdr b).level) ∧ ((cmdHdr b).level ≠ 0) ∧ (keyFor s (cmdHdr b).mgmt (cmdHdr b).ident (cmdHdr b).level = some k) ∧ (hmac k (b.take (32 + (cmdHdr b).plen)) ≠ bsub b (32 + (cmdHdr b).plen) 32)) ∧
    (∃ (s : State) (ch : Chan) (b : Bytes) (k : Bytes) (lvl : Nat) (chans : Nat), (formatFault b = none) ∧ (opInfo (cmdHdr b).op = some (lvl, chans)) ∧ (channelOk s ch chans (cmdHdr b) = true) ∧ (needsLevel s (cmdHdr b) (bsub b 32 (cmdHdr b).plen) lvl ≤ (cmdHdr b).level) ∧ ((cmdHdr b).level ≠ 0) ∧ (keyFor s (cmdHdr b).mgmt (cmdHdr b).ident (cmdHdr b).level = some k) ∧ (hmac k (b.take (32 + (cmdHdr b).plen)) = bsub b (32 + (cmdHdr b).plen) 32) ∧ (freshTake s (freshKey (cmdHdr b).mgmt (cmdHdr b).ident (cmdHdr b).level) (cmdHdr b).fresh = none)) ∧
    (∃ (s : State) (b : Bytes) (v : Verdict), (acceptCmd s .i3c b = (s, v)) ∧ (v.drop = false) ∧ (v.reply = none) ∧ (v.status ≠ scOk)) ∧
    (∃ (s : State) (u : State) (ch : Chan) (b : Bytes) (v : Verdict), (acceptCmd s ch b = (u, v)) ∧ (v.drop = false) ∧ (v.reply = none) ∧ (v.status = scOk)) ∧
    (∃ (_s : State) (p : Pkt), (wfMgmt p = true)) ∧
    (∃ (s : State) (num : Nat) (msn : Nat) (_sub : Option Nat) (m : Msg), (msgOf s (connIdx num) msn = some m) ∧ (m.first.ty = tyMgmt) ∧ (m.st = .running) ∧ (m.chk = none) ∧ (outstanding s num < 16)) ∧
    (∃ (s : State) (num : Nat) (msn : Nat) (_sub : Option Nat) (m : Msg), (msgOf s (connIdx num) msn = some m) ∧ (m.first.ty = tyMgmt) ∧ (m.st = .running) ∧ (m.chk = none) ∧ (16 ≤ outstanding s num)) ∧
    (∃ (s : State) (num : Nat) (msn : Nat) (_sub : Option Nat) (m : Msg) (k : Bytes), (msgOf s (connIdx num) msn = some m) ∧ (m.first.ty = tyMgmt) ∧ (m.st = .running) ∧ (m.chk = some k) ∧ (beNat k ≠ crc64 (msgPayload m))) ∧
    (∃ (s : State) (t : Nat) (tk : Ticket), (tget s.cmd.tickets t = some tk) ∧ (tk.st = .executing) ∧ (tk.pendingSent = false) ∧ (tk.chan = .i3c) ∧ ((∀ x ∈ s.tables.regions, t ∉ x.2.revokers)) ∧ ((∀ x ∈ s.tables.objects, t ∉ x.2.waiters))) ∧
    (∃ (s : State) (t : Nat) (w : Nat) (i : Nat) (tk : Ticket) (tw : Ticket) (r : Region), (tget s.cmd.tickets t = some tk) ∧ (tk.st = .executing) ∧ (tk.pendingSent = false) ∧ (tk.chan = .i3c) ∧ (t ≠ w) ∧ (tget s.cmd.tickets w = some tw) ∧ (tw.pendingSent = false) ∧ (tw.chan = .i3c) ∧ (s.tables.regions = [(i, r)]) ∧ (r.revokers = [t, w]) ∧ (s.tables.objects = [])) ∧
    (∃ (s : State) (t : Nat) (tk : Ticket), (tget s.cmd.tickets t = some tk) ∧ (tk.pendingSent = true)) ∧
    (∃ (s : State) (t : Nat) (tk : Ticket), (tget s.cmd.tickets t = some tk) ∧ (tk.st = .waiting) ∧ (brakeOp tk.op = false) ∧ (ladderOp tk.op = false)) ∧
    (∃ (s : State) (t : Nat) (tk : Ticket), (tget s.cmd.tickets t = some tk) ∧ (tk.st = .executing)) :=
  ⟨⟨r0, .i3c, [], 0, by decide +kernel⟩,
    ⟨r0, .i3c, cb 0x7777 0, by decide +kernel⟩,
    ⟨r0, .mbx 0, cb 0x0101 0 0 5, 0, 7, by decide +kernel⟩,
    ⟨r0, .mbx 0, cb 0x0602 0, 1, 3, by decide +kernel⟩,
    ⟨{ r0 with cmd.opKey := some [7] }, .i3c, cb 0x0101 1 ++ zeros 32, [7], 0, 7, by decide +kernel⟩,
    ⟨{ r0 with cmd.opKey := some [7] }, .i3c, (cb 0x0101 1 (2 ^ 32) ++ hmac [7] (cb 0x0101 1 (2 ^ 32))), [7], 0, 7, by decide +kernel⟩,
    ⟨r0, [], (acceptCmd r0 .i3c []).2, by refine ⟨?_, ?_, ?_, ?_⟩ <;> (first | rfl | decide +kernel | exact ⟨rfl, rfl, rfl, rfl, by decide +kernel, by decide +kernel⟩ | exact ⟨rfl, by decide, rfl, rfl, rfl, rfl, rfl, rfl, rfl⟩ | nofun)⟩,
    ⟨r0, r0, .i3c, cb 0x0101 0, (acceptCmd r0 .i3c (cb 0x0101 0)).2, by refine ⟨?_, ?_, ?_, ?_⟩ <;> (first | rfl | decide +kernel | exact ⟨rfl, rfl, rfl, rfl, by decide +kernel, by decide +kernel⟩ | exact ⟨rfl, by decide, rfl, rfl, rfl, rfl, rfl, rfl, rfl⟩ | nofun)⟩,
    ⟨r0, { pk tyMgmt with mgmt := true }, by decide +kernel⟩,
    ⟨cst { cn with msgs := [(1, { msg0 with first := pk tyMgmt, st := .running })] }, 16386, 1, none, { msg0 with first := pk tyMgmt, st := .running }, by decide +kernel⟩,
    ⟨{ cst { cn with msgs := [(1, { msg0 with first := pk tyMgmt, st := .running })] } with cmd.tickets := (List.range 16).map fun i => (i, { tk 1 with chan := .net 16386 }) }, 16386, 1, none, { msg0 with first := pk tyMgmt, st := .running }, by decide +kernel⟩,
    ⟨cst { cn with msgs := [(1, { msg0 with first := pk tyMgmt, st := .running, chk := some (zeros 7 ++ [1]) })] }, 16386, 1, none, { msg0 with first := pk tyMgmt, st := .running, chk := some (zeros 7 ++ [1]) }, zeros 7 ++ [1], by decide +kernel⟩,
    ⟨{ r0 with cmd.tickets := [(0, { tk 0x0309 with st := .executing })] }, 0, { tk 0x0309 with st := .executing }, by decide +kernel⟩,
    ⟨{ r0 with cmd.tickets := [(0, { tk 0x0203 with st := .executing }), (1, { tk 0x0203 with st := .executing })], tables.regions := [(3, { rgn with revokers := [0, 1] })] }, 0, 1, 3, { tk 0x0203 with st := .executing }, { tk 0x0203 with st := .executing }, { rgn with revokers := [0, 1] }, by decide +kernel⟩,
    ⟨{ r0 with cmd.tickets := [(0, { tk 0x0309 with pendingSent := true })] }, 0, { tk 0x0309 with pendingSent := true }, by decide +kernel⟩,
    ⟨cmd 0x0101, 0, tk 0x0101, by decide +kernel⟩,
    ⟨{ r0 with cmd.tickets := [(0, { tk 0x0309 with st := .executing })] }, 0, { tk 0x0309 with st := .executing }, by decide +kernel⟩⟩

theorem witness_FreshValues :
    (∃ (s : State) (u : State) (k : Nat) (v : Nat) (_l : List (Nat × Nat)), (freshTake s k v = some u)) ∧
    (∃ (s : State) (_k : Nat) (v : Nat), (v / 2 ^ 32 ≠ getF s Reg.idBootCount)) ∧
    (∃ (s : State) (k : Nat) (v : Nat) (r : Fresh), (v / 2 ^ 32 = getF s Reg.idBootCount) ∧ (tget s.cmd.fresh k = some r) ∧ (r.high < v % 2 ^ 32)) ∧
    (∃ (s : State) (k : Nat) (v : Nat) (r : Fresh), (v / 2 ^ 32 = getF s Reg.idBootCount) ∧ (tget s.cmd.fresh k = some r) ∧ (v % 2 ^ 32 + 64 < r.high)) :=
  ⟨⟨r0, (freshTake r0 5 7).getD r0, 5, 7, [(5, 7)], by decide +kernel⟩,
    ⟨r0, 5, 2 ^ 32, by decide +kernel⟩,
    ⟨{ r0 with cmd.fresh := [(5, ⟨6, []⟩)] }, 5, 7, ⟨6, []⟩, by decide +kernel⟩,
    ⟨{ r0 with cmd.fresh := [(5, ⟨72, []⟩)] }, 5, 7, ⟨72, []⟩, by decide +kernel⟩⟩

theorem witness_Queries :
    (∃ (s : State) (t : Nat) (_st : Nat) (_d : Nat) (_b : Bytes) (tk : Ticket), (tget s.cmd.tickets t = some tk) ∧ (tk.chan = .i3c) ∧ (tk.op / 256 ≠ 11)) ∧
    (∃ (s : State) (t : Nat) (tk : Ticket), (tk.mgmt = true) ∧ (Waits s t 0x0101 tk)) ∧
    (∃ (s : State) (t : Nat) (tk : Ticket), (tk.mgmt = true) ∧ (Waits s t 0x0102 tk)) ∧
    (∃ (s : State) (t : Nat) (tk : Ticket) (n : _) (i : _), (tk.mgmt = true) ∧ (Waits s t 0x0105 tk) ∧ (tget s.ids n = some i) ∧ (connsOf s n = [])) ∧
    (∃ (s : State) (t : Nat) (tk : Ticket) (n : _) (i : _), (tk.mgmt = true) ∧ (Waits s t 0x0105 tk) ∧ (tget s.ids n = some i)) ∧
    (∃ (s : State) (t : Nat) (tk : Ticket) (k : _) (r : _), (tk.mgmt = true) ∧ (Waits s t 0x0202 tk) ∧ (regionOf s k = some r)) ∧
    (∃ (s : State) (t : Nat) (tk : Ticket) (n : _) (g : _), (tk.mgmt = true) ∧ (Waits s t 0x0205 tk) ∧ (tget s.tables.groups n = some g)) ∧
    (∃ (s : State) (t : Nat) (tk : Ticket) (n : _) (c : _), (tk.mgmt = true) ∧ (Waits s t 0x0208 tk) ∧ (connOf s n = some c)) ∧
    (∃ (s : State) (t : Nat) (tk : Ticket) (q : _) (x : _), (tk.mgmt = true) ∧ (Waits s t 0x020E tk) ∧ (queueOf s q = some x)) ∧
    (∃ (s : State) (t : Nat) (tk : Ticket) (n : _) (o : _), (tk.mgmt = true) ∧ (Waits s t 0x0302 tk) ∧ (objOf s n = some o)) ∧
    (∃ (s : State) (t : Nat) (tk : Ticket) (n : _) (x : _), (tk.mgmt = true) ∧ (Waits s t 0x030D tk) ∧ (tget s.tables.topos n = some x)) ∧
    (∃ (s : State) (t : Nat) (tk : Ticket), (tk.mgmt = true) ∧ (Waits s t 0x0403 tk)) ∧
    (∃ (s : State) (t : Nat) (tk : Ticket) (n : _) (c : _) (i : _) (k : _), (tk.mgmt = true) ∧ (Waits s t 0x0404 tk) ∧ (connOf s n = some c) ∧ (connSlot s c = some (i, k))) ∧
    (∃ (s : State) (t : Nat) (tk : Ticket) (n : _), (tk.mgmt = true) ∧ (Waits s t 0x0406 tk) ∧ (n < 4096) ∧ (tget s.key.slots n = none)) ∧
    (∃ (s : State) (t : Nat) (tk : Ticket) (n : _) (k : _), (tk.mgmt = true) ∧ (Waits s t 0x0406 tk) ∧ (n < 4096) ∧ (tget s.key.slots n = some k)) ∧
    (∃ (s : State) (t : Nat) (tk : Ticket) (n : _), (tk.mgmt = true) ∧ (Waits s t 0x040A tk) ∧ (n < 1024)) ∧
    (∃ (s : State) (t : Nat) (tk : Ticket), (tk.mgmt = true) ∧ (Waits s t 0x0501 tk) ∧ (s.conns = [])) ∧
    (∃ (s : State) (t : Nat) (tk : Ticket), (tk.mgmt = true) ∧ (Waits s t 0x0501 tk)) ∧
    (∃ (s : State) (t : Nat) (tk : Ticket), (tk.mgmt = true) ∧ (Waits s t 0x0601 tk)) ∧
    (∃ (s : State) (t : Nat) (tk : Ticket), (tk.mgmt = true) ∧ (Waits s t 0x0604 tk)) ∧
    (∃ (s : State) (t : Nat) (tk : Ticket), (tk.mgmt = true) ∧ (Waits s t 0x0806 tk) ∧ (s.val.dies = [])) ∧
    (∃ (s : State) (t : Nat) (tk : Ticket) (n : _) (d : _), (tk.mgmt = true) ∧ (Waits s t 0x0806 tk) ∧ (s.val.dies = [(n, d)])) ∧
    (∃ (s : State) (t : Nat) (tk : Ticket), (tk.mgmt = true) ∧ (Waits s t 0x0806 tk)) ∧
    (∃ (s : State) (t : Nat) (tk : Ticket), (tk.mgmt = true) ∧ (Waits s t 0x0802 tk)) ∧
    (∃ (s : State) (t : Nat) (tk : Ticket), (tk.mgmt = true) ∧ (Waits s t 0x0802 tk) ∧ (s.code.marked = []) ∧ (s.camp.pendingRows = []) ∧ (s.code.soft = [])) ∧
    (∃ (s : State) (t : Nat) (tk : Ticket), (tk.mgmt = true) ∧ (Waits s t 0x0701 tk) ∧ (1 ≤ le tk.par 8 1) ∧ (le tk.par 8 1 ≤ 63)) ∧
    (∃ (s : State) (t : Nat) (tk : Ticket), (tk.mgmt = true) ∧ (Waits s t 0x0704 tk) ∧ (le tk.par 0 1 < 40) ∧ ((plogOf s (le tk.par 0 1)).frozen = true)) ∧
    (∃ (s : State) (t : Nat) (tk : Ticket), (tk.mgmt = true) ∧ (Waits s t 0x0706 tk)) ∧
    (∃ (s : State) (t : Nat) (tk : Ticket), (tk.mgmt = true) ∧ (Waits s t 0x0A05 tk) ∧ (s.ladder.fns = [])) ∧
    (∃ (s : State) (t : Nat) (tk : Ticket), (tk.mgmt = true) ∧ (Waits s t 0x0A05 tk)) ∧
    (∃ (s : State) (t : Nat) (tk : Ticket) (n : _) (i : _), (tk.mgmt = true) ∧ (Waits s t 0x0704 tk) ∧ (le tk.par 0 1 = 128 + n) ∧ (n < 40) ∧ (le tk.par 3 1 ≤ 5) ∧ ((flushImages s).reverse[le tk.par 3 1]? = some i)) ∧
    (∃ (s : State) (t : Nat) (tk : Ticket), (tk.mgmt = true) ∧ (Waits s t 0x0B05 tk)) ∧
    (∃ (s : State) (t : Nat) (tk : Ticket), (tk.mgmt = true) ∧ (Waits s t 0x0906 tk)) :=
  ⟨⟨{ r0 with cmd.tickets := [(0, tk 0x0101)] }, 0, 0, 0, [], tk 0x0101, by decide +kernel⟩,
    ⟨cmd 0x0101 [] (r0), 0, Sys2Proof.Tests.tk 0x0101 [], by unfold Waits; decide +kernel⟩,
    ⟨cmd 0x0102 [] (r0), 0, Sys2Proof.Tests.tk 0x0102 [], by unfold Waits; decide +kernel⟩,
    ⟨cmd 0x0105 [] ({ r0 with ids := [(5, idn)] }), 0, Sys2Proof.Tests.tk 0x0105 [], 5, idn, by unfold Waits; decide +kernel⟩,
    ⟨cmd 0x0105 [] ({ r0 with ids := [(5, idn)] }), 0, Sys2Proof.Tests.tk 0x0105 [], 5, idn, by unfold Waits; decide +kernel⟩,
    ⟨cmd 0x0202 [] ({ r0 with tables.regions := [(3, { rgn with key := rkey })] }), 0, Sys2Proof.Tests.tk 0x0202 [], rkey, { rgn with key := rkey }, by unfold Waits; decide +kernel⟩,
    ⟨cmd 0x0205 [] ({ r0 with tables.groups := [(3, ⟨5, [5]⟩)] }), 0, Sys2Proof.Tests.tk 0x0205 [], 3, ⟨5, [5]⟩, by unfold Waits; decide +kernel⟩,
    ⟨cmd 0x0208 [] (cst), 0, Sys2Proof.Tests.tk 0x0208 [], 16386, cn, by unfold Waits; decide +kernel⟩,
    ⟨cmd 0x020E [] ({ r0 with tables.queues := [(4095, qu none)] }), 0, Sys2Proof.Tests.tk 0x020E [], 4095, qu none, by unfold Waits; decide +kernel⟩,
    ⟨cmd 0x0302 [] ({ r0 with tables.objects := [(1, ob)] }), 0, Sys2Proof.Tests.tk 0x0302 [], 1, ob, by unfold Waits; decide +kernel⟩,
    ⟨cmd 0x030D [] ({ r0 with tables.topos := [(1, tpo)] }), 0, Sys2Proof.Tests.tk 0x030D [], 1, tpo, by unfold Waits; decide +kernel⟩,
    ⟨cmd 0x0403 [] (r0), 0, Sys2Proof.Tests.tk 0x0403 [], by unfold Waits; decide +kernel⟩,
    ⟨cmd 0x0404 [] ({ cst { cn with slot := some 5 } with key.slots := [(5, kslot)] }), 0, Sys2Proof.Tests.tk 0x0404 [], 16386, { cn with slot := some 5 }, 5, kslot, by unfold Waits; decide +kernel⟩,
    ⟨cmd 0x0406 [] (r0), 0, Sys2Proof.Tests.tk 0x0406 [], 4095, by unfold Waits; decide +kernel⟩,
    ⟨cmd 0x0406 [] ({ r0 with key.slots := [(4095, kslot)] }), 0, Sys2Proof.Tests.tk 0x0406 [], 4095, kslot, by unfold Waits; decide +kernel⟩,
    ⟨cmd 0x040A [] (r0), 0, Sys2Proof.Tests.tk 0x040A [], 1023, by unfold Waits; decide +kernel⟩,
    ⟨cmd 0x0501 [] (r0), 0, Sys2Proof.Tests.tk 0x0501 [], by unfold Waits; decide +kernel⟩,
    ⟨cmd 0x0501 [] (cst), 0, Sys2Proof.Tests.tk 0x0501 [], by unfold Waits; decide +kernel⟩,
    ⟨cmd 0x0601 [] (r0), 0, Sys2Proof.Tests.tk 0x0601 [], by unfold Waits; decide +kernel⟩,
    ⟨cmd 0x0604 [] (r0), 0, Sys2Proof.Tests.tk 0x0604 [], by unfold Waits; decide +kernel⟩,
    ⟨cmd 0x0806 [] (r0), 0, Sys2Proof.Tests.tk 0x0806 [], by unfold Waits; decide +kernel⟩,
    ⟨cmd 0x0806 [] ({ r0 with val.dies := [(1023, { failed := true })] }), 0, Sys2Proof.Tests.tk 0x0806 [], 1023, { failed := true }, by unfold Waits; decide +kernel⟩,
    ⟨cmd 0x0806 [] (r0), 0, Sys2Proof.Tests.tk 0x0806 [], by unfold Waits; decide +kernel⟩,
    ⟨cmd 0x0802 [] (r0), 0, Sys2Proof.Tests.tk 0x0802 [], by unfold Waits; decide +kernel⟩,
    ⟨cmd 0x0802 [] (r0), 0, Sys2Proof.Tests.tk 0x0802 [], by unfold Waits; decide +kernel⟩,
    ⟨cmd 0x0701 (zeros 8 ++ [63]) (r0), 0, Sys2Proof.Tests.tk 0x0701 (zeros 8 ++ [63]), by unfold Waits; decide +kernel⟩,
    ⟨cmd 0x0704 [39] ({ r0 with plog := [(39, { frozen := true })] }), 0, Sys2Proof.Tests.tk 0x0704 [39], by unfold Waits; decide +kernel⟩,
    ⟨cmd 0x0706 [] (r0), 0, Sys2Proof.Tests.tk 0x0706 [], by unfold Waits; decide +kernel⟩,
    ⟨cmd 0x0A05 [] (r0), 0, Sys2Proof.Tests.tk 0x0A05 [], by unfold Waits; decide +kernel⟩,
    ⟨cmd 0x0A05 [] (r0), 0, Sys2Proof.Tests.tk 0x0A05 [], by unfold Waits; decide +kernel⟩,
    ⟨cmd 0x0704 [167] ({ r0 with cairn.images := [⟨1, 0, 1, 0, [], true⟩] }), 0, Sys2Proof.Tests.tk 0x0704 [167], 39, ⟨1, 0, 1, 0, [], true⟩, by unfold Waits; decide +kernel⟩,
    ⟨cmd 0x0B05 [] (r0), 0, Sys2Proof.Tests.tk 0x0B05 [], by unfold Waits; decide +kernel⟩,
    ⟨cmd 0x0906 [] (r0), 0, Sys2Proof.Tests.tk 0x0906 [], by unfold Waits; decide +kernel⟩⟩

theorem witness_IdentityAndRegionCommands :
    (∃ (s : State) (t : Nat) (_st : Nat) (_d : Nat) (_b : Bytes) (_l : List Nat) (tk : Ticket), (tget s.cmd.tickets t = some tk) ∧ (hasSecond s = false)) ∧
    (∃ (s : State) (t : Nat) (tk : Ticket), (Waits s t 0x0103 tk) ∧ (le tk.par 4 2 ≤ 16384)) ∧
    (∃ (s : State) (t : Nat) (n : Nat) (tk : Ticket), (Waits s t 0x0104 tk) ∧ (thas s.ids n = true) ∧ ((∀ x ∈ s.tables.regions, x.2.owner ≠ n))) ∧
    (∃ (s : State) (t : Nat) (n : Nat) (tk : Ticket) (x : Nat × Region), (Waits s t 0x0104 tk) ∧ (thas s.ids n = true) ∧ (x ∈ s.tables.regions) ∧ (x.2.owner = n)) ∧
    (∃ (s : State) (t : Nat) (n : Nat) (tk : Ticket), (Waits s t 0x0104 tk) ∧ (thas s.ids n = false)) ∧
    (∃ (s : State) (t : Nat) (tk : Ticket), (Waits s t 0x0106 tk) ∧ (le tk.par 0 1 = 1)) ∧
    (∃ (s : State) (t : Nat) (tk : Ticket), (Waits s t 0x0106 tk) ∧ (le tk.par 0 1 = 2)) ∧
    (∃ (s : State) (t : Nat) (k : Nat) (tk : Ticket), (Waits s t 0x0201 tk) ∧ (regionRefusal s tk (regionOfBytes 0 tk.par) = none) ∧ (newRegionKey s = some k)) ∧
    (∃ (s : State) (t : Nat) (tk : Ticket) (x : Nat × Nat), (Waits s t 0x0201 tk) ∧ (regionRefusal s tk (regionOfBytes 0 tk.par) = some x)) ∧
    (∃ (s : State) (t : Nat) (k : Nat) (tk : Ticket) (r : Region), (Waits s t 0x0203 tk) ∧ (regionOf s k = some r) ∧ (tk.owns r.owner = true) ∧ (r.pendingSent = false)) ∧
    (∃ (s : State) (t : Nat) (k : Nat) (tk : Ticket) (r : Region), (Waits s t 0x0203 tk) ∧ (regionOf s k = some r) ∧ (tk.owns r.owner = true) ∧ (r.pendingSent = true)) ∧
    (∃ (s : State) (t : Nat) (k : Nat) (tk : Ticket) (r : Region), (Waits s t 0x0203 tk) ∧ (regionOf s k = some r) ∧ (tk.owns r.owner = false)) ∧
    (∃ (s : State) (t : Nat) (g : Nat) (l : List Nat) (tk : Ticket), (Waits s t 0x0204 tk) ∧ (1 ≤ g) ∧ (g < 4096) ∧ (tget s.tables.groups g = none) ∧ ((∀ m ∈ l, m < 4096)) ∧ (l.Nodup)) ∧
    (∃ (s : State) (t : Nat) (k : Nat) (len : Nat) (num : Nat) (tk : Ticket) (c : Conn), (Waits s t 0x0206 tk) ∧ (tk.chan = .net num) ∧ (connOf s num = some c) ∧ (1 ≤ k) ∧ (k < 2 ^ 32) ∧ (64 ≤ len) ∧ (len ≤ 16777216) ∧ (s.ops.landings.length < 262144)) ∧
    (∃ (s : State) (t : Nat) (k : Nat) (num : Nat) (tk : Ticket), (Waits s t 0x0207 tk) ∧ (tk.chan = .net num) ∧ (thas s.ops.landings (landingKey (connIdx num) k) = true)) ∧
    (∃ (s : State) (t : Nat) (n : Nat) (tk : Ticket) (c : Conn), (Waits s t 0x0209 tk) ∧ (connOf s n = some c) ∧ (tk.owns c.ident = true) ∧ (c.st.isOpen = true)) :=
  ⟨⟨cmd 0x0101 [] (r0), 0, 0, 0, [], [], Sys2Proof.Tests.tk 0x0101 [], by decide +kernel⟩,
    ⟨cmd 0x0103 (zeros 72) (r0), 0, Sys2Proof.Tests.tk 0x0103 (zeros 72), by unfold Waits; decide +kernel⟩,
    ⟨cmd 0x0104 [] ({ r0 with ids := [(5, idn)] }), 0, 5, Sys2Proof.Tests.tk 0x0104 [], by unfold Waits; decide +kernel⟩,
    ⟨cmd 0x0104 [] ({ r0 with ids := [(5, idn)], tables.regions := [(3, { rgn with owner := 5 })] }), 0, 5, Sys2Proof.Tests.tk 0x0104 [], (3, { rgn with owner := 5 }), by unfold Waits; decide +kernel⟩,
    ⟨cmd 0x0104 [] (r0), 0, 5, Sys2Proof.Tests.tk 0x0104 [], by unfold Waits; decide +kernel⟩,
    ⟨cmd 0x0106 ([1] ++ zeros 63) (r0), 0, Sys2Proof.Tests.tk 0x0106 ([1] ++ zeros 63), by unfold Waits; decide +kernel⟩,
    ⟨cmd 0x0106 ([2] ++ zeros 63) (r0), 0, Sys2Proof.Tests.tk 0x0106 ([2] ++ zeros 63), by unfold Waits; decide +kernel⟩,
    (newRegionKey_some (cmd 0x0201 (zeros 6 ++ leBytes 6 64 ++ [1, 0, 0, 0x41] ++ zeros 8) { r0 with tables.objects := [(1, ob)] }) rfl).elim fun k h =>
      ⟨(cmd 0x0201 (zeros 6 ++ leBytes 6 64 ++ [1, 0, 0, 0x41] ++ zeros 8) { r0 with tables.objects := [(1, ob)] }), 0, k, Sys2Proof.Tests.tk 0x0201 (zeros 6 ++ leBytes 6 64 ++ [1, 0, 0, 0x41] ++ zeros 8), ⟨rfl, rfl, rfl, rfl, by decide +kernel, by decide +kernel⟩, by decide +kernel, h⟩,
    ⟨cmd 0x0201 (zeros 24) (r0), 0, Sys2Proof.Tests.tk 0x0201 (zeros 24), (scNotFound, 0), by unfold Waits; decide +kernel⟩,
    ⟨cmd 0x0203 [] ({ r0 with tables.regions := [(3, { rgn with key := rkey, owner := 5, pendingSent := false })] }), 0, rkey, Sys2Proof.Tests.tk 0x0203 [], { rgn with key := rkey, owner := 5, pendingSent := false }, by unfold Waits; decide +kernel⟩,
    ⟨cmd 0x0203 [] ({ r0 with tables.regions := [(3, { rgn with key := rkey, owner := 5, pendingSent := true })] }), 0, rkey, Sys2Proof.Tests.tk 0x0203 [], { rgn with key := rkey, owner := 5, pendingSent := true }, by unfold Waits; decide +kernel⟩,
    ⟨{ gd { r0 with tables.regions := [(3, { rgn with key := rkey, owner := 5 })] } with cmd.tickets := [(0, { Sys2Proof.Tests.tk 0x0203 with mgmt := false, ident := 6 })] }, 0, rkey, { Sys2Proof.Tests.tk 0x0203 with mgmt := false, ident := 6 }, { rgn with key := rkey, owner := 5 }, by unfold Waits; decide +kernel⟩,
    ⟨cmd 0x0204 [] (r0), 0, 4095, [0, 4095], Sys2Proof.Tests.tk 0x0204 [], by unfold Waits; decide +kernel⟩,
    ⟨{ gd cst with cmd.tickets := [(0, { Sys2Proof.Tests.tk 0x0206 with chan := .net 16386 })] }, 0, 2 ^ 32 - 1, 16777216, 16386, { Sys2Proof.Tests.tk 0x0206 with chan := .net 16386 }, cn, by unfold Waits; decide +kernel⟩,
    ⟨{ gd cst with cmd.tickets := [(0, { Sys2Proof.Tests.tk 0x0207 with chan := .net 16386 })], ops.landings := [(landingKey 2 7, 64)] }, 0, 7, 16386, { Sys2Proof.Tests.tk 0x0207 with chan := .net 16386 }, by unfold Waits; decide +kernel⟩,
    ⟨cmd 0x0209 [] (cst), 0, 16386, Sys2Proof.Tests.tk 0x0209 [], cn, by unfold Waits; decide +kernel⟩⟩

theorem witness_RegionKeys :
    (∃ (s : State) (k : Nat), (newRegionKey s = some k)) ∧
    (∃ (s : State) (k : Nat), (newRegionKey s = some k) ∧ (tcnt s.tables.regionGen (keyIdx k) ≤ 4095)) ∧
    (∃ (_s : State) (k : Nat), (keyGen k = 0)) ∧
    (∃ (s : State) (k : Nat) (r : Region), (regionOf s k = some r)) :=
  ⟨⟨r0, newRegionKey_some r0 rfl⟩,
    (newRegionKey_some r0 rfl).elim fun k h => ⟨r0, k, h, Nat.zero_le _⟩,
    ⟨r0, 2 ^ 20 - 1, by decide +kernel⟩,
    ⟨{ r0 with tables.regions := [(3, { rgn with key := rkey, owner := 5 })] }, rkey, { rgn with key := rkey, owner := 5 }, by decide +kernel⟩⟩

theorem witness_ChainAndPortCommands :
    (∃ (s : State) (t : Nat) (q : Nat) (own : Nat) (oc : Nat) (d : Nat) (rp : Nat) (_rep : Bool) (tk : Ticket), (Waits s t 0x020A tk) ∧ (tk.owns own = true) ∧ (q < 4096) ∧ (own < 4096) ∧ (oc < 2 ^ 24) ∧ (1 ≤ rp) ∧ (rp < 4) ∧ (depthOk d = true) ∧ (queueOf s q = none)) ∧
    (∃ (s : State) (t : Nat) (q : Nat) (w : Bytes) (x : Queue) (tk : Ticket), (Waits s t 0x020B tk) ∧ (queueOf s q = some x) ∧ (tk.owns x.owner = true) ∧ (w.length = 64) ∧ (x.used + 1 ≤ x.depth) ∧ (x.repeatMode = false)) ∧
    (∃ (s : State) (t : Nat) (q : Nat) (l : List Bytes) (x : Queue) (tk : Ticket), (Waits s t 0x020B tk) ∧ (queueOf s q = some x) ∧ (tk.owns x.owner = true) ∧ (1 ≤ l.length) ∧ (l.length ≤ 63) ∧ ((∀ w ∈ l, w.length = 64)) ∧ (x.used + l.length ≤ x.depth) ∧ ((x.repeatMode = false ∨ x.endSlot = none))) ∧
    (∃ (s : State) (t : Nat) (q : Nat) (l : List Bytes) (x : Queue) (tk : Ticket), (Waits s t 0x020B tk) ∧ (queueOf s q = some x) ∧ (tk.owns x.owner = true) ∧ (x.depth < x.used + l.length)) ∧
    (∃ (s : State) (t : Nat) (q : Nat) (x : Queue) (tk : Ticket), (Waits s t 0x020C tk) ∧ (queueOf s q = some x) ∧ (tk.owns x.owner = true) ∧ (x.st = .error) ∧ (x.run = none)) ∧
    (∃ (s : State) (q : Nat) (x : Queue), (queueOf s q = some x) ∧ (x.st = .error) ∧ (x.repeatMode = true)) ∧
    (∃ (s : State) (t : Nat) (q : Nat) (x : Queue) (tk : Ticket), (Waits s t 0x020D tk) ∧ (queueOf s q = some x) ∧ (tk.owns x.owner = true) ∧ (x.st = .idle)) ∧
    (∃ (s : State) (t : Nat) (q : Nat) (x : Queue) (tk : Ticket), (Waits s t 0x020D tk) ∧ (queueOf s q = some x) ∧ (tk.owns x.owner = true) ∧ (x.st = .running)) ∧
    (∃ (s : State) (t : Nat) (tag : Nat) (q : Nat) (g : Nat) (x : Queue) (tk : Ticket), (Waits s t 0x020F tk) ∧ (queueOf s q = some x) ∧ (tk.owns x.owner = true) ∧ (1 ≤ tag) ∧ (tag < 65536) ∧ (g < 4096) ∧ (thas s.tables.tags tag = false)) ∧
    (∃ (s : State) (t : Nat) (tag : Nat) (b : TagB) (x : Queue) (tk : Ticket), (Waits s t 0x0210 tk) ∧ (tget s.tables.tags tag = some b) ∧ (queueOf s b.queue = some x) ∧ (tk.owns x.owner = true)) ∧
    (∃ (s : State) (u : State) (t : Nat) (l : List (Nat × BitVec 64)) (tk : Ticket), (Waits s t 0x0211 tk) ∧ ((∀ x ∈ l, portReg x.1 = true)) ∧ (regCommands s l = some u)) ∧
    (∃ (s : State) (u : State) (t : Nat) (l : List (Nat × BitVec 64)) (r : List Nat) (tk : Ticket), (Waits s t 0x0211 tk) ∧ ((∀ x ∈ l, portReg x.1 = true)) ∧ ((∀ k ∈ r, k < 32)) ∧ (regCommands s l = some u)) ∧
    (∃ (s : State) (t : Nat) (l : List (Nat × BitVec 64)) (tk : Ticket), (Waits s t 0x0211 tk) ∧ (regCommands s l = none)) :=
  ⟨⟨cmd 0x020A [] (r0), 0, 4095, 5, 16386, 4096, 3, true, Sys2Proof.Tests.tk 0x020A [], by unfold Waits; decide +kernel⟩,
    ⟨cmd 0x020B [] ({ r0 with tables.queues := [(4095, qu none)] }), 0, 4095, zeros 64, qu none, Sys2Proof.Tests.tk 0x020B [], by unfold Waits; decide +kernel⟩,
    ⟨cmd 0x020B [] ({ r0 with tables.queues := [(4095, qu none)] }), 0, 4095, [zeros 64, zeros 64], qu none, Sys2Proof.Tests.tk 0x020B [], by unfold Waits; decide +kernel⟩,
    ⟨cmd 0x020B [] ({ r0 with tables.queues := [(4095, qu none)] }), 0, 4095, [[], [], [], [], []], qu none, Sys2Proof.Tests.tk 0x020B [], by unfold Waits; decide +kernel⟩,
    ⟨cmd 0x020C [] ({ r0 with tables.queues := [(4095, { qu none with st := .error })] }), 0, 4095, { qu none with st := .error }, Sys2Proof.Tests.tk 0x020C [], by unfold Waits; decide +kernel⟩,
    ⟨{ r0 with tables.queues := [(4095, { qu none with st := .error, repeatMode := true })] }, 4095, { qu none with st := .error, repeatMode := true }, by decide +kernel⟩,
    ⟨cmd 0x020D [] ({ r0 with tables.queues := [(4095, qu none)] }), 0, 4095, qu none, Sys2Proof.Tests.tk 0x020D [], by unfold Waits; decide +kernel⟩,
    ⟨cmd 0x020D [] ({ r0 with tables.queues := [(4095, { qu none with st := .running })] }), 0, 4095, { qu none with st := .running }, Sys2Proof.Tests.tk 0x020D [], by unfold Waits; decide +kernel⟩,
    ⟨cmd 0x020F [] ({ r0 with tables.queues := [(4095, qu none)] }), 0, 65535, 4095, 4095, qu none, Sys2Proof.Tests.tk 0x020F [], by unfold Waits; decide +kernel⟩,
    ⟨cmd 0x0210 [] ({ r0 with tables.queues := [(4095, qu none)], tables.tags := [(7, ⟨4095, 0, none, 0⟩)] }), 0, 7, ⟨4095, 0, none, 0⟩, qu none, Sys2Proof.Tests.tk 0x0210 [], by unfold Waits; decide +kernel⟩,
    ⟨cmd 0x0211 [] (r0), cmd 0x0211 [] (r0), 0, [], Sys2Proof.Tests.tk 0x0211 [], by unfold Waits; decide +kernel⟩,
    ⟨cmd 0x0211 [] (r0), cmd 0x0211 [] (r0), 0, [], [31], Sys2Proof.Tests.tk 0x0211 [], by unfold Waits; decide +kernel⟩,
    ⟨cmd 0x0211 [] (r0), 0, [(0xC0000, -1)], Sys2Proof.Tests.tk 0x0211 [], by unfold Waits; decide +kernel⟩⟩

theorem witness_ObjectAndTopoCommands :
    (∃ (s : State) (t : Nat) (n : Nat) (base : Nat) (tk : Ticket), (Waits s t 0x0301 tk) ∧ (tk.owns (le tk.par 10 2 % 4096) = true) ∧ (le tk.par 0 8 ≠ 0) ∧ (le tk.par 0 8 % 64 = 0) ∧ (le tk.par 8 1 ≤ 3) ∧ (le tk.par 9 1 ≤ 1) ∧ (tpick s.tables.objects 0 4194304 (freeVal s) = some n) ∧ (objBase s (cdiv (le tk.par 0 8) 16384) = some base) ∧ (placementFits s n (le tk.par 8 1) (base / 16384) (le tk.par 0 8) = true)) ∧
    (∃ (s : State) (t : Nat) (n : Nat) (c : Nat) (o : Obj) (tk : Ticket), (Waits s t 0x0303 tk) ∧ (objOf s n = some o) ∧ (tk.owns o.owner = true) ∧ (c ≤ 3) ∧ (o.st = .opened) ∧ (placementFits s n c (o.base / 16384) o.len = true)) ∧
    (∃ (s : State) (t : Nat) (n : Nat) (a : Nat) (len : Nat) (o : Obj) (tk : Ticket), (Waits s t 0x0304 tk) ∧ (objOf s n = some o) ∧ (tk.owns o.owner = true) ∧ (inObject o a len = true) ∧ (unbuiltOf s (slabsOf (o.base + a) len) = [])) ∧
    (∃ (s : State) (t : Nat) (n : Nat) (a : Nat) (len : Nat) (o : Obj) (tk : Ticket) (l : List Nat), (Waits s t 0x0304 tk) ∧ (objOf s n = some o) ∧ (tk.owns o.owner = true) ∧ (inObject o a len = true) ∧ (unbuiltOf s (slabsOf (o.base + a) len) = l) ∧ (l ≠ [])) ∧
    (∃ (s : State) (_t : Nat) (n : Nat) (_i : Nat) (x : Slab), (slabOf s n = x) ∧ (x.st = .dirty) ∧ (hasParked s n = false) ∧ (inWindow s n = false) ∧ (slabPin s n = false)) ∧
    (∃ (s : State) (_t : Nat) (n : Nat) (_i : Nat), ((slabOf s n).st = .clean) ∧ (inWindow s n = true)) ∧
    (∃ (s : State) (_t : Nat) (n : Nat) (k : Nat), (slabOf s n = { st := .clean, frame := k }) ∧ (hasParked s n = false) ∧ (inWindow s n = false) ∧ (slabPin s n = false)) ∧
    (∃ (s : State) (t : Nat) (n : Nat) (a : Nat) (len : Nat) (o : Obj) (tk : Ticket), (Waits s t 0x0305 tk) ∧ (objOf s n = some o) ∧ (tk.owns o.owner = true) ∧ (o.st = .opened) ∧ (a % 16384 = 0) ∧ (len % 16384 = 0) ∧ (len ≠ 0) ∧ (a + len ≤ o.slabCount * 16384) ∧ (unbuiltOf s (slabsOf (o.base + a) len) = [])) ∧
    (∃ (s : State) (t : Nat) (n : Nat) (a : Nat) (len : Nat) (o : Obj) (tk : Ticket) (l : List Nat), (Waits s t 0x0305 tk) ∧ (objOf s n = some o) ∧ (tk.owns o.owner = true) ∧ (o.st = .opened) ∧ (a % 16384 = 0) ∧ (len % 16384 = 0) ∧ (len ≠ 0) ∧ (a + len ≤ o.slabCount * 16384) ∧ (unbuiltOf s (slabsOf (o.base + a) len) = l) ∧ (l ≠ [])) ∧
    (∃ (s : State) (t : Nat) (n : Nat) (w : Nat) (o : Obj) (tk : Ticket) (tw : Ticket), (Waits s t 0x0306 tk) ∧ (objOf s n = some o) ∧ (tk.owns o.owner = true) ∧ (o.st = .deleting) ∧ (o.waiters = [w]) ∧ (tget s.cmd.tickets w = some tw) ∧ (tw.pendingSent = true)) ∧
    (∃ (s : State) (t : Nat) (n : Nat) (o : Obj) (tk : Ticket), (Waits s t 0x0306 tk) ∧ (objOf s n = some o) ∧ (tk.owns o.owner = true) ∧ (o.st = .opened) ∧ (o.waiters = [])) ∧
    (∃ (s : State) (t : Nat) (o : Obj) (tk : Ticket), (Waits s t 0x0307 tk) ∧ (objOf s (le tk.par 0 3 % 2 ^ 22) = some o) ∧ (tk.owns o.owner = true) ∧ (publishRefusal s (le tk.par 0 3 % 2 ^ 22) o tk.par = none)) ∧
    (∃ (_s : State) (_n : Nat) (o : Obj) (_b : Bytes), (o.st = .published)) ∧
    (∃ (s : State) (t : Nat) (tk : Ticket), (Waits s t 0x0308 tk) ∧ (tk.owns (le tk.par 6 2 % 4096) = true) ∧ (le tk.par 0 2 < 1024) ∧ (le tk.par 2 1 ≤ 8) ∧ (le tk.par 3 1 ≤ 15) ∧ (1 ≤ le tk.par 8 2) ∧ (le tk.par 8 2 ≤ 4096) ∧ (thas s.tables.topos (le tk.par 0 2) = false)) ∧
    (∃ (s : State) (t : Nat) (n : Nat) (x : Topo) (tk : Ticket), (Waits s t 0x0309 tk) ∧ (tget s.tables.topos n = some x) ∧ (tk.owns x.owner = true) ∧ (x.committed = false) ∧ (le tk.par 0 2 < x.count) ∧ (1 ≤ le tk.par 2 2) ∧ (le tk.par 2 2 ≤ 255) ∧ (badExtent tk.par = none) ∧ (extentsHeld s + le tk.par 2 2 ≤ 1048576)) ∧
    (∃ (s : State) (t : Nat) (n : Nat) (x : Topo) (tk : Ticket), (Waits s t 0x030A tk) ∧ (tget s.tables.topos n = some x) ∧ (tk.owns x.owner = true) ∧ (x.committed = false) ∧ (topoSound s x = true)) ∧
    (∃ (s : State) (t : Nat) (n : Nat) (x : Topo) (tk : Ticket), (Waits s t 0x030B tk) ∧ (tget s.tables.topos n = some x) ∧ (tk.owns x.owner = true)) ∧
    (∃ (s : State) (t : Nat) (n : Nat) (k : Nat) (x : Topo) (tk : Ticket), (Waits s t 0x030C tk) ∧ (tget s.tables.topos n = some x) ∧ (tk.owns x.owner = true) ∧ (x.committed = true) ∧ (k < x.count)) ∧
    (∃ (s : State) (t : Nat) (n : Nat) (a : Nat) (len : Nat) (o : Obj) (tk : Ticket), (Waits s t 0x030E tk) ∧ (objOf s n = some o) ∧ (tk.owns o.owner = true) ∧ (o.cls = 0) ∧ (inObject o a len = true)) ∧
    (∃ (s : State) (t : Nat) (a : Nat) (len : Nat) (tk : Ticket), (Waits s t 0x030F tk) ∧ (tk.mgmt = true) ∧ (len ≠ 0) ∧ (a + len ≤ rangeGib s * 2 ^ 30)) ∧
    (∃ (s : State) (u : State) (t : Nat) (n : Nat) (w : BitVec 64) (tk : Ticket), (Waits s t 0x0310 tk) ∧ (s.val.root = none) ∧ (lockWaysBad s n = false) ∧ (regCommand s 0xA0000 w.toNat = some u) ∧ (stage (lockWaysSet u n) ≠ 8)) ∧
    (∃ (s : State) (t : Nat) (_n : Nat) (w : BitVec 64) (r : Root) (tk : Ticket), (Waits s t 0x0310 tk) ∧ (s.val.root = some r) ∧ (r.rangeGib ≠ inFld Reg.campRangeCfgRangeGib w.toNat)) :=
  ⟨(tpick_some (cmd 0x0301 (leBytes 8 64 ++ [3, 0] ++ zeros 6) (fld [(Reg.campRangeCfgRangeGib, 64)] r0)).tables.objects 4194304 (freeVal (cmd 0x0301 (leBytes 8 64 ++ [3, 0] ++ zeros 6) (fld [(Reg.campRangeCfgRangeGib, 64)] r0))) rfl (by decide)).elim fun n h =>
      ⟨(cmd 0x0301 (leBytes 8 64 ++ [3, 0] ++ zeros 6) (fld [(Reg.campRangeCfgRangeGib, 64)] r0)), 0, n, (objBase (cmd 0x0301 (leBytes 8 64 ++ [3, 0] ++ zeros 6) (fld [(Reg.campRangeCfgRangeGib, 64)] r0)) 1).getD 0, Sys2Proof.Tests.tk 0x0301 (leBytes 8 64 ++ [3, 0] ++ zeros 6), ⟨rfl, rfl, rfl, rfl, by decide +kernel, by decide +kernel⟩, rfl,
        by decide, by decide, by decide, by decide, h, by decide +kernel, placementFits_plain _ _ _ _ _ (by decide)⟩,
    ⟨cmd 0x0303 [] ({ r0 with tables.objects := [(1, ob)] }), 0, 1, 3, ob, Sys2Proof.Tests.tk 0x0303 [], by unfold Waits; decide +kernel⟩,
    ⟨cmd 0x0304 [] (bt { r0 with tables.objects := [(1, ob)] }), 0, 1, 0, 8192, ob, Sys2Proof.Tests.tk 0x0304 [], by unfold Waits; decide +kernel⟩,
    ⟨cmd 0x0304 [] ({ r0 with tables.objects := [(1, ob)] }), 0, 1, 0, 8192, ob, Sys2Proof.Tests.tk 0x0304 [], [0], by unfold Waits; decide +kernel⟩,
    ⟨{ r0 with tables.objects := [(1, { ob with base := 0, len := 16384, cls := 2 })], range.slabs := [(0, ⟨.dirty, 0, false, none, 0, none, false, 0, none, []⟩)] }, 0, 0, 4, ⟨.dirty, 0, false, none, 0, none, false, 0, none, []⟩, by decide +kernel⟩,
    ⟨{ sl 3 { st := .clean } with tables.topos := [(1, twin)], tables.objects := [(1, ob)] }, 0, 3, 0, by decide +kernel⟩,
    ⟨sl 3 { st := .clean, frame := 9 }, 0, 3, 9, by decide +kernel⟩,
    ⟨cmd 0x0305 [] (bt { r0 with tables.objects := [(1, ob)] }), 0, 1, 0, 16384, ob, Sys2Proof.Tests.tk 0x0305 [], by unfold Waits; decide +kernel⟩,
    ⟨cmd 0x0305 [] ({ r0 with tables.objects := [(1, ob)] }), 0, 1, 0, 16384, ob, Sys2Proof.Tests.tk 0x0305 [], [0], by unfold Waits; decide +kernel⟩,
    ⟨{ gd { r0 with tables.objects := [(1, { ob with st := .deleting, waiters := [5] })] } with cmd.tickets := [(0, tk 0x0306), (5, { tk 0x0306 with st := .executing, pendingSent := true })] }, 0, 1, 5, { ob with st := .deleting, waiters := [5] }, Sys2Proof.Tests.tk 0x0306 [], { Sys2Proof.Tests.tk 0x0306 with st := .executing, pendingSent := true }, by unfold Waits; decide +kernel⟩,
    ⟨cmd 0x0306 [] ({ r0 with tables.objects := [(1, ob)] }), 0, 1, ob, Sys2Proof.Tests.tk 0x0306 [], by unfold Waits; decide +kernel⟩,
    ⟨cmd 0x0307 ([1] ++ zeros 63) ({ r0 with tables.objects := [(1, ob)] }), 0, ob, Sys2Proof.Tests.tk 0x0307 ([1] ++ zeros 63), by unfold Waits; decide +kernel⟩,
    ⟨r0, 1, { ob with st := .published }, [], by decide +kernel⟩,
    ⟨cmd 0x0308 (leBytes 2 1023 ++ [8, 15] ++ zeros 4 ++ leBytes 2 4096 ++ zeros 6) (r0), 0, Sys2Proof.Tests.tk 0x0308 (leBytes 2 1023 ++ [8, 15] ++ zeros 4 ++ leBytes 2 4096 ++ zeros 6), by unfold Waits; decide +kernel⟩,
    ⟨cmd 0x0309 (leBytes 2 2 ++ leBytes 2 1 ++ zeros 12 ++ (zeros 4 ++ leBytes 6 64 ++ leBytes 6 64)) ({ r0 with tables.topos := [(1, tpo)] }), 0, 1, tpo, Sys2Proof.Tests.tk 0x0309 (leBytes 2 2 ++ leBytes 2 1 ++ zeros 12 ++ (zeros 4 ++ leBytes 6 64 ++ leBytes 6 64)), by unfold Waits; decide +kernel⟩,
    ⟨cmd 0x030A [] ({ r0 with tables.topos := [(1, { tpo with count := 1, steps := [(0, [])] })] }), 0, 1, { tpo with count := 1, steps := [(0, [])] }, Sys2Proof.Tests.tk 0x030A [], by unfold Waits; decide +kernel⟩,
    ⟨cmd 0x030B [] ({ r0 with tables.topos := [(1, tpo)] }), 0, 1, tpo, Sys2Proof.Tests.tk 0x030B [], by unfold Waits; decide +kernel⟩,
    ⟨cmd 0x030C [] ({ r0 with tables.topos := [(1, { tpo with committed := true })] }), 0, 1, 2, { tpo with committed := true }, Sys2Proof.Tests.tk 0x030C [], by unfold Waits; decide +kernel⟩,
    ⟨cmd 0x030E [] ({ r0 with tables.objects := [(1, { ob with cls := 0 })] }), 0, 1, 0, 8192, { ob with cls := 0 }, Sys2Proof.Tests.tk 0x030E [], by unfold Waits; decide +kernel⟩,
    ⟨cmd 0x030F [] (fld [(Reg.campRangeCfgRangeGib, 64)] r0), 0, 0, 64 * 2 ^ 30, Sys2Proof.Tests.tk 0x030F [], by unfold Waits; decide +kernel⟩,
    ⟨cmd 0x0310 [] (r0), (regCommand (cmd 0x0310 [] (r0)) 0xA0000 (readReg r0 0xA0000)).getD r0, 0, 0, BitVec.ofNat 64 (readReg r0 0xA0000), Sys2Proof.Tests.tk 0x0310 [], by unfold Waits; decide +kernel⟩,
    ⟨cmd 0x0310 [] ({ r0 with val.root := some { seq := 1, rangeGib := 64, budgetGib := 8 } }), 0, 0, 0, { seq := 1, rangeGib := 64, budgetGib := 8 }, Sys2Proof.Tests.tk 0x0310 [], by unfold Waits; decide +kernel⟩⟩

theorem witness_KeyAndRopeCommands :
    (∃ (s : State) (t : Nat) (n : Nat) (r : RootKey) (tk : Ticket), (Waits s t 0x0401 tk) ∧ (le tk.par 4 1 < 16) ∧ (unwrapRoot s tk.par = some (n, r)) ∧ (rootBound s n = false)) ∧
    (∃ (s : State) (t : Nat) (tk : Ticket), (Waits s t 0x0401 tk) ∧ (le tk.par 4 1 < 16) ∧ (unwrapRoot s tk.par = none)) ∧
    (∃ (s : State) (t : Nat) (n : Nat) (tk : Ticket), (Waits s t 0x0402 tk) ∧ (n < 16) ∧ (thas s.key.roots n = true) ∧ (rootBound s n = false)) ∧
    (∃ (s : State) (t : Nat) (n : Nat) (tk : Ticket), (Waits s t 0x0402 tk) ∧ (n < 16) ∧ (thas s.key.roots n = true) ∧ (rootBound s n = true)) ∧
    (∃ (s : State) (t : Nat) (n : Nat) (k : KeySlot) (tk : Ticket), (Waits s t 0x0405 tk) ∧ (n < 4096) ∧ (tk.mgmt = true) ∧ (tget s.key.slots n = some k) ∧ (k.title = false) ∧ (k.genMax < 65535)) ∧
    (∃ (s : State) (n : Nat) (k : KeySlot), (tget s.key.slots n = some k)) ∧
    (∃ (s : State) (u : State) (t : Nat) (w : BitVec 64) (tk : Ticket), (Waits s t 0x0407 tk) ∧ (regCommand s 0xE0000 w.toNat = some u)) ∧
    (∃ (s : State) (t : Nat) (obj : Nat) (unit : Nat) (a : Nat) (b : Nat) (dst : Nat) (tk : Ticket), (Waits s t 0x0408 tk) ∧ (unsealRefusal s obj unit 1 a b dst = none)) ∧
    (∃ (s : State) (obj : Nat) (unit : Nat) (n : Nat) (a : Nat) (b : Nat) (dst : Nat), (unsealRefusal s obj unit n a b dst = none)) ∧
    (∃ (s : State) (t : Nat) (obj : Nat) (unit : Nat) (n : Nat) (a : Nat) (b : Nat) (dst : Nat) (tk : Ticket), (Waits s t 0x0408 tk) ∧ (unsealRefusal s obj unit n a b dst = none)) ∧
    (∃ (s : State) (t : Nat) (obj : Nat) (unit : Nat) (n : Nat) (a : Nat) (b : Nat) (dst : Nat) (k : Nat) (tk : Ticket), (Waits s t 0x0408 tk) ∧ (unsealRefusal s obj unit n a b dst = some k) ∧ (k ≠ scOutOfRange)) ∧
    (∃ (s : State) (t : Nat) (c : Nat) (own : Nat) (n : Nat) (_ch : Bool) (x : Nat × Nat × Nat × Bool × Bool × Nat × Nat) (tk : Ticket), (Waits s t 0x0409 tk) ∧ (tk.mgmt = true) ∧ (16 ≤ c) ∧ (c < 1024) ∧ (own < 4096) ∧ (ctxParams (.preset n) = some x)) ∧
    (∃ (s : State) (t : Nat) (c : Nat) (own : Nat) (p : CrcPar) (_ch : Bool) (x : Nat × Nat × Nat × Bool × Bool × Nat × Nat) (_r : BitVec 64) (tk : Ticket), (Waits s t 0x0409 tk) ∧ (tk.mgmt = true) ∧ (16 ≤ c) ∧ (c < 1024) ∧ (own < 4096) ∧ (ctxParams p = some x)) ∧
    (∃ (s : State) (t : Nat) (c : Nat) (own : Nat) (_n : Nat) (_ch : Bool) (tk : Ticket), (Waits s t 0x0409 tk) ∧ (tk.mgmt = true) ∧ (c < 16) ∧ (own < 4096)) ∧
    (∃ (s : State) (t : Nat) (tk : Ticket), (Waits s t 0x0502 tk) ∧ (tk.mgmt = true) ∧ (team s = teamRoped) ∧ (role s = roleLead) ∧ (s.rope.handoverTicket = none)) ∧
    (∃ (s : State) (t : Nat) (tk : Ticket), (Waits s t 0x0502 tk) ∧ (tk.mgmt = true) ∧ (team s = teamRoped) ∧ (role s = roleSecond) ∧ (s.rope.handoverTicket = none)) ∧
    (∃ (s : State) (t : Nat) (tk : Ticket), (Waits s t 0x0502 tk) ∧ (tk.mgmt = true) ∧ (team s ≠ teamRoped)) ∧
    (∃ (s : State) (t : Nat) (tk : Ticket), (Waits s t 0x0503 tk) ∧ (tk.mgmt = true) ∧ (le tk.par 0 1 ≤ 1)) ∧
    (∃ (s : State) (t : Nat) (tk : Ticket), (Waits s t 0x0504 tk) ∧ (serviceOpen s = false) ∧ (team s = teamNegotiating) ∧ (getF s Reg.fabStartStatusWait ≠ 4)) ∧
    (∃ (s : State) (t : Nat) (tk : Ticket), (Waits s t 0x0504 tk) ∧ (serviceOpen s = false) ∧ (team s = teamNegotiating) ∧ (getF s Reg.fabStartStatusWait = 4)) ∧
    (∃ (s : State) (t : Nat) (tk : Ticket), (Waits s t 0x0504 tk) ∧ (serviceOpen s = true)) ∧
    (∃ (s : State) (u : State) (t : Nat) (w : BitVec 64) (tk : Ticket), (Waits s t 0x0505 tk) ∧ (regCommand s 0xD0000 w.toNat = some u)) :=
  ⟨⟨cmd 0x0401 blob, 0, 15, _, Sys2Proof.Tests.tk 0x0401 blob, ⟨rfl, rfl, rfl, rfl, by decide +kernel, by decide +kernel⟩, by decide +kernel, unwrapRoot_tagged, rfl⟩,
    ⟨cmd 0x0401 (zeros 96) (r0), 0, Sys2Proof.Tests.tk 0x0401 (zeros 96), by unfold Waits; decide +kernel⟩,
    ⟨cmd 0x0402 [] ({ r0 with key.roots := [(15, ⟨1, 9, some []⟩)] }), 0, 15, Sys2Proof.Tests.tk 0x0402 [], by unfold Waits; decide +kernel⟩,
    ⟨cmd 0x0402 [] ({ r0 with key.roots := [(15, ⟨1, 9, some []⟩)], key.slots := [(5, { kslot with root := 15 })] }), 0, 15, Sys2Proof.Tests.tk 0x0402 [], by unfold Waits; decide +kernel⟩,
    ⟨cmd 0x0405 [] ({ r0 with key.slots := [(4095, kslot)] }), 0, 4095, kslot, Sys2Proof.Tests.tk 0x0405 [], by unfold Waits; decide +kernel⟩,
    ⟨{ r0 with key.slots := [(4095, kslot)] }, 4095, kslot, by decide +kernel⟩,
    ⟨cmd 0x0407 [] (r0), (regCommand (cmd 0x0407 [] (r0)) 0xE0000 (readReg r0 0xE0000)).getD r0, 0, BitVec.ofNat 64 (readReg r0 0xE0000), Sys2Proof.Tests.tk 0x0407 [], by unfold Waits; decide +kernel⟩,
    ⟨cmd 0x0408 [] (unsl), 0, 1, 0, rkey, rkey + 1, 0, Sys2Proof.Tests.tk 0x0408 [], by unfold Waits; decide +kernel⟩,
    ⟨unsl, 1, 0, 1, rkey, rkey + 1, 0, by decide +kernel⟩,
    ⟨cmd 0x0408 [] (unsl), 0, 1, 0, 1, rkey, rkey + 1, 0, Sys2Proof.Tests.tk 0x0408 [], by unfold Waits; decide +kernel⟩,
    ⟨cmd 0x0408 [] (r0), 0, 1, 0, 1, rkey, rkey + 1, 0, scNotFound, Sys2Proof.Tests.tk 0x0408 [], by unfold Waits; decide +kernel⟩,
    ⟨cmd 0x0409 [] (r0), 0, 1023, 4095, 1, true, (ctxParams (.preset 1)).getD default, Sys2Proof.Tests.tk 0x0409 [], by refine ⟨?_, ?_, ?_, ?_, ?_, ?_⟩ <;> (first | rfl | decide +kernel | exact ⟨rfl, rfl, rfl, rfl, by decide +kernel, by decide +kernel⟩ | exact ⟨rfl, by decide, rfl, rfl, rfl, rfl, rfl, rfl, rfl⟩ | nofun)⟩,
    ⟨cmd 0x0409 [] (r0), 0, 1023, 4095, .preset 1, true, (ctxParams (.preset 1)).getD default, 9, Sys2Proof.Tests.tk 0x0409 [], by refine ⟨?_, ?_, ?_, ?_, ?_, ?_⟩ <;> (first | rfl | decide +kernel | exact ⟨rfl, rfl, rfl, rfl, by decide +kernel, by decide +kernel⟩ | exact ⟨rfl, by decide, rfl, rfl, rfl, rfl, rfl, rfl, rfl⟩ | nofun)⟩,
    ⟨cmd 0x0409 [] (r0), 0, 15, 4095, 1, true, Sys2Proof.Tests.tk 0x0409 [], by unfold Waits; decide +kernel⟩,
    ⟨cmd 0x0502 [] (rp roleLead), 0, Sys2Proof.Tests.tk 0x0502 [], by unfold Waits; decide +kernel⟩,
    ⟨cmd 0x0502 [] (rp roleSecond), 0, Sys2Proof.Tests.tk 0x0502 [], by unfold Waits; decide +kernel⟩,
    ⟨cmd 0x0502 [] (fld [(Reg.rlStatusState, teamSingle)] (rp roleLead)), 0, Sys2Proof.Tests.tk 0x0502 [], by unfold Waits; decide +kernel⟩,
    ⟨cmd 0x0503 ([1] ++ zeros 7) (r0), 0, Sys2Proof.Tests.tk 0x0503 ([1] ++ zeros 7), by unfold Waits; decide +kernel⟩,
    ⟨cmd 0x0504 [] (fld [(Reg.rlStatusState, teamNegotiating)] r0), 0, Sys2Proof.Tests.tk 0x0504 [], by unfold Waits; decide +kernel⟩,
    ⟨cmd 0x0504 [] (fld [(Reg.rlStatusState, teamNegotiating), (Reg.fabStartStatusWait, 4)] r0), 0, Sys2Proof.Tests.tk 0x0504 [], by unfold Waits; decide +kernel⟩,
    ⟨cmd 0x0504 [] (svc), 0, Sys2Proof.Tests.tk 0x0504 [], by unfold Waits; decide +kernel⟩,
    ⟨cmd 0x0505 [] (r0), (regCommand (cmd 0x0505 [] (r0)) 0xD0000 (readReg r0 0xD0000)).getD r0, 0, BitVec.ofNat 64 (readReg r0 0xD0000), Sys2Proof.Tests.tk 0x0505 [], by unfold Waits; decide +kernel⟩⟩

theorem witness_PowerAndLogCommands :
    (∃ (s : State) (t : Nat) (tk : Ticket), (Waits s t 0x0602 tk) ∧ (tk.mgmt = true) ∧ (seqState s = stService)) ∧
    (∃ (s : State) (t : Nat) (tk : Ticket), (Waits s t 0x0602 tk) ∧ (tk.mgmt = true) ∧ (seqState s ≠ stService)) ∧
    (∃ (s : State) (t : Nat) (r : Nat) (tk : Ticket), (Waits s t 0x0603 tk) ∧ (r ≤ 46)) ∧
    (∃ (s : State) (t : Nat) (r : Nat) (tk : Ticket), (Waits s t 0x0603 tk) ∧ (46 < r)) ∧
    (∃ (s : State) (u : State) (t : Nat) (w : BitVec 64) (tk : Ticket), (Waits s t 0x0605 tk) ∧ (regCommand s 0x60000 w.toNat = some u)) ∧
    (∃ (s : State) (t : Nat) (w : BitVec 64) (tk : Ticket), (Waits s t 0x0605 tk) ∧ (regCommand s 0x60000 w.toNat = none)) ∧
    (∃ (s : State) (u : State) (t : Nat) (w : BitVec 64) (tk : Ticket), (Waits s t 0x0607 tk) ∧ (regCommand s 0x50000 w.toNat = some u)) ∧
    (∃ (s : State) (t : Nat) (d : Nat) (tk : Ticket), (Waits s t 0x0606 tk) ∧ (d < 127) ∧ (switchRule s d false = .free) ∧ (d < 42) ∧ (d ≠ 9) ∧ (domOn s d = true)) ∧
    (∃ (s : State) (t : Nat) (d : Nat) (tk : Ticket), (Waits s t 0x0606 tk) ∧ (d < 127) ∧ (switchRule s d true = .free) ∧ (domOn s d = false)) ∧
    (∃ (s : State) (t : Nat) (d : Nat) (tk : Ticket), (Waits s t 0x0606 tk) ∧ (42 ≤ d) ∧ (d ≤ 57) ∧ (switchRule s d false = .free) ∧ (domOn s d = true)) ∧
    (∃ (s : State) (t : Nat) (d : Nat) (b : Bool) (tk : Ticket), (Waits s t 0x0606 tk) ∧ (d < 127) ∧ (switchRule s d b = .unmet)) ∧
    (∃ (s : State) (d : Nat), (11 ≤ d) ∧ (d ≤ 41) ∧ (guideIdle s (d - 10) = false)) ∧
    (∃ (s : State) (t : Nat) (d : Nat) (b : Bool) (tk : Ticket), (Waits s t 0x0606 tk) ∧ (d < 127) ∧ (switchRule s d b = .never)) ∧
    (∃ (s : State) (t : Nat) (_b : Bool) (tk : Ticket), (Waits s t 0x0606 tk) ∧ (tk.level < 3)) ∧
    (∃ (s : State) (_b : Bool), (isSet s Reg.rlCfgTeamEn = true)) ∧
    (∃ (s : State) (t : Nat) (n : Nat) (tk : Ticket), (Waits s t 0x0703 tk) ∧ (tk.mgmt = true) ∧ (n < 40)) ∧
    (∃ (s : State) (t : Nat) (n : Nat) (tk : Ticket), (Waits s t 0x0705 tk) ∧ (tk.mgmt = true) ∧ (n < 40)) ∧
    (∃ (s : State) (t : Nat) (n : Nat) (tk : Ticket), (Waits s t 0x0705 tk) ∧ (tk.mgmt = true) ∧ (n < 40) ∧ ((plogOf s n).frozen = true)) ∧
    (∃ (s : State) (t : Nat) (tk : Ticket), (Waits s t 0x0703 tk) ∧ (tk.mgmt = true)) ∧
    (∃ (s : State) (t : Nat) (tk : Ticket), (Waits s t 0x0705 tk) ∧ (tk.mgmt = true)) ∧
    (∃ (s : State) (n : Nat), (wfAutoThaw n = true) ∧ ((plogOf s n).frozen = true)) ∧
    (∃ (s : State) (t : Nat) (src : Nat) (q : Nat) (tk : Ticket), (Waits s t 0x0707 tk) ∧ (src < 40) ∧ (q < 16)) ∧
    (∃ (s : State) (t : Nat) (src : Nat) (tk : Ticket), (Waits s t 0x0707 tk) ∧ ((src < 40 ∨ src = srcLog))) :=
  ⟨⟨cmd 0x0602 [] (svc), 0, Sys2Proof.Tests.tk 0x0602 [], by unfold Waits; decide +kernel⟩,
    ⟨cmd 0x0602 [] (r0), 0, Sys2Proof.Tests.tk 0x0602 [], by unfold Waits; decide +kernel⟩,
    ⟨cmd 0x0603 [] (r0), 0, 46, Sys2Proof.Tests.tk 0x0603 [], by unfold Waits; decide +kernel⟩,
    ⟨cmd 0x0603 [] (r0), 0, 47, Sys2Proof.Tests.tk 0x0603 [], by unfold Waits; decide +kernel⟩,
    ⟨cmd 0x0605 [] (r0), (regCommand (cmd 0x0605 [] (r0)) 0x60000 (readReg r0 0x60000)).getD r0, 0, BitVec.ofNat 64 (readReg r0 0x60000), Sys2Proof.Tests.tk 0x0605 [], by unfold Waits; decide +kernel⟩,
    ⟨cmd 0x0605 [] (r0), 0, 0, Sys2Proof.Tests.tk 0x0605 [], by unfold Waits; decide +kernel⟩,
    ⟨cmd 0x0607 [] (r0), (regCommand (cmd 0x0607 [] (r0)) 0x50000 (readReg r0 0x50000)).getD r0, 0, BitVec.ofNat 64 (readReg r0 0x50000), Sys2Proof.Tests.tk 0x0607 [], by unfold Waits; decide +kernel⟩,
    ⟨cmd 0x0606 [] (setDom r0 41 true), 0, 41, Sys2Proof.Tests.tk 0x0606 [], by unfold Waits; decide +kernel⟩,
    ⟨cmd 0x0606 [] (r0), 0, 41, Sys2Proof.Tests.tk 0x0606 [], by unfold Waits; decide +kernel⟩,
    ⟨cmd 0x0606 [] (setDom r0 57 true), 0, 57, Sys2Proof.Tests.tk 0x0606 [], by unfold Waits; decide +kernel⟩,
    ⟨cmd 0x0606 [] (r0), 0, 42, true, Sys2Proof.Tests.tk 0x0606 [], by unfold Waits; decide +kernel⟩,
    ⟨{ r0 with cmd.tickets := [(0, { tk 0x0309 with guide := some 31 })] }, 41, by decide +kernel⟩,
    ⟨cmd 0x0606 [] (r0), 0, 126, true, Sys2Proof.Tests.tk 0x0606 [], by unfold Waits; decide +kernel⟩,
    ⟨{ gd r0 with cmd.tickets := [(0, { Sys2Proof.Tests.tk 0x0606 with level := 1 })] }, 0, true, { Sys2Proof.Tests.tk 0x0606 with level := 1 }, by unfold Waits; decide +kernel⟩,
    ⟨fld [(Reg.rlCfgTeamEn, 1)] r0, true, by decide +kernel⟩,
    ⟨cmd 0x0703 [] (r0), 0, 39, Sys2Proof.Tests.tk 0x0703 [], by unfold Waits; decide +kernel⟩,
    ⟨cmd 0x0705 [] ({ r0 with plog := [(39, { frozen := true })] }), 0, 39, Sys2Proof.Tests.tk 0x0705 [], by unfold Waits; decide +kernel⟩,
    ⟨cmd 0x0705 [] ({ r0 with plog := [(39, { frozen := true })] }), 0, 39, Sys2Proof.Tests.tk 0x0705 [], by unfold Waits; decide +kernel⟩,
    ⟨cmd 0x0703 [] (r0), 0, Sys2Proof.Tests.tk 0x0703 [], by unfold Waits; decide +kernel⟩,
    ⟨cmd 0x0705 [] (r0), 0, Sys2Proof.Tests.tk 0x0705 [], by unfold Waits; decide +kernel⟩,
    ⟨{ r0 with plog := [(39, { frozen := true })] }, 39, by decide +kernel⟩,
    ⟨cmd 0x0707 [] (r0), 0, 39, 15, Sys2Proof.Tests.tk 0x0707 [], by unfold Waits; decide +kernel⟩,
    ⟨cmd 0x0707 [] (r0), 0, srcLog, Sys2Proof.Tests.tk 0x0707 [], by unfold Waits; decide +kernel⟩⟩

theorem witness_LogCleared :
    (∃ (s : State) (t : Nat) (tk : Ticket), (Waits s t 0x0702 tk) ∧ (tk.mgmt = true) ∧ ((∀ n, tk.chan ≠ .net n))) ∧
    (∃ (s : State) (t : Nat) (n : Nat) (tk : Ticket), (Waits s t 0x0702 tk) ∧ (tk.mgmt = true) ∧ (tk.chan = .net n)) ∧
    (∃ (s : State) (_who : Nat) (_chan : Nat), (s.log.loaded = true)) :=
  ⟨⟨cmd 0x0702 [] (r0), 0, Sys2Proof.Tests.tk 0x0702 [], by refine ⟨?_, ?_, ?_⟩ <;> (first | rfl | decide +kernel | exact ⟨rfl, rfl, rfl, rfl, by decide +kernel, by decide +kernel⟩ | exact ⟨rfl, by decide, rfl, rfl, rfl, rfl, rfl, rfl, rfl⟩ | nofun)⟩,
    ⟨{ gd r0 with cmd.tickets := [(0, { Sys2Proof.Tests.tk 0x0702 with chan := .net 16386 })] }, 0, 16386, { Sys2Proof.Tests.tk 0x0702 with chan := .net 16386 }, by unfold Waits; decide +kernel⟩,
    ⟨{ r0 with log.loaded := true }, 5, 1, by decide +kernel⟩⟩

theorem witness_MediaCommands :
    (∃ (s : State) (u : State) (t : Nat) (w : BitVec 64) (tk : Ticket), (Waits s t 0x0801 tk) ∧ (regCommand s 0xA0028 w.toNat = some u)) ∧
    (∃ (s : State) (u : State) (t : Nat) (a : BitVec 64) (b : BitVec 64) (c : BitVec 64) (tk : Ticket), (Waits s t 0x0803 tk) ∧ (isSet s Reg.campRfgCfgEn = false) ∧ (regCommands s [(0xA0010, a), (0xA0018, b), (0xA0020, c)] = some u)) ∧
    (∃ (s : State) (t : Nat) (_a : BitVec 64) (b : BitVec 64) (_c : BitVec 64) (tk : Ticket), (Waits s t 0x0803 tk) ∧ (isSet s Reg.campRfgCfgEn = true) ∧ (bit b.toNat 48 = false) ∧ (tk.level < 3)) ∧
    (∃ (s : State) (t : Nat) (ch : Nat) (sub : Nat) (rk : Nat) (bk : Nat) (row : Nat) (cpa : Nat) (tk : Ticket), (Waits s t 0x0804 tk) ∧ (rowCpa s ch sub rk bk row = some cpa)) ∧
    (∃ (s : State) (u : State) (t : Nat) (w : BitVec 64) (tk : Ticket), (Waits s t 0x0805 tk) ∧ (regCommand s 0xB0000 w.toNat = some u)) ∧
    (∃ (s : State) (t : Nat) (tk : Ticket), (Waits s t 0x0901 tk) ∧ (le tk.par 0 1 ≤ 1) ∧ (le tk.par 4 4 % 256 = 0) ∧ (le tk.par 4 4 + (tk.par.drop 8).length ≤ 0x600000) ∧ (bankRunning s ≠ some (le tk.par 0 1)) ∧ (let u := (List.range ((tk.par.drop 8).length / 256)).foldl (writeRow (le tk.par 0 1) (le tk.par 4 4) (tk.par.drop 8)) (csStatus (setBank2 s (le tk.par 0 1) { bankOf s (le tk.par 0 1) with committed := false }) 0); u.cairn.status ≠ 2)) ∧
    (∃ (s : State) (t : Nat) (tk : Ticket), (Waits s t 0x0901 tk) ∧ (le tk.par 0 1 ≤ 1) ∧ (le tk.par 4 4 % 256 = 0) ∧ (le tk.par 4 4 + (tk.par.drop 8).length ≤ 0x600000) ∧ (bankRunning s ≠ some (le tk.par 0 1)) ∧ (let u := (List.range ((tk.par.drop 8).length / 256)).foldl (writeRow (le tk.par 0 1) (le tk.par 4 4) (tk.par.drop 8)) (csStatus (setBank2 s (le tk.par 0 1) { bankOf s (le tk.par 0 1) with committed := false }) 0); u.cairn.status = 2)) ∧
    (∃ (s : State) (t : Nat) (tk : Ticket), (Waits s t 0x0901 tk) ∧ (le tk.par 0 1 ≤ 1) ∧ (le tk.par 4 4 % 256 = 0) ∧ (le tk.par 4 4 + (tk.par.drop 8).length ≤ 0x600000) ∧ (bankRunning s = some (le tk.par 0 1))) ∧
    (∃ (s : State) (t : Nat) (b : Nat) (_i : BankImage) (tk : Ticket), (Waits s t 0x0902 tk) ∧ (b ≤ 1) ∧ (bankRunning s ≠ some b)) ∧
    (∃ (s : State) (t : Nat) (b : Nat) (i : BankImage) (tk : Ticket), (Waits s t 0x0902 tk) ∧ (b ≤ 1) ∧ (i.marginOk = false)) ∧
    (∃ (s : State) (t : Nat) (b : Nat) (tk : Ticket), (Waits s t 0x0903 tk) ∧ (b ≤ 1) ∧ (b = s.cairn.bootPref)) ∧
    (∃ (s : State) (t : Nat) (b : Nat) (tk : Ticket), (Waits s t 0x0903 tk) ∧ (b ≤ 1) ∧ (b ≠ s.cairn.bootPref)) ∧
    (∃ (s : State) (t : Nat) (n : Nat) (tk : Ticket), (Waits s t 0x0904 tk) ∧ (bankRunning s = some n) ∧ (serviceOpen s = true) ∧ ((bankOf s (1 - n)).committed = false)) ∧
    (∃ (s : State) (t : Nat) (n : Nat) (tk : Ticket), (Waits s t 0x0904 tk) ∧ (bankRunning s = some n) ∧ ((bankOf s (1 - n)).committed = true) ∧ ((bankOf s (1 - n)).secVersion < getF s Reg.idFwSecVersion)) ∧
    (∃ (s : State) (t : Nat) (tk : Ticket), (Waits s t 0x0905 tk)) ∧
    (∃ (s : State) (_t : Nat) (_f : CfgCopy → CfgCopy), (s.cairn.inForce < 2) ∧ (s.cairn.weak = [])) ∧
    (∃ (s : State) (_f : CfgCopy → CfgCopy), (s.cairn.weak = [])) :=
  ⟨⟨cmd 0x0801 [] (r0), (regCommand (cmd 0x0801 [] (r0)) 0xA0028 (readReg r0 0xA0028)).getD r0, 0, BitVec.ofNat 64 (readReg r0 0xA0028), Sys2Proof.Tests.tk 0x0801 [], by unfold Waits; decide +kernel⟩,
    ⟨cmd 0x0803 [] (fld [(Reg.campRfgCfgEn, 0)] r0), (regCommands (cmd 0x0803 [] (fld [(Reg.campRfgCfgEn, 0)] r0)) [(0xA0010, BitVec.ofNat 64 (readReg r0 0xA0010)), (0xA0018, BitVec.ofNat 64 (readReg r0 0xA0018)), (0xA0020, BitVec.ofNat 64 (readReg r0 0xA0020))]).getD r0, 0, BitVec.ofNat 64 (readReg r0 0xA0010), BitVec.ofNat 64 (readReg r0 0xA0018), BitVec.ofNat 64 (readReg r0 0xA0020), Sys2Proof.Tests.tk 0x0803 [], by unfold Waits; decide +kernel⟩,
    ⟨{ gd (fld [(Reg.campRfgCfgEn, 1)] r0) with cmd.tickets := [(0, { Sys2Proof.Tests.tk 0x0803 with level := 1 })] }, 0, 0, 0, 0, { Sys2Proof.Tests.tk 0x0803 with level := 1 }, by unfold Waits; decide +kernel⟩,
    ⟨cmd 0x0804 [] ({ r0 with camp.liveMap := [0], camp.ch := [(0, { spd := [{ gib := 8 }] })] }), 0, 0, 0, 0, 0, 0, 0, Sys2Proof.Tests.tk 0x0804 [], by unfold Waits; decide +kernel⟩,
    ⟨cmd 0x0805 [] (r0), (regCommand (cmd 0x0805 [] (r0)) 0xB0000 (readReg r0 0xB0000)).getD r0, 0, BitVec.ofNat 64 (readReg r0 0xB0000), Sys2Proof.Tests.tk 0x0805 [], by unfold Waits; decide +kernel⟩,
    ⟨cmd 0x0901 ([1, 0, 0, 0] ++ zeros 4 ++ zeros 256) (r0), 0, Sys2Proof.Tests.tk 0x0901 ([1, 0, 0, 0] ++ zeros 4 ++ zeros 256), by unfold Waits; decide +kernel⟩,
    ⟨cmd 0x0901 ([1, 0, 0, 0] ++ zeros 4 ++ zeros 256) (fld [(Reg.valCairnStatusSparesLeft, 0)] { r0 with cairn.weak := [0x600000 / 4096] }), 0, Sys2Proof.Tests.tk 0x0901 ([1, 0, 0, 0] ++ zeros 4 ++ zeros 256), by unfold Waits; decide +kernel⟩,
    ⟨cmd 0x0901 ([1, 0, 0, 0] ++ zeros 4 ++ zeros 256) (fld [(Reg.fabStartStatusBank, 1)] svc), 0, Sys2Proof.Tests.tk 0x0901 ([1, 0, 0, 0] ++ zeros 4 ++ zeros 256), by unfold Waits; decide +kernel⟩,
    ⟨cmd 0x0902 [] (r0), 0, 1, {}, Sys2Proof.Tests.tk 0x0902 [], by unfold Waits; decide +kernel⟩,
    ⟨cmd 0x0902 [] (r0), 0, 1, { marginOk := false }, Sys2Proof.Tests.tk 0x0902 [], by unfold Waits; decide +kernel⟩,
    ⟨cmd 0x0903 [] (r0), 0, 0, Sys2Proof.Tests.tk 0x0903 [], by unfold Waits; decide +kernel⟩,
    ⟨cmd 0x0903 [] (r0), 0, 1, Sys2Proof.Tests.tk 0x0903 [], by unfold Waits; decide +kernel⟩,
    ⟨cmd 0x0904 [] (fld [(Reg.fabStartStatusBank, 1)] svc), 0, 1, Sys2Proof.Tests.tk 0x0904 [], by unfold Waits; decide +kernel⟩,
    ⟨cmd 0x0904 [] (fld [(Reg.fabStartStatusBank, 1), (Reg.idFwSecVersion, 2)] { svc with cairn.bankA := { committed := true } }), 0, 1, Sys2Proof.Tests.tk 0x0904 [], by unfold Waits; decide +kernel⟩,
    ⟨cmd 0x0905 [] (r0), 0, Sys2Proof.Tests.tk 0x0905 [], by unfold Waits; decide +kernel⟩,
    ⟨r0, 0, id, by decide +kernel⟩,
    ⟨r0, id, by decide +kernel⟩⟩

theorem witness_LadderAndBrakeCommands :
    (∃ (s : State) (t : Nat) (tk : Ticket), (Waits s t 0x0A01 tk) ∧ (tk.mgmt = true) ∧ (le tk.par 0 1 = 2) ∧ (le tk.par 2 2 < 16) ∧ ((ladFn s (fnKey 2 (le tk.par 2 2))).rung = 0)) ∧
    (∃ (s : State) (t : Nat) (tk : Ticket), (Waits s t 0x0A01 tk) ∧ (fnCount (le tk.par 0 1) = 0)) ∧
    (∃ (s : State) (t : Nat) (tk : Ticket), (Waits s t 0x0A02 tk) ∧ (tk.mgmt = true) ∧ (le tk.par 0 1 = 2) ∧ (le tk.par 2 2 < 16) ∧ ((ladFn s (fnKey 2 (le tk.par 2 2))).rung ≠ 0)) ∧
    (∃ (s : State) (t : Nat) (tk : Ticket), (Waits s t 0x0A02 tk) ∧ (tk.mgmt = true) ∧ (le tk.par 0 1 = 7) ∧ (le tk.par 2 2 < 2) ∧ (let k := fnKey 7 (le tk.par 2 2); (ladFn s k).rung = 0)) ∧
    (∃ (s : State) (t : Nat) (tk : Ticket), (Waits s t 0x0A02 tk) ∧ (tk.mgmt = true) ∧ (le tk.par 0 1 = 2) ∧ (le tk.par 2 2 < 16) ∧ (let k := fnKey 2 (le tk.par 2 2); (ladFn s k).rung = 0) ∧ (le tk.par 2 2 ∉ s.camp.gone)) ∧
    (∃ (s : State) (t : Nat) (tk : Ticket), (Waits s t 0x0A03 tk) ∧ (canReset s = true) ∧ (seqState s ≠ stStopping) ∧ ((lastHour s s.ladder.resets).length < 2)) ∧
    (∃ (s : State) (t : Nat) (tk : Ticket), (Waits s t 0x0A03 tk) ∧ (canReset s = true) ∧ (seqState s ≠ stStopping) ∧ (2 ≤ (lastHour s s.ladder.resets).length) ∧ (isSet s Reg.fabLadderCfgAutoCycle = true)) ∧
    (∃ (s : State) (t : Nat) (tk : Ticket), (Waits s t 0x0A04 tk) ∧ (canReset s = true)) ∧
    (∃ (s : State) (t : Nat) (tk : Ticket), (Waits s t 0x0A04 tk) ∧ (canReset s = false)) ∧
    (∃ (s : State) (t : Nat) (tk : Ticket), (Waits s t 0x0B01 tk) ∧ (tk.mgmt = true) ∧ (le tk.par 0 1 < 32) ∧ (le tk.par 1 1 = 1) ∧ (subState s (le tk.par 0 1) ≠ subAbsent)) ∧
    (∃ (s : State) (t : Nat) (tk : Ticket), (Waits s t 0x0B01 tk) ∧ (tk.mgmt = true) ∧ (le tk.par 0 1 < 32) ∧ (le tk.par 1 1 = 2) ∧ (subState s (le tk.par 0 1) ≠ subAbsent)) ∧
    (∃ (s : State) (n : Nat), (n < 32) ∧ (subState s n = subUp) ∧ (s.conns = [])) ∧
    (∃ (s : State) (t : Nat) (tk : Ticket) (c : Conn), (Waits s t 0x0B02 tk) ∧ (connOf s (le tk.par 0 3) = some c) ∧ (tk.owns c.ident = true)) ∧
    (∃ (s : State) (t : Nat) (tk : Ticket), (Waits s t 0x0B03 tk) ∧ (tk.mgmt = true) ∧ (le tk.par 2 1 = 1) ∧ (le tk.par 3 1 = 0) ∧ (thas s.ids (le tk.par 0 2 % 4096) = true) ∧ (s.conns = [])) ∧
    (∃ (s : State) (t : Nat) (tk : Ticket), (Waits s t 0x0B03 tk) ∧ (tk.owns (le tk.par 0 2 % 4096) = true) ∧ (thas s.ids (le tk.par 0 2 % 4096) = true) ∧ (le tk.par 2 1 = 1) ∧ (bit (le tk.par 3 1) 0 = false)) ∧
    (∃ (s : State) (t : Nat) (tk : Ticket), (Waits s t 0x0B03 tk) ∧ (tk.owns (le tk.par 0 2 % 4096) = true) ∧ (thas s.ids (le tk.par 0 2 % 4096) = true) ∧ (le tk.par 2 1 = 1) ∧ (bit (le tk.par 3 1) 0 = true)) ∧
    (∃ (s : State) (t : Nat) (tk : Ticket), (Waits s t 0x0B03 tk) ∧ (tk.owns (le tk.par 0 2 % 4096) = true) ∧ (thas s.ids (le tk.par 0 2 % 4096) = true) ∧ (le tk.par 2 1 = 2) ∧ (bit (le tk.par 3 1) 0 = false)) ∧
    (∃ (s : State) (t : Nat) (tk : Ticket) (r : Region), (Waits s t 0x0B04 tk) ∧ (regionOf s (le tk.par 0 4) = some r) ∧ (tk.owns r.owner = true) ∧ (le tk.par 4 1 = 1) ∧ (s.tables.regions.countP (·.2.fenced) < 4096)) ∧
    (∃ (s : State) (t : Nat) (tk : Ticket) (r : Region), (Waits s t 0x0B04 tk) ∧ (regionOf s (le tk.par 0 4) = some r) ∧ (tk.owns r.owner = true) ∧ (le tk.par 4 1 = 2)) ∧
    (∃ (s : State) (ch : Chan) (b : Bytes) (lvl : Nat) (chans : Nat), (formatFault b = none) ∧ (opInfo (cmdHdr b).op = some (lvl, chans)) ∧ (channelOk s ch chans (cmdHdr b) = true) ∧ ((cmdHdr b).level = 0) ∧ (needsLevel s (cmdHdr b) (bsub b 32 (cmdHdr b).plen) lvl = 0) ∧ ((cmdHdr b).mgmt = false) ∧ ((cmdHdr b).ident ∈ s.cmd.fencedIds)) :=
  ⟨⟨cmd 0x0A01 [2, 0, 15, 0, 0, 0, 0, 0] (r0), 0, Sys2Proof.Tests.tk 0x0A01 [2, 0, 15, 0, 0, 0, 0, 0], by unfold Waits; decide +kernel⟩,
    ⟨cmd 0x0A01 (zeros 8) (r0), 0, Sys2Proof.Tests.tk 0x0A01 (zeros 8), by unfold Waits; decide +kernel⟩,
    ⟨cmd 0x0A02 [2, 0, 15, 0, 0, 0, 0, 0] ({ r0 with ladder.fns := [(fnKey 2 15, { rung := 1 })] }), 0, Sys2Proof.Tests.tk 0x0A02 [2, 0, 15, 0, 0, 0, 0, 0], by unfold Waits; decide +kernel⟩,
    ⟨cmd 0x0A02 [7, 0, 1, 0, 0, 0, 0, 0] (r0), 0, Sys2Proof.Tests.tk 0x0A02 [7, 0, 1, 0, 0, 0, 0, 0], by unfold Waits; decide +kernel⟩,
    ⟨cmd 0x0A02 [2, 0, 15, 0, 0, 0, 0, 0] (r0), 0, Sys2Proof.Tests.tk 0x0A02 [2, 0, 15, 0, 0, 0, 0, 0], by unfold Waits; decide +kernel⟩,
    ⟨cmd 0x0A03 [] (svc), 0, Sys2Proof.Tests.tk 0x0A03 [], by unfold Waits; decide +kernel⟩,
    ⟨cmd 0x0A03 [] (fld [(Reg.fabLadderCfgAutoCycle, 1)] { svc with ladder.resets := [0, 0] }), 0, Sys2Proof.Tests.tk 0x0A03 [], by unfold Waits; decide +kernel⟩,
    ⟨cmd 0x0A04 [] (svc), 0, Sys2Proof.Tests.tk 0x0A04 [], by unfold Waits; decide +kernel⟩,
    ⟨cmd 0x0A04 [] (st stBivouac), 0, Sys2Proof.Tests.tk 0x0A04 [], by unfold Waits; decide +kernel⟩,
    ⟨cmd 0x0B01 [31, 1, 0, 0, 0, 0, 0, 0] (setSub r0 31 subUp), 0, Sys2Proof.Tests.tk 0x0B01 [31, 1, 0, 0, 0, 0, 0, 0], by unfold Waits; decide +kernel⟩,
    ⟨cmd 0x0B01 [31, 2, 0, 0, 0, 0, 0, 0] (setSub r0 31 subUp), 0, Sys2Proof.Tests.tk 0x0B01 [31, 2, 0, 0, 0, 0, 0, 0], by unfold Waits; decide +kernel⟩,
    ⟨setSub r0 31 subUp, 31, by decide +kernel⟩,
    ⟨cmd 0x0B02 (leBytes 3 16386 ++ [0]) (cst), 0, Sys2Proof.Tests.tk 0x0B02 (leBytes 3 16386 ++ [0]), cn, by unfold Waits; decide +kernel⟩,
    ⟨cmd 0x0B03 [5, 0, 1, 0] ({ r0 with ids := [(5, idn)] }), 0, Sys2Proof.Tests.tk 0x0B03 [5, 0, 1, 0], by unfold Waits; decide +kernel⟩,
    ⟨cmd 0x0B03 [5, 0, 1, 0] ({ cst with ids := [(5, idn)] }), 0, Sys2Proof.Tests.tk 0x0B03 [5, 0, 1, 0], by unfold Waits; decide +kernel⟩,
    ⟨cmd 0x0B03 [5, 0, 1, 1] ({ cst with ids := [(5, idn)] }), 0, Sys2Proof.Tests.tk 0x0B03 [5, 0, 1, 1], by unfold Waits; decide +kernel⟩,
    ⟨cmd 0x0B03 [5, 0, 2, 0] ({ cst with ids := [(5, idn)] }), 0, Sys2Proof.Tests.tk 0x0B03 [5, 0, 2, 0], by unfold Waits; decide +kernel⟩,
    ⟨cmd 0x0B04 (leBytes 4 rkey ++ [1, 0, 0, 0]) ({ r0 with tables.regions := [(3, { rgn with key := rkey, owner := 5 })] }), 0, Sys2Proof.Tests.tk 0x0B04 (leBytes 4 rkey ++ [1, 0, 0, 0]), { rgn with key := rkey, owner := 5 }, by unfold Waits; decide +kernel⟩,
    ⟨cmd 0x0B04 (leBytes 4 rkey ++ [2, 0, 0, 0]) ({ r0 with tables.regions := [(3, { rgn with key := rkey, owner := 5 })] }), 0, Sys2Proof.Tests.tk 0x0B04 (leBytes 4 rkey ++ [2, 0, 0, 0]), { rgn with key := rkey, owner := 5 }, by unfold Waits; decide +kernel⟩,
    ⟨{ cst with cmd.fencedIds := [5] }, .net 16386, cb 0x0101 0 0 5, 0, 7, by decide +kernel⟩⟩

end Sys2Proof.Tests
end

section
/-! PROOFS. The arms of `exec` that the fabric's statements run. -/

namespace Sys2Proof.Machine

theorem exec_eq_execFabVcoreReqWrite (off : Nat) (data : Bytes) (s : State) :
    exec (.fabVcoreReqWrite off data) s = execFabVcoreReqWrite off data s := rfl

theorem exec_eq_execVcoreSet (t r : Nat) (s : State) :
    exec (.vcoreSet t r) s = execVcoreSet t r s := rfl

theorem exec_eq_execAvsStepAck (mv : Nat) (s : State) :
    exec (.avsStepAck mv) s = execAvsStepAck mv s := rfl

theorem exec_eq_execRegisterWrite (off : Nat) (data : Bytes) (s : State) :
    exec (.registerWrite off data) s = execRegisterWrite off data s := rfl

theorem exec_eq_execStallWdogSample (stuck : List (Nat × Nat)) (s : State) :
    exec (.stallWdogSample stuck) s = execStallWdogSample stuck s := rfl

end Sys2Proof.Machine
end

section
/-! PROOFS. Window writes of one register under a grant (R469, R473): what each field of the access does. -/

namespace Sys2Proof.Machine

/-! ## Little-endian data of an access -/

@[simp] theorem length_leBytes (n v : Nat) : (leBytes n v).length = n := by
  induction n generalizing v with
  | zero => rfl
  | succ n ih => simp [leBytes, ih]

/-- Reading back little-endian bytes gives the number, cut to their width. -/
theorem leNat_leBytes (n v : Nat) : leNat (leBytes n v) = v % 256 ^ n := by
  induction n generalizing v with
  | zero => simp [leBytes, leNat, Nat.mod_one]
  | succ n ih => simp [leBytes, leNat, byte, ih, Nat.pow_succ', Nat.mod_mul]

theorem accData_leBytes_low {off v : Nat} (ho : off % 8 = 0) (hv : v < 2 ^ 32) : accData off (leBytes 4 v) = v := by
  simp only [accData, length_leBytes, leNat_leBytes, ho]
  exact (Nat.mul_one _).trans (Nat.mod_eq_of_lt hv)

theorem accMask_low {off : Nat} (ho : off % 8 = 0) : accMask off 4 = 2 ^ 32 - 1 := by simp [accMask, ho]

/-- A number below bit `lo` has nothing in the bits from there on. -/
theorem bits_eq_zero_of_lt {v lo : Nat} (w : Nat) (h : v < 2 ^ lo) : bits v lo w = 0 := by
  simp [bits, Nat.div_eq_of_lt h]

/-! ## One field of an access -/

/-- Field `f` offered the value `v` under a sufficient grant: nothing where it holds it already, taken where it is in the
field's range, else marked bad. -/
def offerField (s : State) (f : Reg.Fld) (v : Nat) : Written :=
  if v = getF s f then { s := s }
  else if fieldOk s f v then { s := setF s f v }
  else { s := s, bad := true }

theorem offerField_cases (s : State) (f : Reg.Fld) (v : Nat) :
    (offerField s f v).s = s ∨ (offerField s f v).s = setF s f v := by
  unfold offerField
  split
  · exact .inl rfl
  · split
    · exact .inr rfl
    · exact .inl rfl

@[simp] theorem offerField_denied (s : State) (f : Reg.Fld) (v : Nat) : (offerField s f v).denied = false := by
  unfold offerField; split
  · rfl
  · split <;> rfl

/-- A field that lies in its range flags exactly the values out of it. -/
theorem offerField_bad {s : State} {f : Reg.Fld} (h : fieldOk s f (getF s f) = true) (v : Nat) :
    (offerField s f v).bad = ! fieldOk s f v := by
  unfold offerField; split
  · rename_i hv; simp [hv, h]
  · split <;> simp_all

/-- The field reads as the offered value where that is in its range, else as before. -/
theorem getF_offerField_same {s : State} {f : Reg.Fld} {v : Nat} (hv : v < 2 ^ f.w) :
    getF (offerField s f v).s f = if fieldOk s f v then v else getF s f := by
  unfold offerField; split
  · rename_i e; simp [e]
  · split <;> simp [Nat.mod_eq_of_lt hv]

theorem getF_offerField_ne (s : State) {f g : Reg.Fld} (v : Nat) (h : g.key ≠ f.key) :
    getF (offerField s f v).s g = getF s g := by
  rcases offerField_cases s f v with e | e
  · rw [e]
  · rw [e, getF_setF_ne _ _ _ _ h]

@[simp] theorem offerField_conns (s : State) (f : Reg.Fld) (v : Nat) : (offerField s f v).s.conns = s.conns := by
  rcases offerField_cases s f v with e | e <;> simp [e]

@[simp] theorem offerField_log (s : State) (f : Reg.Fld) (v : Nat) : (offerField s f v).s.log = s.log := by
  rcases offerField_cases s f v with e | e <;> simp [e]

/-- The low word of an access covers a field of at most 32 bits at bit 0. -/
theorem inFld_low {f : Reg.Fld} (hl : f.lo = 0) (hw : f.w ≤ 32) : inFld f (2 ^ 32 - 1) = 2 ^ f.w - 1 := by
  apply Nat.eq_of_testBit_eq
  intro i
  simp only [inFld, bits, hl, Nat.pow_zero, Nat.div_one, Nat.testBit_mod_two_pow, Nat.testBit_two_pow_sub_one]
  by_cases hi : i < f.w
  · simp [hi, Nat.lt_of_lt_of_le hi hw]
  · simp [hi]

/-- An access to the low word gives such a field the low bits of its data. -/
theorem newVal_low {s : State} {f : Reg.Fld} (ha : f.acc = .rw) (hl : f.lo = 0) (hw : f.w ≤ 32)
    (hr : readF s f = getF s f) (v : Nat) : newVal s f (2 ^ 32 - 1) v = v % 2 ^ f.w := by
  have hd : inFld f v = v % 2 ^ f.w := by simp [inFld, bits, hl]
  have hold : Nat.land (getF s f) (2 ^ f.w - 1) = getF s f :=
    (Nat.and_two_pow_sub_one_eq_mod _ _).trans (Nat.mod_eq_of_lt (getF_lt s f))
  have hnew : Nat.land (v % 2 ^ f.w) (2 ^ f.w - 1) = v % 2 ^ f.w :=
    (Nat.and_two_pow_sub_one_eq_mod _ _).trans (Nat.mod_mod _ _)
  simp only [newVal, ha, hr, inFld_low hl hw, hd, hold, hnew, reduceCtorEq, ↓reduceIte, Nat.sub_self, Nat.zero_add]

/-- A plain field at bit 0, which no rule of its own governs, is offered the data of a low-word access. -/
theorem putField_low {s : State} {f : Reg.Fld} {lvl v : Nat} (ha : f.acc = .rw) (hl : f.lo = 0) (hw : f.w ≤ 32)
    (hr : readF s f = getF s f) (hg : needLevel f v ≤ lvl) (ho : f.off ≠ 0x90000) (hv : v < 2 ^ f.w) :
    putField lvl (2 ^ 32 - 1) v { s := s } f = offerField s f v := by
  have hn : newVal s f (2 ^ 32 - 1) v = v := (newVal_low ha hl hw hr v).trans (Nat.mod_eq_of_lt hv)
  have hlock : fldLocked s f = false := by simp [fldLocked, ha]
  simp only [putField, ha, hn, hr, hlock, offerField, ho, Nat.not_lt.mpr hg]
  by_cases hs : v = getF s f
  · simp [hs]
  · cases hf : fieldOk s f v <;> simp [hs]

/-- A W1C field that the access writes no 1 to stays as it is. -/
theorem putField_w1c_zero {f : Reg.Fld} {data : Nat} (lvl mask : Nat) (r : Written) (ha : f.acc = .w1c)
    (h : inFld f data = 0) : putField lvl mask data r f = r := by
  have hn : newVal r.s f mask data = readF r.s f := by simp [newVal, ha, h]
  simp [putField, ha, hn]

/-- A read-only field stays as it is. -/
theorem putField_ro {f : Reg.Fld} (lvl mask data : Nat) (r : Written) (ha : f.acc = .ro) :
    putField lvl mask data r f = r := by
  simp [putField, ha]

/-! ## A whole register -/

/-- An access to the low word of a register whose fields end as `r`, with no rule across fields that puts one back, no
field denied and no port mode in it, leaves what follows on `r` (R469). -/
theorem windowReg_low {s : State} {off v : Nat} {r : Written} (ho : off % 8 = 0) (hv : v < 2 ^ 32) (hp : off < 0xC1018)
    (hf : (Reg.fieldsAt off).foldl (putField (grantLevel s) (2 ^ 32 - 1) v) { s := s } = r)
    (hm : regMend s r.s off r.bad = r.s) (hd : r.denied = false) :
    windowReg s off (leBytes 4 v) = regAfter r.s off r.bad := by
  have h8 : off / 8 * 8 = off := Nat.div_mul_cancel (Nat.dvd_of_mod_eq_zero ho)
  have hmode (t : State) : newMode s t off = t := if_neg fun h => absurd h.1 (Nat.not_le.mpr hp)
  simp only [windowReg, regWrite, length_leBytes, h8, accMask_low ho, accData_leBytes_low ho hv, hf, hm, hd, hmode,
    ne_eq, not_true_eq_false, decide_false, Bool.or_false, Bool.false_eq_true, ↓reduceIte]

/-- The grant level while a grant runs. -/
theorem grantLevel_of_lt {s : State} (h : s.timebase < s.mgmt.grantEnd) :
    grantLevel s = getF s Reg.mbxGrantStatusLevel := if_pos h

/-- While the link is up an access through the window happens. -/
theorem onWindow_of_linkUp {s : State} (h : s.mgmt.linkUp = true) (f : State → State) : onWindow s f = f s := if_pos h

/-! ## FAB_VCORE -/

theorem fieldsAt_fabVcore : Reg.fieldsAt 0x1010 = [Reg.fabVcoreReq, Reg.fabVcoreAvsFault, Reg.fabVcoreRangeErr,
    Reg.fabVcoreCeil, Reg.fabVcoreTarget, Reg.fabVcoreReadbackMv] := by decide +kernel

@[simp] theorem fieldOk_fabVcoreReq (s : State) (v : Nat) : fieldOk s Reg.fabVcoreReq v = decide (v ≤ 46) := by
  simp [fieldOk, Reg.FldD.at, Reg.fabVcoreReqD]

/-- A sent AVSBus step touches the supply's own bookkeeping only. -/
theorem avsNext_cases (s : State) : ∃ fab, avsNext s = { s with fab := fab } ∧ fab.avsAcked = s.fab.avsAcked := by
  simp only [avsNext]
  split
  · exact ⟨s.fab, rfl, rfl⟩
  · exact ⟨_, rfl, rfl⟩

theorem avsNext_avsAcked (s : State) : (avsNext s).fab.avsAcked = s.fab.avsAcked := by
  obtain ⟨fab, h, hack⟩ := avsNext_cases s
  rw [h, hack]

/-- Following the request and the ceiling touches TARGET and the supply's own bookkeeping only. -/
theorem vcoreTarget_cases (s : State) :
    vcoreTarget s = s ∨ ∃ v fab, vcoreTarget s = { setF s Reg.fabVcoreTarget v with fab := fab } := by
  unfold vcoreTarget
  split
  · exact .inl rfl
  · obtain ⟨fab, h, -⟩ := avsNext_cases (setF s Reg.fabVcoreTarget (min (getF s Reg.fabVcoreReq) (getF s Reg.fabVcoreCeil)))
    exact .inr ⟨_, fab, h⟩

theorem getF_vcoreTarget_ne (s : State) {f : Reg.Fld} (h : f.key ≠ Reg.fabVcoreTarget.key) :
    getF (vcoreTarget s) f = getF s f := by
  rcases vcoreTarget_cases s with e | ⟨v, fab, e⟩
  · rw [e]
  · rw [e]; exact getF_setF_ne s _ f v h

@[simp] theorem vcoreTarget_conns (s : State) : (vcoreTarget s).conns = s.conns := by
  rcases vcoreTarget_cases s with e | ⟨v, fab, e⟩ <;> rw [e]; rfl

@[simp] theorem vcoreTarget_log (s : State) : (vcoreTarget s).log = s.log := by
  rcases vcoreTarget_cases s with e | ⟨v, fab, e⟩ <;> rw [e]; rfl

/-- What a granted write of REQ leaves, before TARGET follows: REQ taken, or RANGE_ERR set (R25). -/
def vcoreReqTaken (s : State) (v : Nat) : State :=
  if 46 < v then setB (offerField s Reg.fabVcoreReq v).s Reg.fabVcoreRangeErr true else (offerField s Reg.fabVcoreReq v).s

/-- A write of the low word of FAB_VCORE under a grant reaches REQ alone of its fields. -/
theorem putFields_fabVcore {s : State} {lvl v : Nat} (hg : 1 ≤ lvl) (hv : v < 256) :
    (Reg.fieldsAt 0x1010).foldl (putField lvl (2 ^ 32 - 1) v) { s := s } = offerField s Reg.fabVcoreReq v := by
  have h14 : inFld Reg.fabVcoreAvsFault v = 0 := bits_eq_zero_of_lt 1 (show v < 2 ^ 14 by omega)
  have h15 : inFld Reg.fabVcoreRangeErr v = 0 := bits_eq_zero_of_lt 1 (show v < 2 ^ 15 by omega)
  have hreq : putField lvl (2 ^ 32 - 1) v { s := s } Reg.fabVcoreReq = offerField s Reg.fabVcoreReq v :=
    putField_low rfl rfl (by decide) rfl hg (by decide) hv
  simp only [fieldsAt_fabVcore, List.foldl_cons, List.foldl_nil, hreq]
  rw [putField_w1c_zero _ _ _ rfl h14, putField_w1c_zero _ _ _ rfl h15, putField_ro _ _ _ _ rfl, putField_ro _ _ _ _ rfl,
    putField_ro _ _ _ _ rfl]

/-- A granted write of REQ through the window (R25, R26). -/
theorem windowReg_fabVcore {s : State} {v : Nat} (hg : 1 ≤ grantLevel s) (hr : getF s Reg.fabVcoreReq ≤ 46) (hv : v < 256) :
    windowReg s 0x1010 (leBytes 4 v) = vcoreTarget (vcoreReqTaken s v) := by
  have hbad : (offerField s Reg.fabVcoreReq v).bad = decide (46 < v) := by
    rw [offerField_bad (by simpa using hr), fieldOk_fabVcoreReq, ← decide_not]
    exact decide_eq_decide.mpr Nat.not_le
  rw [windowReg_low rfl (by omega) (by decide) (putFields_fabVcore hg hv) rfl (offerField_denied s _ v), hbad]
  simp [regAfter, vcoreReqTaken]

theorem getF_vcoreReqTaken_req (s : State) {v : Nat} (hv : v < 256) :
    getF (vcoreReqTaken s v) Reg.fabVcoreReq = if v ≤ 46 then v else getF s Reg.fabVcoreReq := by
  have h : getF (offerField s Reg.fabVcoreReq v).s Reg.fabVcoreReq = if v ≤ 46 then v else getF s Reg.fabVcoreReq := by
    simpa using getF_offerField_same (s := s) (f := Reg.fabVcoreReq) hv
  unfold vcoreReqTaken
  split
  · rw [getF_setB_ne _ _ _ _ (by decide), h]
  · exact h

theorem isSet_vcoreReqTaken_rangeErr (s : State) (v : Nat) :
    isSet (vcoreReqTaken s v) Reg.fabVcoreRangeErr = (isSet s Reg.fabVcoreRangeErr || decide (46 < v)) := by
  unfold vcoreReqTaken isSet
  split
  · rename_i h; simp [getF_setB_same, h, Reg.FldD.at, Reg.fabVcoreRangeErrD]
  · rename_i h; rw [getF_offerField_ne _ _ (by decide)]; simp [h]

@[simp] theorem vcoreReqTaken_conns (s : State) (v : Nat) : (vcoreReqTaken s v).conns = s.conns := by
  unfold vcoreReqTaken; split <;> simp

@[simp] theorem vcoreReqTaken_log (s : State) (v : Nat) : (vcoreReqTaken s v).log = s.log := by
  unfold vcoreReqTaken; split <;> simp

end Sys2Proof.Machine
end

section
/-! PROOFS. Tickets that wait for a guide, and refusals answered over I3C. -/

namespace Sys2Proof.Machine

/-- A command that waits for its turn is the one its opcode's row takes. -/
theorem takeTicket_of_waits {s : State} {t op : Nat} {tk : Ticket} (h : Waits s t op tk) : takeTicket s t op = some tk := by
  obtain ⟨hget, hop, hst, hmir, htake, hord⟩ := h
  simp [takeTicket, hmir, htake, hord, hget, hop, hst]

theorem onTicket_of_waits {s : State} {t op : Nat} {tk : Ticket} (h : Waits s t op tk) (f : Ticket → State) :
    onTicket s t op f = f tk := by
  simp [onTicket, takeTicket_of_waits h]

/-- The end of a ticket touches no register, unless a brake command gives its store entry back. -/
theorem endTicket_of_not_brake (s : State) (t : Nat) {tk : Ticket} (h : tk.op / 256 ≠ 0x0B) :
    endTicket s t tk = { s with cmd.tickets := tdel s.cmd.tickets t } := by
  have hb : (tk.op / 256 == 0x0B) = false := by simpa using h
  simp only [endTicket, hb]

/-- A final answer to a command that came over I3C changes no register and adds one reply, with its status. -/
theorem answer_i3c {s : State} {t : Nat} {tk : Ticket} (hget : tget s.cmd.tickets t = some tk) (hc : tk.chan = .i3c)
    (hop : tk.op / 256 ≠ 0x0B) (status detail : Nat) (payload : Bytes) :
    (answer s t status detail payload).regs = s.regs ∧
      (answer s t status detail payload).i3c.replies.map (·.2.status) = s.i3c.replies.map (·.2.status) ++ [status] := by
  simp [answer, hget, finishTicket, endTicket_of_not_brake s t hop, deliver, hc, mkReply]

/-- An answer of OUT_OF_RANGE without a layout, over I3C. -/
theorem rangeFree_i3c {s : State} {t : Nat} {tk : Ticket} (hget : tget s.cmd.tickets t = some tk) (hc : tk.chan = .i3c)
    (hop : tk.op / 256 ≠ 0x0B) :
    (rangeFree s t).regs = s.regs ∧
      (rangeFree s t).i3c.replies.map (·.2.status) = s.i3c.replies.map (·.2.status) ++ [scOutOfRange] :=
  answer_i3c (s := useFree s) hget hc hop _ _ _

end Sys2Proof.Machine
end

section
/-! PROOFS. The requested core voltage (R25). -/

namespace Sys2Proof.Machine

/-- A write of FAB_VCORE.REQ through the window, under a grant. -/
theorem exec_fabVcoreReqWrite {s : State} {v : Nat} (hl : s.mgmt.linkUp = true) (hg : s.timebase < s.mgmt.grantEnd)
    (hlvl : 1 ≤ getF s Reg.mbxGrantStatusLevel) (hr : getF s Reg.fabVcoreReq ≤ 46) (hv : v < 256) :
    exec (.fabVcoreReqWrite 0x1010 (leBytes 4 v)) s = .next (commit s (vcoreTarget (vcoreReqTaken s v))) := by
  have hwf : wfFabVcoreReqWrite 0x1010 (leBytes 4 v) = true := by simp [wfFabVcoreReqWrite]
  have hlvl' : 1 ≤ grantLevel s := by rwa [grantLevel_of_lt hg]
  simp only [exec_eq_execFabVcoreReqWrite, execFabVcoreReqWrite, hwf, needs_true, onWindow_of_linkUp hl,
    windowReg_fabVcore hlvl' hr hv]

/-- VCORE_SET above 46 is refused as out of range. -/
theorem exec_vcoreSet_high {s : State} {t r : Nat} {tk : Ticket} (hw : Waits s t 0x0603 tk) (hr : 46 < r) :
    exec (.vcoreSet t r) s = .next (commit s (rangeFree s t)) := by
  simp only [exec_eq_execVcoreSet, execVcoreSet, needs_true, onTicket_of_waits hw, hr, ↓reduceIte]

/-- The regulator's read-back within 10 mV of the step in flight acknowledges it (R27). -/
theorem exec_avsStepAck_confirms {s : State} {n mv : Nat} (hs : s.fab.avsSent = some n) (hmv : mv < 4096)
    (hlo : 620 + 5 * n ≤ mv + 10) (hhi : mv ≤ 620 + 5 * n + 10) :
    ∃ t, exec (.avsStepAck mv) s = .next t ∧ t.fab.avsAcked = n := by
  refine ⟨commit s (avsNext { setF s Reg.fabVcoreReadbackMv mv with
    fab.avsSent := none, fab.avsAcked := n, fab.avsTries := 0 }), ?_, avsNext_avsAcked _⟩
  simp only [exec_eq_execAvsStepAck, execAvsStepAck, wfAvsStepAck, hmv, hs, hlo, hhi, decide_true, and_self,
    ↓reduceIte, needs_true]

/-- Settles O7: each clause by the outcome of its one command. -/
theorem vcoreRequest : Obligations.VcoreRequest := by
  refine ⟨rfl, ?write, ?refusal, fun _ _ _ => exec_avsStepAck_confirms⟩
  case write =>
    intro s v hl hg hlvl hr hv
    refine ⟨_, exec_fabVcoreReqWrite hl hg hlvl hr hv, ?_, ?_, by simp, by simp⟩
    · rw [getF_commit, getF_vcoreTarget_ne _ (by decide), getF_vcoreReqTaken_req s hv]
    · rw [← isSet_vcoreReqTaken_rangeErr, isSet, isSet, getF_commit, getF_vcoreTarget_ne _ (by decide)]
  case refusal =>
    intro s t r tk hw hc hr
    have hexec := exec_vcoreSet_high hw hr
    obtain ⟨hget, hop, -⟩ := hw
    obtain ⟨hregs, hreplies⟩ := rangeFree_i3c hget hc (by simp [hop])
    exact ⟨_, hexec, hregs, hreplies⟩

end Sys2Proof.Machine
end

section
/-! PROOFS. The stall watchdog's threshold and its samples (R34). -/

namespace Sys2Proof.Machine

theorem fieldsAt_fabWdog : Reg.fieldsAt 0x1018 = [Reg.fabWdogThresh] := by decide +kernel

@[simp] theorem fieldOk_fabWdogThresh (s : State) (v : Nat) :
    fieldOk s Reg.fabWdogThresh v = decide (1 ≤ v ∧ v ≤ 4) := by
  simp [fieldOk, Reg.FldD.at, Reg.fabWdogThreshD]

/-- A granted write of THRESH through the window. -/
theorem windowWrite_fabWdog {s : State} {v : Nat} (hg : 1 ≤ grantLevel s) (hv : v < 256) :
    windowWrite s 0x1018 (leBytes 4 v) = (offerField s Reg.fabWdogThresh v).s := by
  have hput : putField (grantLevel s) (2 ^ 32 - 1) v { s := s } Reg.fabWdogThresh = offerField s Reg.fabWdogThresh v :=
    putField_low rfl rfl (by decide) rfl hg (by decide) hv
  have hreg : windowReg s 0x1018 (leBytes 4 v) = (offerField s Reg.fabWdogThresh v).s :=
    windowReg_low rfl (by omega) (by decide) (by rw [fieldsAt_fabWdog]; exact hput) rfl (offerField_denied s _ v)
  simp [windowWrite, regAccess, hreg]

/-- A write of FAB_WDOG.THRESH under a grant. -/
theorem exec_registerWrite_fabWdog {s : State} {v : Nat} (hl : s.mgmt.linkUp = true) (hg : s.timebase < s.mgmt.grantEnd)
    (hlvl : 1 ≤ getF s Reg.mbxGrantStatusLevel) (hv : v < 256) :
    exec (.registerWrite 0x1018 (leBytes 4 v)) s = .next (commit s (offerField s Reg.fabWdogThresh v).s) := by
  have hwf : wfRegisterWrite 0x1018 = true := by decide
  have hlvl' : 1 ≤ grantLevel s := by rwa [grantLevel_of_lt hg]
  simp only [exec_eq_execRegisterWrite, execRegisterWrite, hwf, needs_true, onWindow_of_linkUp hl,
    windowWrite_fabWdog hlvl' hv]

/-- The counts after a sample that marks one channel alone: every other count starts again. -/
def sampleCounted (s : State) (d c : Nat) : State :=
  { s with fab.stuck := [(d + 128 * c, tcnt s.fab.stuck (d + 128 * c) + 1)] }

/-- Counts of stuck channels are no register. -/
theorem getF_stuck (s : State) (t : Tab Nat) (f : Reg.Fld) : getF { s with fab.stuck := t } f = getF s f := rfl

/-- A sample that marks one channel of a powered domain other than PD0 counts it, and is a stall from the threshold on. -/
theorem exec_stallWdogSample_one {s : State} {d c : Nat} (hd : 0 < d) (hd' : d < 128) (hon : domOn s d = true) :
    exec (.stallWdogSample [(d, c)]) s = .next (commit s
      (if getF s Reg.fabWdogThresh ≤ tcnt s.fab.stuck (d + 128 * c) + 1 then stalled (sampleCounted s d c) (d + 128 * c)
       else sampleCounted s d c)) := by
  have hne : (d != 0) = true := by simpa using Nat.pos_iff_ne_zero.mp hd
  have hwf : wfStallWdogSample [(d, c)] = true := by simpa [wfStallWdogSample] using hd'
  have hkey : (([(d, c)].filter fun x => x.1 != 0 && domOn s x.1).map stuckKey).eraseDups = [d + 128 * c] := by
    simp [hne, hon, stuckKey, List.eraseDups_cons]
  simp only [exec_eq_execStallWdogSample, execStallWdogSample, hwf, needs_true, hkey, List.foldl_cons,
    List.foldl_nil, tset]
  by_cases h : getF s Reg.fabWdogThresh ≤ tcnt s.fab.stuck (d + 128 * c) + 1
  · simp [getF_stuck, h, sampleCounted, thas, tget]
  · simp [getF_stuck, h, sampleCounted]

/-- Settles O8: the write by the field's range, the sample by the count of its one channel. -/
theorem watchdogThreshold : Obligations.WatchdogThreshold := by
  refine ⟨rfl, ?write, ?below, ?reached⟩
  case write =>
    intro s v hl hg hlvl hv1 hv _
    refine ⟨_, exec_registerWrite_fabWdog hl hg hlvl hv, ?_, by simp, by simp⟩
    rw [getF_commit, getF_offerField_same hv]
    simp [hv1]
  case below =>
    intro s d c hd hd' _ hon hlt
    rw [exec_stallWdogSample_one hd hd' hon, if_neg (Nat.not_le.mpr hlt)]
    rfl
  case reached =>
    intro s d c hd hd' _ hon hle
    rw [exec_stallWdogSample_one hd hd' hon, if_pos hle]
    rfl

end Sys2Proof.Machine
end

section
/-! PROOFS. A packet of a host that is out of order: its way through Table 3-5 (R54), and the one NAK SEQUENCE (R55). -/

namespace Sys2Proof.Machine

/-! ## From the command to the receiver's steps -/

theorem needs_of_eq_true {b : Bool} (h : b = true) (s t : State) : needs b s t = .next (commit s t) := by
  rw [h, needs_true]

/-- The command of a well-formed request or SEND receives its packet. -/
theorem exec_eq_receive {c : Instr} {p : Pkt}
    (hc : c = .readReq p ∨ c = .writeReq p ∨ c = .writepReq p ∨ c = .flush p ∨ c = .cas64 p ∨ c = .fadd64 p ∨
      c = .cas128 p ∨ c = .send p ∨ c = .triggeredSend p)
    (hwf : wellFormed c = true) (s : State) : exec c s = .next (commit s (receive pathDown s p)) := by
  rcases hc with rfl | rfl | rfl | rfl | rfl | rfl | rfl | rfl | rfl <;> exact needs_of_eq_true hwf _ _

/-- A packet on the route of an open path has a route by the steps for unsequenced packets too. -/
theorem unseqRoute_of_onRoute {s : State} {p : Pkt} {k : Conn} {q : PathSt} (h : OnRoute s p k q) :
    unseqRoute s p = some (connIdx p.conn, k, q) := by
  obtain ⟨-, hconn, hk, hopen, hq, hup, hsrc, hport, hsub⟩ := h
  simp [unseqRoute, hk, hq, hopen, ConnSt.live, hconn, hup, hsrc, hport, hsub]

/-- Step 5: an EVENT with Unsequenced set goes no further, whatever PSN it carries for information. -/
theorem receive_unsequencedEvent {s : State} {p : Pkt} {k : Conn} {q : PathSt} (h : OnRoute s p k q)
    (hun : (p.unseq && p.ty == tyEvent) = true) (f : State → Nat → Nat → State) : receive f s p = s := by
  have hroute := unseqRoute_of_onRoute h
  obtain ⟨htake, hconn, -⟩ := h
  simp [receive, htake, hconn, hun, hroute]

/-- Every other packet on the route of an open path comes to steps 6 to 13, unless it has to wait. -/
theorem receive_sequenced {s : State} {p : Pkt} {k : Conn} {q : PathSt} (h : OnRoute s p k q)
    (hseq : (p.unseq && p.ty == tyEvent) = false) (hearly : earlyOk s k p = true) (hwait : mustWait s p = false)
    (f : State → Nat → Nat → State) : receive f s p = receiveSeq f s (connIdx p.conn) (p.path % 4) k q p := by
  obtain ⟨htake, hconn, hk, hopen, hq, hup, hsrc, hport, hsub⟩ := h
  simp [receive, htake, hconn, hseq, hk, hopen, ConnSt.live, hearly, hq, hup, hsrc, hport, hsub, hwait]

/-! ## Step 7 and the silence of R55, for a packet that is sequenced -/

section
variable {s : State} {p : Pkt} {k : Conn} {q : PathSt} {ci j : Nat} {f : State → Nat → Nat → State}

/-- The first packet ahead, and the first after the silence, draws NAK SEQUENCE and begins 16 µs of silence. -/
theorem receiveSeq_ahead_naks (hb : psnBehind p.psn q.rxE = false) (ha : psnAhead p.psn q.rxE = true)
    (hq : q.nakUntil = none ∨ ∃ t, q.nakUntil = some t ∧ t ≤ s.timebase) :
    receiveSeq f s ci j k q p =
      sendNak (modPath s ci j fun x => { x with nakUntil := some (s.timebase + us 16) }) ci j nkSequence 0 0 0 := by
  rcases hq with hnone | ⟨t, ht, hle⟩
  · simp [receiveSeq, hb, ha, hnone]
  · simp [receiveSeq, hb, ha, ht, Nat.not_lt.mpr hle]

/-- A packet ahead within the silence is dropped. -/
theorem receiveSeq_ahead_quiet {t : Nat} (hb : psnBehind p.psn q.rxE = false) (ha : psnAhead p.psn q.rxE = true)
    (ht : q.nakUntil = some t) (hlt : s.timebase < t) : receiveSeq f s ci j k q p = s := by
  simp [receiveSeq, hb, ha, ht, hlt]

end

/-- Consuming the expected PSN ends the silence. -/
theorem consume_ends_silence {s : State} {ci j : Nat} {k : Conn} {q : PathSt} (hk : tget s.conns ci = some k)
    (hq : k.path j = some q) :
    ∃ k' q', tget (consume s ci j).conns ci = some k' ∧ k'.path j = some q' ∧ q'.nakUntil = none ∧
      q'.rxE = psnNext q.rxE := by
  have hq' : tget k.paths j = some q := hq
  refine ⟨{ k with paths := tset k.paths j { q with rxE := psnNext q.rxE, nakUntil := none, ackN := q.ackN + 1 } },
    _, ?_, tget_tset_same _ _ _, rfl, rfl⟩
  simp [consume, modPath, modConn, tmod, hk, hq']

/-- What O27 asks of every request holds of the sequenced ones: only an EVENT with Unsequenced set is an exception. -/
theorem exec_sequenced_ahead {c : Instr} {s : State} {p : Pkt} {k : Conn} {q : PathSt}
    (hc : c = .readReq p ∨ c = .writeReq p ∨ c = .writepReq p ∨ c = .flush p ∨ c = .cas64 p ∨ c = .fadd64 p ∨
      c = .cas128 p ∨ c = .send p ∨ c = .triggeredSend p)
    (hwf : wellFormed c = true) (hr : OnRoute s p k q) (hseq : (p.unseq && p.ty == tyEvent) = false)
    (hearly : earlyOk s k p = true) (hwait : mustWait s p = false) (hb : psnBehind p.psn q.rxE = false)
    (ha : psnAhead p.psn q.rxE = true) :
    ((q.nakUntil = none ∨ ∃ t, q.nakUntil = some t ∧ t ≤ s.timebase) →
      exec c s = .next (commit s (sendNak
        (modPath s (connIdx p.conn) (p.path % 4) fun x => { x with nakUntil := some (s.timebase + us 16) })
        (connIdx p.conn) (p.path % 4) nkSequence 0 0 0))) ∧
    (∀ t, q.nakUntil = some t → s.timebase < t → exec c s = .next (commit s s)) := by
  rw [exec_eq_receive hc hwf, receive_sequenced hr hseq hearly hwait]
  constructor
  · intro hq
    rw [receiveSeq_ahead_naks hb ha hq]
  · intro t ht hlt
    rw [receiveSeq_ahead_quiet hb ha ht hlt]

/-! ## The unsequenced EVENT -/

namespace UnsequencedEvent

/-- An open path that expects PSN 3, with no silence on it, and its connection, number 16386. -/
def path : PathSt := { sub := 0, src := 9, sport := 5, rxE := 3, txNext := 0 }
def conn : Conn :=
  { gen := 1, ident := 5, hostNum := 7, unit := 4096, checks := 0, prio := 3, dscp := 0, nonce := [], saltIn := [],
    saltOut := [], winPk := 64, winBy := 65536, order := 1, paths := [(0, path)] }

/-- A part in service, sub-port 0 up, with that connection in slot 2. -/
def state : State :=
  { setSub (setF (setF State.reset Reg.seqStatusState stService) Reg.fabStartStatusStage 12) 0 subUp with
    conns := [(2, conn)] }

/-- An EVENT with Unsequenced set on that path, with PSN 7 for information. -/
def pkt : Pkt :=
  { sub := 0, src := 9, sport := 5, ty := tyEvent, unseq := true, first := true, last := true, conn := 16386, psn := 7 }

theorem onRoute : OnRoute state pkt conn path := by
  unfold OnRoute; decide +kernel

/-- The state that O27 asks for: the silence has begun on the path. -/
def nakSent : State :=
  sendNak (modPath state 2 0 fun x => { x with nakUntil := some (state.timebase + us 16) }) 2 0 nkSequence 0 0 0

theorem conns_nakSent_ne : nakSent.conns ≠ state.conns := by decide +kernel

theorem exec_readReq : exec (.readReq pkt) state = .next (commit state state) := by
  rw [exec_eq_receive (.inl rfl) (by decide), receive_unsequencedEvent onRoute rfl]

end UnsequencedEvent

open UnsequencedEvent in
/-- Refutes O27: READ_REQ also carries an EVENT (`wfReadReq`), and one with Unsequenced set, whose PSN is only for
information, stops at step 5 of Table 3-5 (`receive`): with PSN 7 on a path that expects 3 it draws no NAK SEQUENCE.
The statement does not ask that the packet be sequenced; `exec_sequenced_ahead` and `consume_ends_silence` give it with
that hypothesis. -/
theorem not_sequenceNakOnce : ¬ Obligations.SequenceNakOnce := by
  unfold Obligations.SequenceNakOnce
  rintro ⟨hahead, -, -⟩
  have hnak : exec (.readReq pkt) state = .next (commit state nakSent) :=
    (hahead (.readReq pkt) state pkt conn path (.inl rfl) (by decide) onRoute (by decide +kernel) (by decide +kernel)
      (by decide) (by decide)).1 (.inl rfl)
  rw [exec_readReq] at hnak
  injection hnak with hnak
  have hconns : state.conns = nakSent.conns := congrArg State.conns hnak
  exact conns_nakSent_ne hconns.symm

end Sys2Proof.Machine
end

section
/-! PROOFS. The part's choice of a free index, and of a region's key (R83). -/

namespace Sys2Proof.Machine

/-! ## The choice of an index that a table does not hold -/

theorem thas_of_tfree {α : Type} {t : Tab α} {fuel n m : Nat} (h : tfree t n fuel = some m) : thas t m = false := by
  induction fuel generalizing n with
  | zero => simp [tfree] at h
  | succ fuel ih =>
    simp only [tfree] at h
    split at h
    case isTrue => exact ih h
    case isFalse hfree =>
      obtain rfl : n = m := by simpa using h
      simpa using hfree

/-- Whichever of its two ways the choice goes, the index is below the bound and the table does not hold it. -/
theorem lt_and_thas_of_tpick {α : Type} {t : Tab α} {lo bound want n : Nat} (h : tpick t lo bound want = some n) :
    n < bound ∧ thas t n = false := by
  simp only [tpick] at h
  split at h
  case isTrue hwant =>
    obtain rfl : want = n := by simpa using h
    obtain ⟨-, hlt, hfree⟩ := hwant
    exact ⟨hlt, by simpa using hfree⟩
  case isFalse =>
    split at h
    case h_1 m hm =>
      obtain ⟨hlt, rfl⟩ : m < bound ∧ m = n := by simpa using h
      exact ⟨hlt, thas_of_tfree hm⟩
    case h_2 => simp at h

/-! ## Region keys -/

theorem keyIdx_add {i : Nat} (g : Nat) (h : i < 1048576) : keyIdx (i + g * 1048576) = i := by
  unfold keyIdx; omega

theorem keyGen_add {i : Nat} (g : Nat) (h : i < 1048576) : keyGen (i + g * 1048576) = g := by
  unfold keyGen; omega

/-- A new key is the index that the part chose among the free ones, with the index's next generation. -/
theorem idx_and_gen_of_newRegionKey {s : State} {k : Nat} (h : newRegionKey s = some k) :
    tpick s.tables.regions 0 1048576 (freeVal s) = some (keyIdx k) ∧
    keyGen k = if tcnt s.tables.regionGen (keyIdx k) = 4095 then 1 else tcnt s.tables.regionGen (keyIdx k) + 1 := by
  obtain ⟨i, hi, rfl⟩ := Option.map_eq_some_iff.mp h
  obtain ⟨hlt, -⟩ := lt_and_thas_of_tpick hi
  simp only [keyIdx_add _ hlt, keyGen_add _ hlt, hi, and_self]

/-- What a key names is the region of its index, when that region has this very key and the generation is not 0. -/
theorem regionOf_eq_some_iff {s : State} {k : Nat} {r : Region} :
    regionOf s k = some r ↔ tget s.tables.regions (keyIdx k) = some r ∧ r.key = k ∧ keyGen k ≠ 0 := by
  cases hget : tget s.tables.regions (keyIdx k) with
  | none => simp [regionOf, hget]
  | some x =>
    simp only [regionOf, hget, Option.some.injEq, Option.ite_none_right_eq_some]
    constructor
    · rintro ⟨hx, rfl⟩; exact ⟨rfl, hx⟩
    · rintro ⟨rfl, hx⟩; exact ⟨hx, rfl⟩

/-- Settles O53: the new key by the choice of its index, the entry by lookup after update, the named region by
`regionOf_eq_some_iff`. -/
theorem regionKeys : Obligations.RegionKeys := by
  refine ⟨?chosen, ?added, ?genZero, ?named⟩
  case chosen =>
    intro s k h
    obtain ⟨hpick, hgen⟩ := idx_and_gen_of_newRegionKey h
    obtain ⟨hlt, hfree⟩ := lt_and_thas_of_tpick hpick
    refine ⟨hlt, hfree, hgen, fun hle => ?_⟩
    rw [hgen]
    split <;> omega
  case added =>
    intro s k b
    exact ⟨by simp [addRegion, regionOfBytes], by simp [addRegion, tcnt_tset], fun j hj => tget_tset_ne _ _ hj⟩
  case genZero =>
    intro s k h
    refine Option.eq_none_iff_forall_ne_some.mpr fun r hr => ?_
    obtain ⟨-, -, hgen⟩ := regionOf_eq_some_iff.mp hr
    exact hgen h
  case named =>
    intro s k r h
    obtain ⟨-, hkey, -⟩ := regionOf_eq_some_iff.mp h
    exact hkey

end Sys2Proof.Machine
end

section
/-! PROOFS. What the power sequencer keeps to itself: its registers, its state and the clock. The operations of the other
blocks leave this view as it is. -/

namespace Sys2Proof.Machine

/-! ## The view -/

/-- A register field of power sequencing (R342). A queue's number has no bound in the model, so `calm` keeps clear of the
words where NQ_STATUS of a queue that the part does not have would stand. -/
def powerField (f : Reg.Fld) : Bool := calm f && f.key / 64 / 4096 == 0x50

/-- What power sequencing reads: its registers, its state, the clock, and the camp channels that a reset keeps. -/
structure PowerView where
  read : Reg.Fld → Nat
  seq : Seq
  timebase : Nat
  liveMap : List Nat

/-- The view of a state with these parts. -/
def viewOf (regs : Tab Nat) (q : Seq) (t : Nat) (live : List Nat) : PowerView where
  read f := if powerField f then (tget regs f.key).getD f.reset % 2 ^ f.w else 0
  seq := q
  timebase := t
  liveMap := live

/-- The view that power sequencing has of a state. -/
def powerView (s : State) : PowerView := viewOf s.regs s.seq s.timebase s.camp.liveMap

/-- A state with other parts that the view does not hold. -/
@[simp] theorem viewOf_parts (s : State) : viewOf s.regs s.seq s.timebase s.camp.liveMap = powerView s := rfl

@[simp] theorem powerView_mk (pending timebase free regs fuse pins fab seq thm start ladder log plog nq route mgmt i3c cmd
    ids port conns connGen ops tables range camp val cairn code sum key rope) :
    powerView (State.mk pending timebase free regs fuse pins fab seq thm start ladder log plog nq route mgmt i3c cmd
      ids port conns connGen ops tables range camp val cairn code sum key rope) =
      viewOf regs seq timebase camp.liveMap := rfl

theorem powerView_eq_iff {s t : State} : powerView t = powerView s ↔
    t.seq = s.seq ∧ t.timebase = s.timebase ∧ t.camp.liveMap = s.camp.liveMap ∧
      ∀ f, powerField f = true → getF t f = getF s f := by
  constructor
  · intro h
    refine ⟨congrArg (·.seq) h, congrArg (·.timebase) h, congrArg (·.liveMap) h, fun f hf => ?_⟩
    have hr := congrFun (congrArg (·.read) h) f
    simpa [powerView, viewOf, hf, getF] using hr
  · rintro ⟨hq, ht, hl, hr⟩
    have hread : (powerView t).read = (powerView s).read := by
      funext f
      by_cases hf : powerField f = true
      · simpa [powerView, viewOf, hf, getF] using hr f hf
      · simp [powerView, viewOf, hf]
    simp only [powerView, viewOf] at hread ⊢
    rw [hread, hq, ht, hl]

/-- Whether a field stands outside the registers of power sequencing. -/
def aside (f : Reg.Fld) : Bool := f.key / 64 / 4096 != 0x50

@[simp] theorem powerView_setF (s : State) {f : Reg.Fld} (v : Nat) (h : aside f = true) :
    powerView (setF s f v) = powerView s := by
  refine powerView_eq_iff.mpr ⟨rfl, rfl, rfl, fun g hg => getF_setF_ne _ _ _ _ fun hkey => ?_⟩
  simp [powerField, aside, hkey] at hg h
  exact h hg.2

@[simp] theorem powerView_foldl {α : Type} (f : State → α → State) (h : ∀ s a, powerView (f s a) = powerView s)
    (s : State) (l : List α) : powerView (l.foldl f s) = powerView s := by
  induction l generalizing s with
  | nil => rfl
  | cons a l ih => rw [List.foldl_cons, ih, h]

@[simp] theorem powerView_logEv (s : State) (n : Nat) (e : Ev) (u : Nat) (d : List Nat) (p : Bool) :
    powerView (logEv s n e u d p) = powerView s := by
  refine powerView_eq_iff.mpr ⟨by simp, by simp, by simp, fun f hf => getF_logEv _ _ _ _ _ _ ?_⟩
  simp [powerField] at hf
  exact hf.1

@[simp] theorem powerView_pitchEv (s : State) (n : Nat) (e : Ev) (d : List Nat) :
    powerView (pitchEv s n e d) = powerView s := rfl

@[simp] theorem powerView_ite (p : Prop) [Decidable p] (s t : State) :
    powerView (if p then s else t) = if p then powerView s else powerView t := apply_ite ..

/-- A sub-port's number has no bound, but PFC_TX stands above the sequencer's registers. -/
theorem aside_hpPortStatusPfcTx (p : Nat) : aside (Reg.hpPortStatusPfcTx p) = true := by
  simp [aside, Reg.Fld.key, Reg.FldD.at, Reg.hpPortStatusPfcTxD]; omega

theorem aside_slotFld (n : Nat) : aside (slotFld n) = true := by
  unfold slotFld; split <;> rfl

@[simp] theorem powerView_setB (s : State) {f : Reg.Fld} (b : Bool) (h : aside f = true) :
    powerView (setB s f b) = powerView s := powerView_setF s _ h
@[simp] theorem powerView_putF (s : State) {f : Reg.Fld} (n : Nat) (b : Bool) (h : aside f = true) :
    powerView (putF s f n b) = powerView s := powerView_setF s _ h

@[simp] theorem powerView_mbxVector (s : State) : powerView (mbxVector s) = powerView s := by
  simp [powerView, -viewOf_parts]

/-! ## The rope and departure -/

@[simp] theorem powerView_setRole (s : State) (v : Nat) : powerView (setRole s v) = powerView s :=
  powerView_setF _ _ rfl

@[simp] theorem powerView_setTeam (s : State) (v : Nat) : powerView (setTeam s v) = powerView s :=
  powerView_setF _ _ rfl

@[simp] theorem powerView_emit (s : State) (x : Nat) (f : Frame) : powerView (emit s x f) = powerView s := rfl

@[simp] theorem powerView_setRopeInst (s : State) (i : Nat) (r : RopeInst) :
    powerView (setRopeInst s i r) = powerView s := rfl

@[simp] theorem powerView_ropeSendOn (s : State) (i : Nat) (seqd : Bool) (body : RopeBody) :
    powerView (ropeSendOn s i seqd body) = powerView s := by simp [ropeSendOn]

@[simp] theorem powerView_ropeSend (s : State) (seqd : Bool) (body : RopeBody) :
    powerView (ropeSend s seqd body) = powerView s := by
  simp only [ropeSend]; split <;> simp

@[simp] theorem powerView_ropeSendAll (s : State) (seqd : Bool) (body : RopeBody) :
    powerView (ropeSendAll s seqd body) = powerView s := by simp [ropeSendAll]

@[simp] theorem powerView_departNow (s : State) : powerView (departNow s) = powerView s := by simp [departNow]

@[simp] theorem powerView_fenceLead (s : State) : powerView (fenceLead s) = powerView s := by simp [fenceLead]

@[simp] theorem powerView_departFenced (s : State) : powerView (departFenced s) = powerView s := by
  simp [departFenced]

@[simp] theorem powerView_order (s : State) (b : OrderBody) : powerView (order s b).1 = powerView s :=
  (powerView_ropeSend ..).trans (powerView_setF _ _ rfl)

@[simp] theorem powerView_orderIf (s : State) (b : OrderBody) : powerView (orderIf s b).1 = powerView s := by
  simp [orderIf, apply_ite Prod.fst]

@[simp] theorem powerView_uncover (s : State) (p : OrderRec → Bool) : powerView (uncover s p) = powerView s := rfl

@[simp] theorem powerView_uncoverConn (s : State) (num : Nat) : powerView (uncoverConn s num) = powerView s := rfl

/-! ## Packets and events -/

@[simp] theorem powerView_modConn (s : State) (ci : Nat) (f : Conn → Conn) :
    powerView (modConn s ci f) = powerView s := rfl

@[simp] theorem powerView_modPath (s : State) (ci k : Nat) (f : PathSt → PathSt) :
    powerView (modPath s ci k f) = powerView s := rfl

@[simp] theorem powerView_showPfcTx (s : State) (sub prio : Nat) : powerView (showPfcTx s sub prio) = powerView s :=
  powerView_putF _ _ _ (aside_hpPortStatusPfcTx _)

@[simp] theorem powerView_setPause (s : State) (sub prio : Nat) (on : Bool) :
    powerView (setPause s sub prio on) = powerView s := by simp [setPause]

@[simp] theorem powerView_pfcCheck (s : State) (sub prio : Nat) : powerView (pfcCheck s sub prio) = powerView s := by
  simp [pfcCheck]

@[simp] theorem powerView_globalCheck (s : State) : powerView (globalCheck s) = powerView s := by simp [globalCheck]

@[simp] theorem powerView_occChange (s : State) (key : Nat) (add sub_ : Nat) :
    powerView (occChange s key add sub_) = powerView s := by simp [occChange]

@[simp] theorem powerView_occRelease (s : State) (l : List (Nat × Nat)) :
    powerView (occRelease s l) = powerView s := by simp [occRelease]

@[simp] theorem powerView_sendPkt (s : State) (prio : Nat) (p : Pkt) :
    powerView (sendPkt s prio p) = powerView s := by simp [sendPkt]

@[simp] theorem powerView_egressTake (s : State) (mgmt : Bool) (len : Nat) :
    powerView (egressTake s mgmt len) = powerView s := by simp [egressTake]

@[simp] theorem powerView_setSlot (s : State) (n : Nat) (k : KeySlot) : powerView (setSlot s n k) = powerView s := rfl

@[simp] theorem powerView_sealPkt (s : State) (ci : Nat) (c : Conn) (p : Pkt) :
    powerView (sealPkt s ci c p).1 = powerView s := by
  simp only [sealPkt]; split <;> simp

theorem powerView_of_pumpOne {s t : State} {ci : Nat} (h : pumpOne s ci = some t) : powerView t = powerView s := by
  simp only [pumpOne] at h
  repeat' split at h
  all_goals simp at h
  all_goals subst h; simp

theorem powerView_pumpN (ci fuel : Nat) (s : State) : powerView (pumpN ci fuel s) = powerView s := by
  induction fuel generalizing s with
  | zero => rfl
  | succ fuel ih =>
    simp only [pumpN]
    split
    · rename_i t h; rw [ih, powerView_of_pumpOne h]
    · rfl

@[simp] theorem powerView_reserveIv (s : State) (ci : Nat) : powerView (reserveIv s ci) = powerView s := by
  simp only [reserveIv]; split <;> simp

@[simp] theorem powerView_pump (s : State) (ci : Nat) : powerView (pump s ci) = powerView s :=
  (powerView_reserveIv ..).trans (powerView_pumpN ..)

@[simp] theorem powerView_partMessage (s : State) (ci ty : Nat) (exts : List Ext) (data : Bytes) (tag : Nat)
    (rec : Nat × Nat × Nat) (seald : Bool) (avoid : Option Nat) :
    powerView (partMessage s ci ty exts data tag rec seald avoid).1 = powerView s := by
  simp only [partMessage]
  split
  · rfl
  · simp [apply_ite Prod.fst]

@[simp] theorem powerView_undelivered (s : State) (code qual detail : Nat) :
    powerView (undelivered s code qual detail) = powerView s := by simp [undelivered]

@[simp] theorem powerView_sendEvent (s : State) (ci code qual detail : Nat) (payload : Bytes) (avoid : Option Nat) :
    powerView (sendEvent s ci code qual detail payload avoid) = powerView s := by simp [sendEvent]

@[simp] theorem powerView_ownerEvent (s : State) (oconn ident code qual detail : Nat) (payload : Bytes) :
    powerView (ownerEvent s oconn ident code qual detail payload) = powerView s := by
  simp only [ownerEvent]
  repeat' split
  all_goals simp

@[simp] theorem powerView_deviceEvent (s : State) (code qual detail : Nat) (payload : Bytes) :
    powerView (deviceEvent s code qual detail payload) = powerView s := by
  simp only [deviceEvent]; split <;> simp

/-! ## Camp and the budget -/

@[simp] theorem powerView_campAskAt (s : State) (write : Bool) (port : CampPort) (conn cls cpa : Nat) :
    powerView (campAskAt s write port conn cls cpa) = powerView s := by simp [campAskAt]

@[simp] theorem powerView_cacheUse (s : State) (g : Nat) : powerView (cacheUse s g) = powerView s := rfl

@[simp] theorem powerView_setSlab (s : State) (n : Nat) (x : Slab) : powerView (setSlab s n x) = powerView s := by
  simp [setSlab]

@[simp] theorem powerView_campAsk (s : State) (write : Bool) (port : CampPort) (conn cls line : Nat) :
    powerView (campAsk s write port conn cls line) = powerView s := by simp [campAsk]

@[simp] theorem powerView_showBudget (s : State) : powerView (showBudget s) = powerView s := powerView_setF _ _ rfl

@[simp] theorem powerView_uncharge (s : State) (n : Nat) : powerView (uncharge s n) = powerView s := by
  simp [uncharge]

@[simp] theorem powerView_budgetCheck (s : State) : powerView (budgetCheck s) = powerView s := by simp [budgetCheck]

/-! ## The valley: stripes, root, journal and table log -/

@[simp] theorem powerView_setDie (s : State) (d : Nat) (x : Die) : powerView (setDie s d x) = powerView s := rfl

@[simp] theorem powerView_setBlock (s : State) (b : Nat) (x : Block) : powerView (setBlock s b x) = powerView s := rfl

@[simp] theorem powerView_dieAsk (s : State) (d : Nat) (w : DieWork) : powerView (dieAsk s d w) = powerView s := by
  simp [dieAsk]

@[simp] theorem powerView_dieEnd (s : State) (d : Nat) (w : DieWork) : powerView (dieEnd s d w) = powerView s := by
  simp [dieEnd]

@[simp] theorem powerView_startProg (s : State) (v : Nat) (k : ProgKind) :
    powerView (startProg s v k) = powerView s := by simp [startProg]

@[simp] theorem powerView_progGone (s : State) (v : Nat) : powerView (progGone s v) = powerView s := by
  simp [progGone]

@[simp] theorem powerView_putPage (s : State) (v : Nat) (p : Page) : powerView (putPage s v p) = powerView s := by
  simp [putPage]

@[simp] theorem powerView_inStripe (s : State) (v : Nat) : powerView (inStripe s v) = powerView s := rfl

@[simp] theorem powerView_endStripe (s : State) (k : Nat) : powerView (endStripe s k) = powerView s := by
  simp only [endStripe]; split <;> simp

@[simp] theorem powerView_padStripe (s : State) (k : Nat) : powerView (padStripe s k) = powerView s := by
  simp [padStripe]

@[simp] theorem powerView_closeStripe (s : State) (k : Nat) : powerView (closeStripe s k) = powerView s := by
  simp [closeStripe]

@[simp] theorem powerView_joinStripe (s : State) (v : Nat) : powerView (joinStripe s v) = powerView s := by
  simp only [joinStripe, powerView_ite]
  split
  · simp
  · split <;> simp

@[simp] theorem powerView_logIntent (s : State) (b reason : Nat) : powerView (logIntent s b reason) = powerView s :=
  rfl

@[simp] theorem powerView_intentDone (s : State) (n : Nat) : powerView (intentDone s n) = powerView s := rfl

@[simp] theorem powerView_eraseSys (reason : Nat) (s : State) (b : Nat) :
    powerView (eraseSys reason s b) = powerView s := by simp [eraseSys]

@[simp] theorem powerView_programRoot (s : State) (r : Root) : powerView (programRoot s r) = powerView s := by
  simp [programRoot]

@[simp] theorem powerView_intentRoom (s : State) : powerView (intentRoom s) = powerView s := by
  simp only [intentRoom]; split <;> simp

@[simp] theorem powerView_intendErases (s : State) : powerView (intendErases s) = powerView s := by
  simp [intendErases]

@[simp] theorem powerView_writeImage (s : State) (g : Nat) : powerView (writeImage s g) = powerView s := by
  simp only [writeImage]; split <;> simp

@[simp] theorem powerView_applyJrec (s : State) (r : JRec) : powerView (applyJrec s r) = powerView s := by
  simp only [applyJrec]; split <;> simp

@[simp] theorem powerView_programRecs (s : State) : powerView (programRecs s) = powerView s := by simp [programRecs]

@[simp] theorem powerView_wrapJournal (s : State) (old : Nat) : powerView (wrapJournal s old) = powerView s := by
  simp [wrapJournal]

@[simp] theorem powerView_saveQuarter (s : State) (old : Nat) : powerView (saveQuarter s old) = powerView s := by
  simp only [saveQuarter]; split <;> simp

@[simp] theorem powerView_flushJournal (s : State) : powerView (flushJournal s) = powerView s := by
  simp [flushJournal]

@[simp] theorem powerView_journalRec (s : State) (r : JRec) : powerView (journalRec s r) = powerView s := by
  simp [journalRec]

@[simp] theorem powerView_journal (s : State) (n : Nat) : powerView (journal s n) = powerView s := by simp [journal]

@[simp] theorem powerView_tableImage (s : State) (old : Nat) : powerView (tableImage s old) = powerView s := by
  simp only [tableImage]; split <;> simp

@[simp] theorem powerView_programTables (s : State) (part : Bool) :
    powerView (programTables s part) = powerView s := by simp [programTables]

@[simp] theorem powerView_tableLog (s : State) : powerView (tableLog s) = powerView s := by simp [tableLog]

/-! ## Slabs and objects -/

@[simp] theorem powerView_opCheck (s : State) : powerView (opCheck s) = powerView s := by
  have hlim (t : State) (b : Bool) : powerView (setB t Reg.valWearStatusWriteLimited b) = powerView t :=
    powerView_setB _ _ rfl
  have hval (t : State) (v : Valley) : powerView { t with val := v } = powerView t := rfl
  unfold opCheck
  split
  · rfl
  · extract_lets p m shown v warned
    have hshown : powerView shown = powerView s := powerView_setF _ _ rfl
    have hwarned : powerView warned = powerView s := by
      unfold warned
      split
      · split
        · exact hshown
        · exact (powerView_logEv ..).trans ((hval ..).trans hshown)
      · exact (hval ..).trans hshown
    split
    · split
      · exact hwarned
      · exact (powerView_pitchEv ..).trans ((hlim ..).trans hwarned)
    · split
      · exact (powerView_pitchEv ..).trans ((hlim ..).trans hwarned)
      · exact hwarned

@[simp] theorem powerView_addJob (s : State) (cls : Nat) (k : JobKind) :
    powerView (addJob s cls k) = powerView s := by simp [addJob]

@[simp] theorem powerView_dropJobs (s : State) (p : JobKind → Bool) : powerView (dropJobs s p) = powerView s := rfl

@[simp] theorem powerView_askSegment (s : State) (g : Nat) : powerView (askSegment s g) = powerView s := by
  simp [askSegment]

@[simp] theorem powerView_showDirty (s : State) : powerView (showDirty s) = powerView s := powerView_setF _ _ rfl

@[simp] theorem powerView_showLocked (s : State) : powerView (showLocked s) = powerView s :=
  (powerView_setF _ _ rfl).trans (powerView_setF _ _ rfl)

@[simp] theorem powerView_sumForget (s : State) (a len : Nat) : powerView (sumForget s a len) = powerView s := by
  simp [sumForget]

@[simp] theorem powerView_markRope (s : State) (n : Nat) : powerView (markRope s n) = powerView s := by
  simp [markRope]

@[simp] theorem powerView_trimSlab (s : State) (n : Nat) : powerView (trimSlab s n) = powerView s := by
  simp only [trimSlab]; split <;> simp

/-! ## Commands and their tables -/

@[simp] theorem powerView_setMbxSlot (s : State) (n : Nat) (m : MbxSlot) :
    powerView (setMbxSlot s n m) = powerView s := rfl

@[simp] theorem powerView_deliver (s : State) (c : Chan) (r : Reply) : powerView (deliver s c r) = powerView s := by
  unfold deliver
  split
  · next n =>
    extract_lets slot filled quiet shown
    have hfilled : powerView filled = powerView s := powerView_setF _ _ (aside_slotFld n)
    have hshown : powerView shown = powerView s := (powerView_putF _ _ _ rfl).trans hfilled
    simp [hshown]
  · split <;> simp
  · simp

@[simp] theorem powerView_showBrake (s : State) : powerView (showBrake s) = powerView s := powerView_setF _ _ rfl

@[simp] theorem powerView_endTicket (s : State) (t : Nat) (tk : Ticket) :
    powerView (endTicket s t tk) = powerView s := by
  simp only [endTicket]; split <;> simp

@[simp] theorem powerView_finishTicket (s : State) (t : Nat) (tk : Ticket) (r : Reply) :
    powerView (finishTicket s t tk r) = powerView s := by simp [finishTicket]

@[simp] theorem powerView_tlogAnswer (s : State) : powerView (tlogAnswer s) = powerView s := by
  simp only [tlogAnswer]
  refine (powerView_foldl _ (fun s x => ?_) _ _).trans rfl
  split
  · split <;> simp
  · rfl

@[simp] theorem powerView_conclude (s : State) (t : Nat) (tbl mir : Bool) (status : Nat) (detail : Nat)
    (payload : Bytes) (nums : List Nat) :
    powerView (conclude s t tbl mir status detail payload nums) = powerView s := by
  simp only [conclude]
  split
  · rfl
  · simp [apply_ite Prod.fst]

@[simp] theorem powerView_setCtx (s : State) (n : Nat) (c : CvuCtx) : powerView (setCtx s n c) = powerView s := rfl

@[simp] theorem powerView_showSlots (s : State) : powerView (showSlots s) = powerView s := powerView_setF _ _ rfl

@[simp] theorem powerView_freeSlot (s : State) (n : Nat) : powerView (freeSlot s n) = powerView s := by
  simp [freeSlot]

@[simp] theorem powerView_dropTitleUser (s : State) (n : Nat) : powerView (dropTitleUser s n) = powerView s := by
  simp only [dropTitleUser]; split <;> simp

@[simp] theorem powerView_freeObject (s : State) (n : Nat) (o : Obj) :
    powerView (freeObject s n o) = powerView s := by
  simp only [freeObject]; split <;> simp

@[simp] theorem powerView_tryDelete (s : State) (n : Nat) : powerView (tryDelete s n) = powerView s := by
  simp only [tryDelete]
  split
  · split
    · split <;> simp
    · rfl
  · rfl

@[simp] theorem powerView_revoked (s : State) (i : Nat) (r : Region) : powerView (revoked s i r) = powerView s := by
  simp [revoked]

@[simp] theorem powerView_drainCheck (s : State) (i : Nat) : powerView (drainCheck s i) = powerView s := by
  simp only [drainCheck]; split <;> simp

@[simp] theorem powerView_releaseRegion (s : State) (i : Nat) : powerView (releaseRegion s i) = powerView s := by
  simp [releaseRegion]

/-! ## Messages and chain runs that end -/

@[simp] theorem powerView_setMsg (s : State) (ci msn : Nat) (m : Msg) : powerView (setMsg s ci msn m) = powerView s :=
  rfl

@[simp] theorem powerView_showParked (s : State) : powerView (showParked s) = powerView s := powerView_setF _ _ rfl

@[simp] theorem powerView_dropReservation (s : State) (l : List Nat) :
    powerView (dropReservation s l) = powerView s := by simp [dropReservation]

@[simp] theorem powerView_returnInvocations (s : State) (ci k : Nat) :
    powerView (returnInvocations s ci k) = powerView s := by
  simp only [returnInvocations, powerView_ite]
  split
  · rfl
  · split <;> simp

@[simp] theorem powerView_releaseMsg (s : State) (ci msn : Nat) (m : Msg) :
    powerView (releaseMsg s ci msn m) = powerView s := by
  simp only [releaseMsg]; split <;> simp

@[simp] theorem powerView_abandonMsgs (s : State) (ci : Nat) : powerView (abandonMsgs s ci) = powerView s := by
  simp only [abandonMsgs]; split <;> simp

@[simp] theorem powerView_modQueue (s : State) (q : Nat) (f : Queue → Queue) :
    powerView (modQueue s q f) = powerView s := rfl

@[simp] theorem powerView_releaseWr (s : State) (w : Bytes) (l : WrRun) :
    powerView (releaseWr s w l) = powerView s := by
  simp only [releaseWr]; split <;> simp

@[simp] theorem powerView_checkOver (s : State) (w : Bytes) (live : Bool) :
    powerView (checkOver s w live) = powerView s := by simp [checkOver]

@[simp] theorem powerView_haltRuns (s : State) : powerView (haltRuns s) = powerView s :=
  powerView_foldl _ (fun s x => by split <;> simp) _ _

/-! ## The work of a device reset -/

@[simp] theorem powerView_avsNext (s : State) : powerView (avsNext s) = powerView s := by simp [avsNext]

@[simp] theorem powerView_programLog (s : State) : powerView (programLog s) = powerView s := by simp [programLog]

@[simp] theorem powerView_showErase (s : State) : powerView (showErase s) = powerView s := powerView_setF _ _ rfl

@[simp] theorem powerView_sectorsErased (s : State) (a n : Nat) : powerView (sectorsErased s a n) = powerView s := by
  simp [sectorsErased]

@[simp] theorem powerView_sectorsWritten (s : State) (a n : Nat) :
    powerView (sectorsWritten s a n).1 = powerView s := by simp [sectorsWritten]

@[simp] theorem powerView_flushPitch (s : State) (cause : Nat) : powerView (flushPitch s cause) = powerView s := by
  simp [flushPitch]

@[simp] theorem powerView_abandonMoves (s : State) : powerView (abandonMoves s) = powerView s := rfl

@[simp] theorem powerView_cleanSummit (s : State) : powerView (cleanSummit s) = powerView s := by simp [cleanSummit]

@[simp] theorem powerView_saveMap (s : State) : powerView (saveMap s) = powerView s := rfl

@[simp] theorem powerView_quiesceCamp (s : State) : powerView (quiesceCamp s) = powerView s := by
  simp only [quiesceCamp]
  refine powerView_foldl _ (fun s c => powerView_foldl _ (fun s k => ?_) _ _) _ _
  rw [powerView_foldl _ fun s r => ?_]
  all_goals rfl

end Sys2Proof.Machine
end

section
/-! PROOFS. What the sequencer's own operations do to its registers and state. -/

namespace Sys2Proof.Machine

/-! ## Reading through the view -/

theorem seq_of_powerView {s t : State} (h : powerView t = powerView s) : t.seq = s.seq := (powerView_eq_iff.mp h).1

theorem timebase_of_powerView {s t : State} (h : powerView t = powerView s) : t.timebase = s.timebase :=
  (powerView_eq_iff.mp h).2.1

theorem liveMap_of_powerView {s t : State} (h : powerView t = powerView s) : t.camp.liveMap = s.camp.liveMap :=
  (powerView_eq_iff.mp h).2.2.1

theorem getF_of_powerView {s t : State} (h : powerView t = powerView s) {f : Reg.Fld} (hf : powerField f = true) :
    getF t f = getF s f := (powerView_eq_iff.mp h).2.2.2 f hf

/-- The order of each of the 24 rails of the table is in the view. -/
theorem powerField_seqRailOrder {r : Nat} (h : r < 24) : powerField (Reg.seqRailOrder r) = true := by
  simp [powerField, calm, Reg.Fld.key, Reg.FldD.at, Reg.seqRailOrderD]; omega

/-- The group that goes down first follows from the rail table and the rails that are on. -/
theorem topGroup_congr {s t : State} (horder : ∀ r < 24, railOrder t r = railOrder s r)
    (hon : getF t Reg.seqStatusRailsOn = getF s Reg.seqStatusRailsOn) : topGroup t = topGroup s := by
  have hrails : rails t = rails s :=
    List.filter_congr fun r hr => by simp [railUsed, horder r (List.mem_range.mp hr)]
  have hgroup (g : Nat) : groupRails t g = groupRails s g := by
    unfold groupRails
    rw [hrails]
    refine List.filter_congr fun r hr => ?_
    have hlt : r < 24 := List.mem_range.mp (List.mem_filter.mp hr).1
    rw [horder r hlt]
  have hrail : railOn t = railOn s := by
    funext r
    simp [railOn, bitF, hon]
  simp only [topGroup, hgroup, hrail]

/-! ## The sequencer's state -/

theorem seqState_setSeqState (s : State) (v : Nat) : seqState (setSeqState s v) = v % 16 := getF_setF_same ..

@[simp] theorem seqState_setVinGood (s : State) (b : Bool) : seqState (setB s Reg.seqStatusVinGood b) = seqState s :=
  getF_setB_ne _ _ _ _ (by decide)

/-! ## Folds of register writes -/

/-- Writing one field after another changes the registers alone, and of these only the fields written. -/
theorem foldl_setF_parts (g : Nat → Reg.Fld) (v : State → Nat → Nat) (l : List Nat) (s : State) :
    ∃ regs, l.foldl (fun s c => setF s (g c) (v s c)) s = { s with regs := regs } ∧
      ∀ f, (∀ c ∈ l, f.key ≠ (g c).key) → getF { s with regs := regs } f = getF s f := by
  induction l generalizing s with
  | nil => exact ⟨s.regs, rfl, fun _ _ => rfl⟩
  | cons c l ih =>
    obtain ⟨regs, hfold, hget⟩ := ih (setF s (g c) (v s c))
    refine ⟨regs, hfold, fun f hf => ?_⟩
    obtain ⟨hc, hl⟩ := List.forall_mem_cons.mp hf
    exact (hget f hl).trans (getF_setF_ne _ _ _ _ hc)

/-! ## Departure leaves the valley and the events' end alone -/

theorem ropeSendAll_parts (s : State) (seqd : Bool) (body : RopeBody) :
    (ropeSendAll s seqd body).val = s.val ∧ (ropeSendAll s seqd body).port.eventsOff = s.port.eventsOff := by
  simp only [ropeSendAll, List.foldl_cons, List.foldl_nil]
  split <;> split <;> exact ⟨rfl, rfl⟩

theorem departFenced_parts (s : State) :
    (departFenced s).val = s.val ∧ (departFenced s).port.eventsOff = s.port.eventsOff := by
  have hfence : (fenceLead s).val = s.val ∧ (fenceLead s).port.eventsOff = s.port.eventsOff := by
    unfold fenceLead
    split <;> simp [setTeam, setRole]
  unfold departFenced departNow
  split
  · exact hfence
  · obtain ⟨hval, hport⟩ := ropeSendAll_parts _ true (.control .depart)
    exact ⟨hval.trans hfence.1, hport.trans hfence.2⟩

/-! ## The bivouac begins -/

@[simp] theorem powerView_shutdownImminent (s : State) (cause : Nat) :
    powerView (shutdownImminent s cause) = powerView s := by
  unfold shutdownImminent
  split
  · rfl
  · exact powerView_deviceEvent ..

theorem eventsOff_shutdownImminent (s : State) (cause : Nat) : (shutdownImminent s cause).port.eventsOff = true := by
  unfold shutdownImminent
  split
  · assumption
  · rfl

theorem seq_startBivouac (s : State) (hdr ev : Nat) (why : StopWhy) :
    (startBivouac s hdr ev why).seq =
      { s.seq with why := some why, bivStep := 1, bivCause := hdr, bivAt := s.timebase, graceEnd := none } := by
  have hview : powerView (logEv (shutdownImminent s ev) srcSeq .bivouac noUnit [hdr]) = powerView s := by simp
  simp only [startBivouac, seq_of_powerView (powerView_departFenced _), setSeqState_seq, seq_of_powerView hview,
    timebase_of_powerView hview]

theorem seqState_startBivouac (s : State) (hdr ev : Nat) (why : StopWhy) :
    seqState (startBivouac s hdr ev why) = stBivouac :=
  (getF_of_powerView (powerView_departFenced _) (by decide)).trans (seqState_setSeqState ..)

theorem eventsOff_startBivouac (s : State) (hdr ev : Nat) (why : StopWhy) :
    (startBivouac s hdr ev why).port.eventsOff = true := by
  simp [startBivouac, departFenced_parts, eventsOff_shutdownImminent]

/-! ## The rails go down -/

/-- With a group still on, its rails are disabled: it is the group that goes down, and at the bivouac's pace the next one
follows after BIV_STEP. -/
theorem downGroup_of_topGroup {s : State} {g : Nat} (h : topGroup s = some g) :
    (downGroup s).seq.down = some g ∧ seqState (downGroup s) = seqState s ∧
    (downGroup s).seq.delayEnd =
      (if s.seq.pace then some (s.timebase + us (10 * getF s Reg.seqCfgBivStep10us)) else none) ∧
    (downGroup s).seq.bivStep = s.seq.bivStep ∧ (downGroup s).val = s.val := by
  obtain ⟨regs, hfold, hget⟩ := foldl_setF_parts (fun _ => Reg.seqStatusRailsOn)
    (fun s r => putBit (getF s Reg.seqStatusRailsOn) r false) ((groupRails s g).filter (railOn s)) s
  have hstep : getF { s with regs := regs } Reg.seqCfgBivStep10us = getF s Reg.seqCfgBivStep10us :=
    hget _ fun _ _ => by decide
  have hstate : seqState { s with regs := regs } = seqState s := hget _ fun _ _ => by decide
  simp only [downGroup, h, putF, hfold, hstep, true_and, and_true]
  exact hstate

/-- What a reverse-order shutdown notes before the departure word. -/
def shutDownBegun (s : State) (why : StopWhy) (pace : Bool) : State :=
  setSeqState { s with
    seq.why := some why, seq.pace := pace, seq.group := none, seq.delayEnd := none, seq.dwell := [],
    seq.graceEnd := none, seq.startPending := false } stDown

theorem shutDown_of_down_none {s : State} (h : s.seq.down = none) (why : StopWhy) (pace : Bool) :
    shutDown s why pace = downGroup (departFenced (shutDownBegun s why pace)) := by
  simp [shutDown, shutDownBegun, h]

/-- The shutdown has changed no register but STATE when its first group goes down. -/
theorem getF_departFenced_shutDownBegun (s : State) (why : StopWhy) (pace : Bool) {f : Reg.Fld}
    (hf : powerField f = true) (hne : f.key ≠ Reg.seqStatusState.key) :
    getF (departFenced (shutDownBegun s why pace)) f = getF s f :=
  (getF_of_powerView (powerView_departFenced _) hf).trans (getF_setF_ne _ _ _ _ hne)

theorem topGroup_departFenced_shutDownBegun (s : State) (why : StopWhy) (pace : Bool) :
    topGroup (departFenced (shutDownBegun s why pace)) = topGroup s := by
  refine topGroup_congr (fun r hr => ?_) (getF_departFenced_shutDownBegun s why pace (by decide) (by decide))
  refine getF_departFenced_shutDownBegun s why pace (powerField_seqRailOrder hr) ?_
  simp [Reg.Fld.key, Reg.FldD.at, Reg.seqRailOrderD, Reg.seqStatusStateD]; omega

/-- A shutdown at the bivouac's pace, from a part of which no group goes down yet. -/
theorem shutDown_pace {s : State} {g : Nat} (hdown : s.seq.down = none) (hg : topGroup s = some g) (why : StopWhy) :
    (shutDown s why true).seq.down = some g ∧ seqState (shutDown s why true) = stDown ∧
    (shutDown s why true).seq.delayEnd = some (s.timebase + us (10 * getF s Reg.seqCfgBivStep10us)) ∧
    (shutDown s why true).seq.bivStep = s.seq.bivStep ∧ (shutDown s why true).val = s.val := by
  have hview := powerView_departFenced (shutDownBegun s why true)
  have hseq := seq_of_powerView hview
  obtain ⟨hd, hst, hdelay, hstep, hval⟩ :=
    downGroup_of_topGroup ((topGroup_departFenced_shutDownBegun s why true).trans hg)
  rw [shutDown_of_down_none hdown]
  refine ⟨hd, ?state, ?delay, ?step, ?valley⟩
  case state => exact hst.trans ((getF_of_powerView hview (by decide)).trans (seqState_setSeqState ..))
  case delay =>
    rw [hdelay, hseq, timebase_of_powerView hview,
      getF_departFenced_shutDownBegun s why true (by decide) (by decide)]
    rfl
  case step => rw [hstep, hseq]; rfl
  case valley => rw [hval, (departFenced_parts _).1]; rfl

/-! ## Input collapse (R356) -/

theorem exec_eq_execInputCollapse (s : State) : exec .inputCollapse s = execInputCollapse s := rfl

section
variable {s : State}

theorem exec_inputCollapse_bivouac (h : seqState s = stService ∨ seqState s = stStopping) :
    exec .inputCollapse s = .next (commit s (startBivouac (setB s Reg.seqStatusVinGood false) 1 1 .collapse)) := by
  rcases h with h | h <;> simp [exec_eq_execInputCollapse, execInputCollapse, h]

theorem exec_inputCollapse_shutDown
    (h : seqState s = stStarting ∨ seqState s = stTest ∨ seqState s = stRecovery ∨ seqState s = stReplay) :
    exec .inputCollapse s = .next (commit s (shutDown (setB s Reg.seqStatusVinGood false) .collapse true)) := by
  rcases h with h | h | h | h <;> simp [exec_eq_execInputCollapse, execInputCollapse, h]

theorem exec_inputCollapse_vinGood (h : seqState s = stOff ∨ seqState s = stBivouac ∨ seqState s = stDown) :
    exec .inputCollapse s = .next (commit s (setB s Reg.seqStatusVinGood false)) := by
  rcases h with h | h | h <;> simp [exec_eq_execInputCollapse, execInputCollapse, h]

end

/-- Settles O12: Table 12-2 row by row; the bivouac's and the shutdown's first step through the view of the sequencer,
which departure and the EVENT before it leave as it is. -/
theorem inputCollapse : Obligations.InputCollapse := by
  refine ⟨fun _ => exec_inputCollapse_bivouac, fun _ => exec_inputCollapse_shutDown,
    fun _ => exec_inputCollapse_vinGood, ?bivouac, fun _ _ hdown hg => shutDown_pace hdown hg .collapse⟩
  case bivouac =>
    intro s hdr ev why
    rw [seq_startBivouac]
    exact ⟨rfl, rfl, seqState_startBivouac s hdr ev why, eventsOff_startBivouac s hdr ev why⟩

end Sys2Proof.Machine
end

section
/-! PROOFS. The push-button (R368). -/

namespace Sys2Proof.Machine

theorem exec_eq_execButtonRecognised (s : State) : exec .buttonRecognised s = execButtonRecognised s := rfl
theorem exec_eq_execShortPress (s : State) : exec .shortPress s = execShortPress s := rfl
theorem exec_eq_execLongPress (s : State) : exec .longPress s = execLongPress s := rfl

/-- The button's timer and the marks of a long press are no registers. -/
theorem seqState_seq (s : State) (q : Seq) : seqState { s with seq := q } = seqState s := rfl

@[simp] theorem seqState_commit (s t : State) : seqState (commit s t) = seqState t := rfl

/-- What a long press notes before it acts: it is recorded, and no start is left waiting. -/
def longPressNoted (s : State) (b : Nat) : State :=
  pitchEv { reach { s with seq.btnDown := none } (b + sec (getF s Reg.seqCfgBtnLongS)) with
    seq.stayOff := true, seq.restartAt := none, seq.startPending := false } srcSeq .longPress

theorem regs_longPressNoted (s : State) (b : Nat) : (longPressNoted s b).regs = s.regs := rfl

theorem seqState_longPressNoted (s : State) (b : Nat) : seqState (longPressNoted s b) = seqState s := rfl

section
variable {s : State} {b : Nat}

theorem exec_buttonRecognised (h : s.seq.btnDown = none) :
    exec .buttonRecognised s = .next (commit s { s with seq.btnDown := some s.timebase }) := by
  simp [exec_eq_execButtonRecognised, execButtonRecognised, h]

theorem exec_shortPress (h : s.seq.btnDown = some b) :
    exec .shortPress s = .next (commit s
      (if seqState s = stService then orderlyStop { s with seq.btnDown := none } 4
       else if seqState s = stOff ∧ isSet s Reg.seqCfgBtnOn = true then askStart { s with seq.btnDown := none }
       else { s with seq.btnDown := none })) := by
  have hset : isSet { s with seq.btnDown := none } Reg.seqCfgBtnOn = isSet s Reg.seqCfgBtnOn := rfl
  simp [exec_eq_execShortPress, execShortPress, h, seqState_seq, hset]

theorem exec_longPress (h : s.seq.btnDown = some b) :
    exec .longPress s = .next (commit s
      (if seqState s = stService ∨ seqState s = stStopping then startBivouac (longPressNoted s b) 3 4 .longPress
       else if seqState s = stStarting ∨ seqState s = stTest ∨ seqState s = stRecovery ∨ seqState s = stReplay then
         shutDown (longPressNoted s b) .longPress false
       else longPressNoted s b)) := by
  have hexec : exec .longPress s = .next (commit s
      (if seqState s == stService || seqState s == stStopping then startBivouac (longPressNoted s b) 3 4 .longPress
       else if seqState s == stStarting || seqState s == stTest || seqState s == stRecovery || seqState s == stReplay then
         shutDown (longPressNoted s b) .longPress false
       else longPressNoted s b)) := by
    simp only [exec_eq_execLongPress, execLongPress, h]
    rfl
  simp only [hexec, Bool.or_eq_true, beq_iff_eq, or_assoc]

end

/-- What the end of a power-down leaves, before a restart that may follow it (Table 17-1). -/
def poweredDown (s : State) : State :=
  let off := startWait (setF (coreOff s) Reg.fabStartStatusStage 2) 0
  setSeqState { off with
    seq.down := none, seq.delayEnd := none, seq.discharging := [], seq.why := none, seq.bivStep := 0, seq.group := none,
    seq.good := [], seq.dwell := [], seq.fell := [], seq.graceEnd := none,
    start.cause := if s.seq.bivStep != 0 && s.seq.why != some .cycle then 1 else 2 } stOff

/-- After a long press no restart follows, whatever the rails went down for. -/
theorem powerDownEnd_of_stayOff {s : State} (h : s.seq.stayOff = true) : powerDownEnd s = poweredDown s := by
  have hstay : (startWait (setF (coreOff s) Reg.fabStartStatusStage 2) 0).seq.stayOff = true := h
  rcases hwhy : s.seq.why with _ | why
  · simp only [powerDownEnd, poweredDown, hwhy]
    rfl
  · cases why <;>
      simp only [powerDownEnd, poweredDown, hwhy, setSeqState_seq, hstay, Bool.not_true, Bool.and_false,
        Bool.false_eq_true, if_false, if_true] <;>
      rfl

theorem seqState_poweredDown (s : State) : seqState (poweredDown s) = stOff := seqState_setSeqState ..

/-- Settles O13: the presses by the state of the sequencer; a long press leaves its mark in the bivouac's state too, for
what the shutdown tells the hosts leaves the sequencer alone. -/
theorem pressActions : Obligations.PressActions := by
  refine ⟨fun _ => exec_buttonRecognised, ?orderly, ?start, ?ignored, ?bivouac, ?shutDown, ?off, ?staysOff⟩
  case orderly =>
    intro s b hb hst
    rw [exec_shortPress hb, if_pos hst]
  case start =>
    intro s b hb hst hon
    rw [exec_shortPress hb, if_neg (by rw [hst]; decide), if_pos ⟨hst, hon⟩]
  case ignored =>
    intro s b hb hst hoff
    rw [exec_shortPress hb, if_neg hst, if_neg fun ⟨hst, hon⟩ => by simp [hoff hst] at hon]
  case bivouac =>
    intro s b hb hst
    refine ⟨_, by rw [exec_longPress hb, if_pos hst], ?_⟩
    rw [seqState_commit, commit_seq, seq_startBivouac]
    exact ⟨seqState_startBivouac .., rfl, rfl, rfl⟩
  case shutDown =>
    intro s b hb hst
    rw [exec_longPress hb, if_neg (by rcases hst with h | h | h | h <;> rw [h] <;> decide), if_pos hst]
    rfl
  case off =>
    intro s b hb hst
    refine ⟨_, by rw [exec_longPress hb, if_neg (by rw [hst]; decide), if_neg (by rw [hst]; decide)], ?_⟩
    exact ⟨rfl, rfl, rfl, rfl⟩
  case staysOff =>
    intro s hstay hstart hrestart
    rw [powerDownEnd_of_stayOff hstay]
    exact ⟨seqState_poweredDown s, hstart, hrestart⟩

end Sys2Proof.Machine
end

section
/-! PROOFS. The manual reset (R369): what the device reset (R461) leaves of the sequencer, and of camp. -/

namespace Sys2Proof.Machine

theorem exec_eq_execManualReset (s : State) : exec .manualReset s = execManualReset s := rfl
theorem exec_eq_execStartStageDone (i : StageInfo) (s : State) :
    exec (.startStageDone i) s = execStartStageDone i s := rfl

/-! ## The core goes off -/

/-- Keeping the entries of some keys keeps each of these entries. -/
theorem tget_filter_key {α : Type} (t : Tab α) {p : Nat → Bool} {n : Nat} (h : p n = true) :
    tget (t.filter fun x => p x.1) n = tget t n := by
  induction t with
  | nil => rfl
  | cons a t ih =>
    by_cases ha : a.1 = n
    · simp [tget, ha, h]
    · cases hp : p a.1 <;> simp [tget, hp, ha, ih]

/-- A field that PD0 keeps reads on when the core has gone off. -/
theorem getF_coreOff (s : State) {f : Reg.Fld}
    (h : ((Reg.fieldsAt (f.key / 64)).any fun g => g.lo == f.key % 64 && g.pd0) = true) :
    getF (coreOff s) f = getF s f := by
  have hget : tget (keptRegs s) f.key = tget s.regs f.key :=
    tget_filter_key (p := fun k => (Reg.fieldsAt (k / 64)).any fun g => g.lo == k % 64 && g.pd0) s.regs h
  simp only [getF, coreOff, hget]

theorem getF_coreOff_railsOn (s : State) : getF (coreOff s) Reg.seqStatusRailsOn = getF s Reg.seqStatusRailsOn :=
  getF_coreOff s (by decide +kernel)

/-- An AVSBus step changes what PD0 holds of the core voltage, and nothing else. -/
theorem avsNext_eq (s : State) : avsNext s = { s with fab := (avsNext s).fab } := by
  simp only [avsNext]
  split <;> rfl

/-! ## The device reset -/

/-- The part when the device reset has ended its work and the core goes off: operations have ended, queued writes are
done and, where service was open, the logs are flushed (R461). -/
def resetReady (s : State) : State :=
  let d := departFenced s
  let h := haltRuns ((tkeys d.conns).foldl abandonMsgs { d with ops.budgetQ := [] })
  let t := quiesceCamp (cleanSummit (abandonMoves h))
  if serviceOpen s then flushPitch (programLog (flushJournal t)) 4 else t

theorem powerView_resetReady (s : State) : powerView (resetReady s) = powerView s := by
  simp [resetReady]

/-- The states shown for camp's channels are no register of the rails. -/
theorem setCampStates_parts (r : State) (live gone : List Nat) :
    ∃ regs, gone.foldl (fun r c => setF r (Reg.campChStatusState c) 5)
        (live.foldl (fun r c => setF r (Reg.campChStatusState c) 4) r) = { r with regs := regs } ∧
      getF { r with regs := regs } Reg.seqStatusRailsOn = getF r Reg.seqStatusRailsOn := by
  have hne (c : Nat) : Reg.seqStatusRailsOn.key ≠ (Reg.campChStatusState c).key := by
    simp [Reg.Fld.key, Reg.FldD.at, Reg.seqStatusRailsOnD, Reg.campChStatusStateD]; omega
  obtain ⟨regs₁, hlive, hget₁⟩ := foldl_setF_parts Reg.campChStatusState (fun _ _ => 4) live r
  obtain ⟨regs₂, hgone, hget₂⟩ := foldl_setF_parts Reg.campChStatusState (fun _ _ => 5) gone { r with regs := regs₁ }
  rw [hlive]
  exact ⟨regs₂, hgone, (hget₂ _ fun c _ => hne c).trans (hget₁ _ fun c _ => hne c)⟩

/-- A part in recovery whose start enters at stage 4. -/
def recoveryAtStage4 (r : State) : State := startWait (setF (setSeqState r stRecovery) Reg.fabStartStatusStage 4) 0

/-- Of the registers these writes change STATE, STAGE and WAIT alone. -/
theorem getF_recoveryAtStage4 (r : State) {f : Reg.Fld} (hstate : f.key ≠ Reg.seqStatusState.key)
    (hstage : f.key ≠ Reg.fabStartStatusStage.key) (hwait : f.key ≠ Reg.fabStartStatusWait.key) :
    getF (recoveryAtStage4 r) f = getF r f := by
  simp only [recoveryAtStage4, startWait, setSeqState]
  rw [getF_setF_ne _ _ _ _ hwait, getF_setF_ne _ _ _ _ hstage, getF_setF_ne _ _ _ _ hstate]

theorem stage_recoveryAtStage4 (r : State) : getF (recoveryAtStage4 r) Reg.fabStartStatusStage = 4 :=
  (getF_setF_ne _ _ _ _ (by decide)).trans (getF_setF_same ..)

theorem seqState_recoveryAtStage4 (r : State) : seqState (recoveryAtStage4 r) = stRecovery :=
  (getF_setF_ne _ _ _ _ (by decide)).trans ((getF_setF_ne _ _ _ _ (by decide)).trans (getF_setF_same ..))

/-- The part after the core has gone off: stage 4 of a recovery is all that the device reset adds. -/
theorem deviceReset_eq (s : State) (cause : Nat) :
    ∃ r, deviceReset s cause = recoveryAtStage4 r ∧
      r.start.cause = cause ∧ r.seq = { s.seq with graceEnd := none, why := none } ∧
      r.mgmt.grantEnd = 0 ∧ r.cmd.fencedIds = [] ∧
      getF r Reg.seqStatusRailsOn = getF s Reg.seqStatusRailsOn ∧
      ∀ x ∈ r.camp.ch, x.2.selfRef = true → s.camp.liveMap.contains x.1 = true := by
  unfold deviceReset
  extract_lets _ _ _ _ _ _ _ ready _ live saved _ _ _ _ _ _ _ _ r shown shown' q
  have hview : powerView ready = powerView s := powerView_resetReady s
  have hoff : getF r Reg.seqStatusRailsOn = getF s Reg.seqStatusRailsOn :=
    (getF_coreOff_railsOn saved).trans (getF_of_powerView hview (by decide))
  obtain ⟨regs, hshown, hrails⟩ := setCampStates_parts r live ready.camp.gone
  have hq : q = { r with regs := regs, fab := (avsNext shown').fab } := by
    have hstep : q = { shown' with fab := (avsNext shown').fab } := avsNext_eq shown'
    have hshown : shown' = { r with regs := regs } := hshown
    rw [hstep, hshown]
  have hready : ready.seq = s.seq := seq_of_powerView hview
  have hseq : q.seq = s.seq := by rw [hq]; exact hready
  refine ⟨{ q with seq := { s.seq with graceEnd := none, why := none } }, by rw [← hseq]; rfl, ?cause, rfl, ?grant,
    ?fenced, ?rails, ?channels⟩
  case cause => rw [hq]
  case grant => rw [hq]; rfl
  case fenced => rw [hq]; rfl
  case rails => rw [hq]; exact hrails.trans hoff
  case channels =>
    intro x hx hself
    have hch : q.camp.ch = ready.camp.ch.map fun x =>
        (x.1, { x.2 with stage := 0, selfRef := live.contains x.1, reinit := false }) := by rw [hq]
    have hx : x ∈ q.camp.ch := hx
    rw [hch] at hx
    obtain ⟨y, -, rfl⟩ := List.mem_map.mp hx
    obtain ⟨hmem, -⟩ := List.mem_filter.mp (List.contains_iff_mem.mp hself)
    rw [← liveMap_of_powerView hview]
    exact List.contains_iff_mem.mpr hmem

/-! ## MANUAL_RESET and its release -/

/-- Without an end in the future no grant is in force. -/
theorem grantLevel_of_grantEnd_zero {s : State} (h : s.mgmt.grantEnd = 0) : grantLevel s = 0 := by
  simp [grantLevel, h]

/-- Past stage 4, with neither a bivouac nor a shutdown under way, MANUAL_RESET is the device reset with cause 3. -/
theorem exec_manualReset {s : State}
    (hst : seqState s = stService ∨ seqState s = stStarting ∨ seqState s = stRecovery ∨ seqState s = stReplay ∨
      seqState s = stTest) (hstage : 4 ≤ getF s Reg.fabStartStatusStage) :
    exec .manualReset s = .next (commit s { deviceReset s 3 with start.inReset := true }) := by
  rcases hst with h | h | h | h | h <;>
    simp [exec_eq_execManualReset, execManualReset, h, Nat.not_lt.mpr hstage]

theorem exec_manualReset_ignored {s : State}
    (h : seqState s = stBivouac ∨ seqState s = stStopping ∨ seqState s = stDown) :
    exec .manualReset s = .next (commit s s) := by
  rcases h with h | h | h <;> simp [exec_eq_execManualReset, execManualReset, h]

theorem exec_manualResetRelease (s : State) :
    exec .manualResetRelease s = .next (commit s { s with start.inReset := false }) := rfl

/-- From stage 4 on no stage ends while the reset is held (R369). -/
theorem stageRuns_of_inReset {s : State} (hin : s.start.inReset = true) (hstage : 4 ≤ stage s) (n : Nat) :
    stageRuns s n = false := by
  by_cases hn : stage s = n
  · subst hn
    simp [stageRuns, hin]
    omega
  · simp [stageRuns, hn]

/-- Settles O14: the device reset's end by `deviceReset_eq`, over the view of the sequencer that its work on the rest of
the part leaves as it is. -/
theorem manualReset : Obligations.ManualReset := by
  refine ⟨?reset, fun _ => exec_manualReset_ignored, ?held, exec_manualResetRelease⟩
  case reset =>
    intro s hst hstage
    obtain ⟨r, hr, hcause, hseq, hgrant, hfenced, hrails, hch⟩ := deviceReset_eq s 3
    refine ⟨_, exec_manualReset hst hstage, rfl, ?_⟩
    rw [hr]
    refine ⟨hcause, stage_recoveryAtStage4 r, seqState_recoveryAtStage4 r, ?rails, ?step, hch,
      grantLevel_of_grantEnd_zero hgrant, hfenced⟩
    case rails => exact (getF_recoveryAtStage4 r (by decide) (by decide) (by decide)).trans hrails
    case step => exact (congrArg (·.bivStep) hseq : r.seq.bivStep = s.seq.bivStep)
  case held =>
    intro s i hin hstage
    simp [exec_eq_execStartStageDone, execStartStageDone, stageRuns_of_inReset hin hstage]

end Sys2Proof.Machine
end

section
/-! PROOFS. What appending to the logbook does (R416), and LOG_CLEAR (R421). -/

namespace Sys2Proof.Machine

/-! ## Appending a record -/

/-- A page that the record fills is programmed besides; the records held are not touched by it. -/
@[simp] theorem Logbook.append_recs (l : Logbook) (r : LogRec) :
    (l.append r).recs = l.recs ++ [{ r with seq := l.next }] := by
  simp only [Logbook.append]
  split <;> rfl

@[simp] theorem Logbook.append_next (l : Logbook) (r : LogRec) : (l.append r).next = l.next + 1 := by
  simp only [Logbook.append]
  split <;> rfl

/-- In a loaded logbook that is not full, an event that does not repeat the last record is appended (R416). -/
theorem logPut_of_new {s : State} {src : Nat} {e : Ev} {unit : Nat} {detail : List Nat} (posted : Bool)
    (hload : s.log.loaded = true) (hfull : isSet s Reg.logStatusFull = false) (hroom : s.log.recs.length < 65535)
    (hnew : ∀ r, s.log.recs.getLast? = some r → r.same src e unit detail = false) :
    let r : LogRec := { seq := 0, src := src, ev := e, unit := unit, detail := detail, posted := posted }
    logPut s src e unit detail posted = ({ s with log := s.log.append r }, { r with seq := s.log.next }, false) := by
  cases hlast : s.log.recs.getLast? with
  | none => simp [logPut, hload, hfull, hlast]
  | some last => simp [logPut, hload, hfull, hlast, hnew last hlast, hroom]

/-- A record of another event is not repeated. -/
theorem LogRec.same_of_ev_ne {r : LogRec} {e : Ev} (h : r.ev ≠ e) (src unit : Nat) (detail : List Nat) :
    r.same src e unit detail = false := by
  simp [LogRec.same, h]

/-! ## LOG_CLEAR -/

theorem exec_eq_execLogClear (t : Nat) (s : State) : exec (.logClear t) s = execLogClear t s := rfl

/-- The logbook and its registers without a record, before LOG_CLEARED is written. -/
def logEmptied (s : State) : State :=
  setB (setF { s with log.recs := [] } Reg.logStatusDropped 0) Reg.logStatusFull false

@[simp] theorem isSet_logEmptied_full (s : State) : isSet (logEmptied s) Reg.logStatusFull = false := by
  simp [logEmptied, isSet, getF_setB_same]

@[simp] theorem getF_logEmptied_dropped (s : State) : getF (logEmptied s) Reg.logStatusDropped = 0 := by
  rw [logEmptied, getF_setB_ne _ _ _ _ (by decide), getF_setF_same, Nat.zero_mod]

/-- LOG_CLEARED with what it tells of the clear (Table 15-4), before it has its number. -/
def clearRecord (s : State) (who chan : Nat) : LogRec :=
  { seq := 0, src := srcLog, ev := .logCleared, unit := noUnit,
    detail := [who, chan, ((s.log.recs.head?).map (·.seq)).getD 0, ((s.log.recs.getLast?).map (·.seq)).getD 0,
      getF s Reg.logStatusDropped] }

/-- LOG_CLEAR empties a loaded logbook and appends LOG_CLEARED, which no earlier record can absorb. -/
theorem logClear_of_loaded {s : State} (who chan : Nat) (hload : s.log.loaded = true) :
    logClear s who chan = { logEmptied s with log := (logEmptied s).log.append (clearRecord s who chan) } := by
  have hempty : (logEmptied s).log.recs = [] := rfl
  have hput := logPut_of_new (s := logEmptied s) (src := srcLog) (e := .logCleared) (unit := noUnit)
    (detail := (clearRecord s who chan).detail) false hload (isSet_logEmptied_full s) (by simp [hempty])
    (by simp [hempty])
  exact congrArg Prod.fst hput

/-- LOG_CLEAR over a connection; the record names the channel by 1. -/
theorem exec_logClear_net {s : State} {t n : Nat} {tk : Ticket} (hw : Waits s t 0x0702 tk) (hm : tk.mgmt = true)
    (hc : tk.chan = .net n) :
    exec (.logClear t) s = .next (commit s (answer (logClear s (tk.ident + 4096) 1) t scOk)) := by
  simp only [exec_eq_execLogClear, execLogClear, needs_true, onTicket_of_waits hw, hm, hc, Bool.toNat_true, Nat.one_mul]

/-- LOG_CLEAR over the mailbox or I3C; the record names the channel by 0. -/
theorem exec_logClear_not_net {s : State} {t : Nat} {tk : Ticket} (hw : Waits s t 0x0702 tk) (hm : tk.mgmt = true)
    (hc : ∀ n, tk.chan ≠ .net n) :
    exec (.logClear t) s = .next (commit s (answer (logClear s (tk.ident + 4096) 0) t scOk)) := by
  cases hchan : tk.chan with
  | net n => exact absurd hchan (hc n)
  | mbx n | i3c =>
    simp only [exec_eq_execLogClear, execLogClear, needs_true, onTicket_of_waits hw, hm, hchan, Bool.toNat_true,
      Nat.one_mul]

/-- Settles O58: the emptied logbook takes LOG_CLEARED by `logClear_of_loaded`. -/
theorem logCleared : Obligations.LogCleared := by
  refine ⟨rfl, fun _ _ _ => exec_logClear_not_net, fun _ _ _ _ => exec_logClear_net, ?clear⟩
  case clear =>
    intro s who chan hload
    rw [logClear_of_loaded who chan hload]
    refine ⟨_, Logbook.append_recs .., rfl, rfl, rfl, rfl, Logbook.append_next .., ?_, ?_, rfl⟩
    · exact getF_logEmptied_dropped s
    · exact isSet_logEmptied_full s

end Sys2Proof.Machine
end

section
/-! PROOFS. The windows of a notification queue (R425) and its two copies of each pointer (R427). -/

namespace Sys2Proof.Machine

/-! ## A queue and its registers -/

/-- Both copies of each pointer agree (R427). -/
def Nq.Agrees (n : Nq) : Prop := n.rdA = n.rdB ∧ n.wrA = n.wrB

/-- A queue after its reset: empty, its message numbers going on (R427). -/
def Nq.cleared (n : Nq) : Nq := { n with ents := [], rdA := 0, rdB := 0, wrA := 0, wrB := 0 }

theorem Nq.agrees_cleared (n : Nq) : n.cleared.Agrees := ⟨rfl, rfl⟩

@[simp] theorem setNq_nq (s : State) (q : Nat) (n : Nq) : (setNq s q n).nq = tset s.nq q n := rfl

@[simp] theorem nqOf_setNq_same (s : State) (q : Nat) (n : Nq) : nqOf (setNq s q n) q = n := by
  simp [nqOf]

/-- A queue's state rests on the table of queues alone. -/
theorem nqOf_of_nq {s t : State} (h : t.nq = s.nq) (q : Nat) : nqOf t q = nqOf s q := by
  simp [nqOf, h]

/-- COUNT shows the entries of the queue (Table 15-10). -/
theorem getF_setNq_count (s : State) (q : Nat) (n : Nq) :
    getF (setNq s q n) (Reg.nqStatusCount q) = n.ents.length % 2 ^ (Reg.nqStatusCount q).w := getF_setF_same ..

theorem getF_setNq_lost (s : State) (q : Nat) (n : Nq) :
    getF (setNq s q n) (Reg.nqStatusLost q) = getF s (Reg.nqStatusLost q) := by
  rw [setNq, getF_setF_ne _ _ _ _ (by rw [key_nqLost, key_nqCount]; omega)]
  rfl

theorem getF_setNq_resets (s : State) (q : Nat) (n : Nq) :
    getF (setNq s q n) (Reg.nqStatusResets q) = getF s (Reg.nqStatusResets q) := by
  rw [setNq, getF_setF_ne _ _ _ _ (by rw [key_nqResets, key_nqCount]; omega)]
  rfl

theorem key_nqLost_ne_nqResets (q : Nat) : (Reg.nqStatusLost q).key ≠ (Reg.nqStatusResets q).key := by
  rw [key_nqLost, key_nqResets]
  omega

/-- A counter field saturates at its width. -/
theorem getF_bumpF_same (s : State) (f : Reg.Fld) (k : Nat) :
    getF (bumpF s f k) f = min (getF s f + k) (2 ^ f.w - 1) := by
  have hpos := Nat.two_pow_pos f.w
  have hsat : satAdd (getF s f) k (2 ^ f.w - 1) = min (getF s f + k) (2 ^ f.w - 1) := rfl
  rw [bumpF, getF_setF_same, hsat]
  exact Nat.mod_eq_of_lt (by omega)

/-- LOG_STATUS.FULL is no field of an NQ_STATUSn. -/
theorem logStatusFull_key_ne_nq (q : Nat) {lo : Nat} (hlo : lo < 64) :
    Reg.logStatusFull.key ≠ (0x40088 + 4096 * q) * 64 + lo := by
  have hkey : Reg.logStatusFull.key = 0x70000 * 64 + 17 := rfl
  omega

/-! ## The check at every use -/

/-- A queue whose copies differ, emptied, with LOST and RESETS raised, before QUEUE_RESET is appended (R427). -/
def nqEmptied (s : State) (q : Nat) : State :=
  bumpF (bumpF (setNq s q (nqOf s q).cleared)
    (Reg.nqStatusLost q) (nqOf s q).messages) (Reg.nqStatusResets q)

theorem nqOf_nqEmptied (s : State) (q : Nat) :
    nqOf (nqEmptied s q) q = (nqOf s q).cleared := nqOf_setNq_same ..

theorem getF_nqEmptied_lost (s : State) (q : Nat) : getF (nqEmptied s q) (Reg.nqStatusLost q) =
    min (getF s (Reg.nqStatusLost q) + (nqOf s q).messages) (2 ^ (Reg.nqStatusLost q).w - 1) := by
  rw [nqEmptied, getF_bumpF_ne _ _ _ _ (key_nqLost_ne_nqResets q), getF_bumpF_same, getF_setNq_lost]

theorem getF_nqEmptied_resets (s : State) (q : Nat) : getF (nqEmptied s q) (Reg.nqStatusResets q) =
    min (getF s (Reg.nqStatusResets q) + 1) (2 ^ (Reg.nqStatusResets q).w - 1) := by
  rw [nqEmptied, getF_bumpF_same, getF_bumpF_ne _ _ _ _ (key_nqLost_ne_nqResets q).symm, getF_setNq_resets]

theorem isSet_nqEmptied_full (s : State) (q : Nat) :
    isSet (nqEmptied s q) Reg.logStatusFull = isSet s Reg.logStatusFull := by
  have hresets : Reg.logStatusFull.key ≠ (Reg.nqStatusResets q).key :=
    key_nqResets q ▸ logStatusFull_key_ne_nq q (by omega)
  have hlost : Reg.logStatusFull.key ≠ (Reg.nqStatusLost q).key := key_nqLost q ▸ logStatusFull_key_ne_nq q (by omega)
  have hcount : Reg.logStatusFull.key ≠ (Reg.nqStatusCount q).key :=
    key_nqCount q ▸ logStatusFull_key_ne_nq q (lo := 0) (by omega)
  rw [isSet, nqEmptied, getF_bumpF_ne _ _ _ _ hresets, getF_bumpF_ne _ _ _ _ hlost, setNq, getF_setF_ne _ _ _ _ hcount]
  rfl

theorem nqCheck_of_agrees {s : State} {q : Nat} (h : (nqOf s q).Agrees) : nqCheck s q = s := if_pos h

/-- The reset of a queue, up to the vector that it sends where messages were lost. -/
theorem nqCheck_of_differs {s : State} {q : Nat} (h : ¬ (nqOf s q).Agrees) :
    let u := (logPut (nqEmptied s q) srcLog .queueReset noUnit [q, (nqOf s q).messages] false).1
    nqCheck s q = u ∨ nqCheck s q = sendVector u (getF u (Reg.nqCfgVector q)) := by
  have hreset : nqCheck s q = _ := if_neg h
  rw [hreset]
  by_cases hm : (nqOf s q).messages = 0
  · exact .inl (if_pos hm)
  · exact .inr (if_neg hm)

/-- A queue that is reset is left empty. -/
theorem nqOf_nqCheck_of_differs {s : State} {q : Nat} (h : ¬ (nqOf s q).Agrees) :
    nqOf (nqCheck s q) q = (nqOf s q).cleared := by
  rw [← nqOf_nqEmptied]
  rcases nqCheck_of_differs h with e | e <;> exact nqOf_of_nq (by simp [e]) q

/-- After the check the copies agree. -/
theorem agrees_nqCheck (s : State) (q : Nat) : (nqOf (nqCheck s q) q).Agrees := by
  by_cases h : (nqOf s q).Agrees
  · rwa [nqCheck_of_agrees h]
  · rw [nqOf_nqCheck_of_differs h]
    exact (nqOf s q).agrees_cleared

/-- Where the logbook has room, and its last record is of another event, the reset appends QUEUE_RESET. -/
theorem nqCheck_records {s : State} {q : Nat} (h : ¬ (nqOf s q).Agrees) (hload : s.log.loaded = true)
    (hfull : isSet s Reg.logStatusFull = false) (hroom : s.log.recs.length < 65535)
    (hlast : ∀ r, s.log.recs.getLast? = some r → r.ev ≠ .queueReset) :
    (nqCheck s q).regs = (nqEmptied s q).regs ∧ (nqCheck s q).log = s.log.append
      { seq := 0, src := srcLog, ev := .queueReset, unit := noUnit, detail := [q, (nqOf s q).messages] } := by
  have hput := logPut_of_new (s := nqEmptied s q) (src := srcLog) (e := .queueReset) (unit := noUnit)
    (detail := [q, (nqOf s q).messages]) false hload ((isSet_nqEmptied_full s q).trans hfull) hroom
    fun r hr => LogRec.same_of_ev_ne (hlast r hr) ..
  rcases nqCheck_of_differs h with e | e <;> rw [e, hput]
  · exact ⟨rfl, rfl⟩
  · exact ⟨sendVector_regs .., sendVector_log ..⟩

/-! ## Reads of the windows -/

theorem exec_eq_execNqPop (q : Nat) (exact : Bool) (s : State) : exec (.nqPop q exact) s = execNqPop q exact s := rfl

theorem exec_eq_execNqPeek (q : Nat) (exact : Bool) (s : State) : exec (.nqPeek q exact) s = execNqPeek q exact s := rfl

theorem exec_nqPop {s : State} {q : Nat} (hq : q < 16) (hl : s.mgmt.linkUp = true) (exact : Bool) :
    exec (.nqPop q exact) s = .next (commit s (nqRead s q exact true)) := by
  simp [exec_eq_execNqPop, execNqPop, wfNqPop, hq, onWindow_of_linkUp hl]

theorem exec_nqPeek {s : State} {q : Nat} (hq : q < 16) (hl : s.mgmt.linkUp = true) (exact : Bool) :
    exec (.nqPeek q exact) s = .next (commit s (nqRead s q exact false)) := by
  simp [exec_eq_execNqPeek, execNqPeek, wfNqPeek, hq, onWindow_of_linkUp hl]

/-- A queue without its oldest entry: both copies of the read pointer move on. -/
def Nq.popped (n : Nq) (rest : List NqEntry) : Nq :=
  { n with ents := rest, rdA := (n.rdA + 1) % 2 ^ 16, rdB := (n.rdB + 1) % 2 ^ 16 }

theorem Nq.Agrees.popped {n : Nq} (h : n.Agrees) (rest : List NqEntry) : (n.popped rest).Agrees := by
  obtain ⟨hrd, hwr⟩ := h
  exact ⟨by simp only [Nq.popped, hrd], hwr⟩

/-- An aligned read of a queue that the check leaves empty. -/
theorem nqRead_of_nil {s : State} {q : Nat} (h : (nqOf (nqCheck s q) q).ents = []) (pop : Bool) :
    nqRead s q true pop = { nqCheck s q with mgmt.readOut := zeros 64 } := by
  simp [nqRead, h]

/-- An aligned read of POP takes the oldest entry. -/
theorem nqRead_pop_of_cons {s : State} {q : Nat} {e : NqEntry} {rest : List NqEntry}
    (h : (nqOf (nqCheck s q) q).ents = e :: rest) :
    nqRead s q true true = { setNq (nqCheck s q) q ((nqOf (nqCheck s q) q).popped rest) with
      mgmt.readOut := nqBytes e } := by
  simp [nqRead, h, Nq.popped]

/-- A pop leaves the copies equal. -/
theorem agrees_nqRead_pop (s : State) (q : Nat) : (nqOf (nqRead s q true true) q).Agrees := by
  cases h : (nqOf (nqCheck s q) q).ents with
  | nil =>
    rw [nqRead_of_nil h]
    exact agrees_nqCheck s q
  | cons e rest =>
    have hpop : nqOf (nqRead s q true true) q = (nqOf (nqCheck s q) q).popped rest := by
      rw [nqRead_pop_of_cons h]
      exact nqOf_setNq_same ..
    rw [hpop]
    exact (agrees_nqCheck s q).popped rest

theorem agrees_of_nq_eq_tset {u : State} {l : Tab Nq} {q : Nat} {n : Nq} (hu : u.nq = tset l q n) (hn : n.Agrees) :
    (nqOf u q).Agrees := by
  simpa [nqOf, hu] using hn

/-- A posting leaves the copies equal: each moves both copies of a pointer by as much. -/
theorem agrees_nqPost (s : State) (q : Nat) (l : List NqBody) : (nqOf (nqPost s q l) q).Agrees := by
  obtain ⟨hrd, hwr⟩ := agrees_nqCheck s q
  simp only [nqPost]
  split
  case isTrue =>
    refine agrees_of_nq_eq_tset (by simp only [sendVector_nq, bumpF_nq, setNq_nq]; rfl) ?_
    exact ⟨hrd, hwr⟩
  case isFalse =>
    split <;> split <;> refine agrees_of_nq_eq_tset (by simp only [sendVector_nq, bumpF_nq, setNq_nq]; rfl) ?_ <;>
      exact ⟨by simp only [hrd], by simp only [hwr]⟩

/-! ## The statements -/

/-- Settles O25: `nqCheck` resets the queue, and the read that meets the reset returns the empty result. -/
theorem queuePointers : Obligations.QueuePointers := by
  refine ⟨?reset, ?pop, agrees_nqPost⟩
  case reset =>
    intro s q b hq hl hload hfull hroom hlast hdiff
    have hnot : ¬ (nqOf s q).Agrees := fun ⟨hrd, hwr⟩ => hdiff.elim (· hrd) (· hwr)
    have hempty := nqOf_nqCheck_of_differs hnot
    obtain ⟨hregs, hlog⟩ := nqCheck_records hnot hload hfull hroom hlast
    have hexec : exec (if b then .nqPop q true else .nqPeek q true) s =
        .next (commit s { nqCheck s q with mgmt.readOut := zeros 64 }) := by
      have hents : (nqOf (nqCheck s q) q).ents = [] := congrArg Nq.ents hempty
      cases b
      · exact (exec_nqPeek hq hl true).trans (by rw [nqRead_of_nil hents])
      · exact (exec_nqPop hq hl true).trans (by rw [nqRead_of_nil hents])
    obtain ⟨hrd, hwr⟩ := agrees_nqCheck s q
    refine ⟨_, hexec, rfl, congrArg Nq.ents hempty, hrd, hwr, ?lost, ?resets, ?record⟩
    case lost => exact (getF_of_regs hregs _).trans (getF_nqEmptied_lost s q)
    case resets => exact (getF_of_regs hregs _).trans (getF_nqEmptied_resets s q)
    case record => exact ⟨_, (congrArg Logbook.recs hlog).trans (Logbook.append_recs ..), rfl, rfl, rfl⟩
  case pop =>
    intro s q hq hl
    exact ⟨_, exec_nqPop hq hl true, agrees_nqRead_pop s q⟩

/-- After a pop COUNT shows the entries that remain. -/
theorem getF_nqRead_pop_count {s : State} {q : Nat} {e : NqEntry} {rest : List NqEntry} (hagree : (nqOf s q).Agrees)
    (h : (nqOf s q).ents = e :: rest) :
    getF (nqRead s q true true) (Reg.nqStatusCount q) = rest.length % 2 ^ (Reg.nqStatusCount q).w := by
  have hcheck := nqCheck_of_agrees hagree
  rw [nqRead_pop_of_cons (by rw [hcheck]; exact h)]
  exact getF_setNq_count ..

/-- The link is up, and queue 0 holds one notification, as its COUNT of 1 shows. -/
def oneEntryQueued : State :=
  setNq { mgmt.linkUp := true } 0
    { ents := [⟨1, 0, .notif { seq := 1, src := srcLog, ev := .restart, unit := noUnit }⟩], wrA := 1, wrB := 1 }

/-- Refutes O24: its first clause asks for `t.regs = s.regs`, but a pop lowers NQ_STATUSn.COUNT, here from 1 to 0. -/
theorem not_queueWindows : ¬ Obligations.QueueWindows := by
  rintro ⟨hpop, -⟩
  have hagree : (nqOf oneEntryQueued 0).Agrees := ⟨rfl, rfl⟩
  obtain ⟨t, hexec, -, -, -, -, hregs⟩ := hpop oneEntryQueued 0 _ [] (by decide) rfl rfl rfl rfl
  rw [exec_nqPop (by decide) rfl] at hexec
  injection hexec with ht
  have hafter : getF t (Reg.nqStatusCount 0) = 0 := by
    rw [← ht, getF_commit, getF_nqRead_pop_count hagree rfl]
    rfl
  have hbefore : getF oneEntryQueued (Reg.nqStatusCount 0) = 1 := rfl
  rw [getF_of_regs hregs, hbefore] at hafter
  exact absurd hafter (by decide)

end Sys2Proof.Machine
end

section
/-! PROOFS. The write grant (R474): the checks of a request in their order, and the ends of a grant. -/

namespace Sys2Proof.Machine

theorem exec_eq_execMbxGrantGo (s : State) : exec .mbxGrantGo s = execMbxGrantGo s := rfl
theorem exec_eq_execMbxGrantDrop (s : State) : exec .mbxGrantDrop s = execMbxGrantDrop s := rfl
theorem exec_eq_execGrantExpiry (s : State) : exec .grantExpiry s = execGrantExpiry s := rfl
theorem exec_eq_execPcieLinkReset (s : State) : exec .pcieLinkReset s = execPcieLinkReset s := rfl
theorem exec_eq_execMpPerstN (high : Bool) (s : State) : exec (.mpPerstN high) s = execMpPerstN high s := rfl

@[simp] theorem grantLevel_commit (s t : State) : grantLevel (commit s t) = grantLevel t := rfl

/-! ## The checks of a request -/

/-- The first check of R474 passes: level, duration and reserved bytes of the request are in order. -/
def GrantReqOk (b : Bytes) : Prop :=
  1 ≤ le b 0 1 ∧ le b 0 1 ≤ 3 ∧ 1 ≤ le b 2 2 ∧ le b 2 2 ≤ 3600 ∧
    notZero b 1 2 ++ notZero b 4 8 ++ notZero b 48 64 = []

/-- The request that GO finds in the window. -/
abbrev grantReq (s : State) : Bytes := bfit s.mgmt.grantReq 64

/-- The key that the request needs is set, and its HMAC is that key's (the second and third check of R474). -/
def GrantSigned (s : State) (k : Bytes) : Prop :=
  keyFor s true 0 (le (grantReq s) 0 1) = some k ∧ hmac k ((grantReq s).take 16) = bsub (grantReq s) 16 32

/-- The part with the request's freshness value recorded, if the value passes the last check of R474. -/
abbrev grantFresh (s : State) : Option State :=
  freshTake s (freshKey true 0 (le (grantReq s) 0 1)) (le (grantReq s) 8 8)

/-- The grant that the request of bytes `b` asks for is in force. -/
def granted (s : State) (b : Bytes) : State :=
  setF (setF { s with mgmt.grantEnd := s.timebase + sec (le b 2 2) } Reg.mbxGrantStatusResult 1)
    Reg.mbxGrantStatusLevel (le b 0 1)

theorem exec_mbxGrantGo {s : State} (hl : s.mgmt.linkUp = true) :
    exec .mbxGrantGo s = .next (commit s (grantGo s)) := by
  rw [exec_eq_execMbxGrantGo, execMbxGrantGo, onWindow_of_linkUp hl, needs_true]

/-- GO refuses with RESULT 2 exactly the requests that fail the first check. -/
theorem grantReqOk_iff (b : Bytes) : GrantReqOk b ↔
    ¬ (le b 0 1 = 0 ∨ 3 < le b 0 1 ∨ le b 2 2 = 0 ∨ 3600 < le b 2 2 ∨
      notZero b 1 2 ++ notZero b 4 8 ++ notZero b 48 64 ≠ []) := by
  simp only [GrantReqOk, not_or, not_not, Nat.not_lt, Nat.one_le_iff_ne_zero, ne_eq]

theorem grantGo_malformed {s : State} (h : ¬ GrantReqOk (grantReq s)) :
    grantGo s = setF s Reg.mbxGrantStatusResult 2 :=
  if_pos (not_not.mp (mt (grantReqOk_iff _).mpr h))

section
variable {s : State} {k : Bytes} (hok : GrantReqOk (grantReq s))
include hok

theorem grantGo_noKey (hkey : keyFor s true 0 (le (grantReq s) 0 1) = none) :
    grantGo s = setF s Reg.mbxGrantStatusResult 3 := by
  refine (if_neg ((grantReqOk_iff _).mp hok)).trans ?_
  simp only [hkey]

theorem grantGo_badHmac (hkey : keyFor s true 0 (le (grantReq s) 0 1) = some k)
    (hsig : hmac k ((grantReq s).take 16) ≠ bsub (grantReq s) 16 32) :
    grantGo s = setF s Reg.mbxGrantStatusResult 4 := by
  refine (if_neg ((grantReqOk_iff _).mp hok)).trans ?_
  simp only [hkey, if_pos hsig]

variable (hsigned : GrantSigned s k)
include hsigned

theorem grantGo_stale (hfresh : grantFresh s = none) : grantGo s = setF s Reg.mbxGrantStatusResult 5 := by
  obtain ⟨hkey, hsig⟩ := hsigned
  refine (if_neg ((grantReqOk_iff _).mp hok)).trans ?_
  simp only [hkey, hsig, ne_eq, not_true_eq_false, ↓reduceIte, hfresh]

theorem grantGo_passes {s' : State} (hfresh : grantFresh s = some s') : grantGo s = granted s' (grantReq s) := by
  obtain ⟨hkey, hsig⟩ := hsigned
  refine (if_neg ((grantReqOk_iff _).mp hok)).trans ?_
  simp only [hkey, hsig, ne_eq, not_true_eq_false, ↓reduceIte, hfresh]
  rfl

end

/-- Taking a value changes the record of freshness and nothing else (R390). -/
theorem freshTake_frame {s s' : State} {k v : Nat} (h : freshTake s k v = some s') :
    ∃ fresh, s' = { s with cmd.fresh := fresh } := by
  simp only [freshTake] at h
  split at h
  case isTrue => cases h
  case isFalse =>
    split at h
    case h_1 => cases h; exact ⟨_, rfl⟩
    case h_2 =>
      split at h
      case isTrue => cases h; exact ⟨_, rfl⟩
      case isFalse =>
        split at h <;> cases h
        exact ⟨_, rfl⟩

/-! ## The grant in force and its ends -/

section
variable {b : Bytes} (hok : GrantReqOk b)
include hok

theorem level_granted (s : State) : getF (granted s b) Reg.mbxGrantStatusLevel = le b 0 1 := by
  obtain ⟨-, hlevel, -⟩ := hok
  exact (getF_setF_same ..).trans (Nat.mod_eq_of_lt (Nat.lt_succ_of_le hlevel))

theorem grantLevel_granted (s : State) : grantLevel (granted s b) = le b 0 1 := by
  have hend : (granted s b).timebase < (granted s b).mgmt.grantEnd := by
    obtain ⟨-, -, hsecs, -⟩ := hok
    simp only [granted, setF_timebase, setF_mgmt, sec]
    omega
  exact (grantLevel_of_lt hend).trans (level_granted hok s)

end

theorem grantEnd_granted (s : State) (b : Bytes) : (granted s b).mgmt.grantEnd = s.timebase + sec (le b 2 2) := by
  simp only [granted, setF_mgmt]

theorem result_granted (s : State) (b : Bytes) : getF (granted s b) Reg.mbxGrantStatusResult = 1 :=
  (getF_setF_ne _ _ _ _ (by decide)).trans (getF_setF_same ..)

theorem grantLevel_grantDrop (s : State) : grantLevel (grantDrop s) = 0 := grantLevel_of_grantEnd_zero rfl

theorem level_grantDrop (s : State) : getF (grantDrop s) Reg.mbxGrantStatusLevel = 0 := getF_setF_same ..

theorem exec_grantExpiry {s : State} (h : getF s Reg.mbxGrantStatusLevel ≠ 0) :
    exec .grantExpiry s = .next (commit s (grantDrop (reach s s.mgmt.grantEnd))) := by
  rw [exec_eq_execGrantExpiry, execGrantExpiry, if_neg h, needs_true]

theorem exec_mbxGrantDrop {s : State} (hl : s.mgmt.linkUp = true) :
    exec .mbxGrantDrop s = .next (commit s (grantDrop s)) := by
  rw [exec_eq_execMbxGrantDrop, execMbxGrantDrop, onWindow_of_linkUp hl, needs_true]

theorem exec_pcieLinkReset {s : State} (hl : s.mgmt.linkUp = true) :
    exec .pcieLinkReset s = .next (commit s (endpointReset (logEv s srcMgmt .mgmtLinkDown noUnit []))) := by
  rw [exec_eq_execPcieLinkReset, execPcieLinkReset, if_pos hl, needs_true]

/-- PERST# falling takes a link that is up down; rising, it resets the endpoint: either edge ends the grant (R467). -/
theorem exec_mpPerstN_edge {s : State} (hl : s.mgmt.linkUp = true) :
    ∃ u, exec (.mpPerstN (! s.pins.perstN)) s = .next u ∧ grantLevel u = 0 := by
  refine ⟨_, by rw [exec_eq_execMpPerstN, execMpPerstN, needs_true], ?_⟩
  rw [grantLevel_commit]
  cases hp : s.pins.perstN with
  | true =>
    simp only [hl, Bool.not_true, Bool.false_eq_true, ↓reduceIte]
    exact grantLevel_grantDrop _
  | false =>
    simp only [Bool.not_false, Bool.true_eq_false, ↓reduceIte]
    exact grantLevel_of_grantEnd_zero rfl

theorem grantLevel_deviceReset (s : State) (cause : Nat) : grantLevel (deviceReset s cause) = 0 := by
  obtain ⟨r, hr, -, -, hgrant, -⟩ := deviceReset_eq s cause
  rw [hr]
  exact grantLevel_of_grantEnd_zero hgrant

/-! ## The statement -/

/-- Settles O22: the checks by one lemma for each result of GO, the ends by `grantDrop` and by the device reset. -/
theorem writeGrant : Obligations.WriteGrant := by
  refine ⟨?malformed, ?noKey, ?badHmac, ?stale, ?passes, ?expires, ?dropped, ?linkDown, grantLevel_deviceReset⟩
  case malformed =>
    rintro s b hl rfl hbad
    rw [exec_mbxGrantGo hl, grantGo_malformed fun hok => (grantReqOk_iff _).mp hok hbad]
  case noKey =>
    rintro s b hl rfl hlow hhigh hpos hlong hres hkey
    rw [exec_mbxGrantGo hl, grantGo_noKey ⟨hlow, hhigh, hpos, hlong, hres⟩ hkey]
  case badHmac =>
    rintro s k b hl rfl hlow hhigh hpos hlong hres hkey hsig
    rw [exec_mbxGrantGo hl, grantGo_badHmac ⟨hlow, hhigh, hpos, hlong, hres⟩ hkey hsig]
  case stale =>
    rintro s k b hl rfl hlow hhigh hpos hlong hres hkey hsig hfresh
    rw [exec_mbxGrantGo hl, grantGo_stale ⟨hlow, hhigh, hpos, hlong, hres⟩ ⟨hkey, hsig⟩ hfresh]
  case passes =>
    rintro s s' k b hl rfl hlow hhigh hpos hlong hres hkey hsig hfresh
    have hok : GrantReqOk (grantReq s) := ⟨hlow, hhigh, hpos, hlong, hres⟩
    refine ⟨_, by rw [exec_mbxGrantGo hl, grantGo_passes hok ⟨hkey, hsig⟩ hfresh], ?_⟩
    obtain ⟨fresh, rfl⟩ := freshTake_frame hfresh
    exact ⟨level_granted hok _, result_granted _ _, grantEnd_granted _ _,
      (grantLevel_commit ..).trans (grantLevel_granted hok _), rfl, rfl⟩
  case expires =>
    intro s hlevel
    exact ⟨_, exec_grantExpiry hlevel, grantLevel_grantDrop _, level_grantDrop _, Nat.le_max_right ..⟩
  case dropped =>
    intro s hl
    exact ⟨_, exec_mbxGrantDrop hl, grantLevel_grantDrop _, level_grantDrop _⟩
  case linkDown =>
    intro s hl
    obtain ⟨u, hu, hlevel⟩ := exec_mpPerstN_edge hl
    exact ⟨_, u, exec_pcieLinkReset hl, grantLevel_grantDrop _, hu, hlevel⟩

end Sys2Proof.Machine
end

section
/-! PROOFS. The step: what every command keeps (R127, R270), the queue's order, and the state after reset. -/

namespace Sys2Proof.Machine

/-! ## One step -/

/-- Settles O1: `step` is `exec` of the front, by definition. -/
theorem stepRunsFrontCommand : Obligations.StepRunsFrontCommand := fun _ _ _ => rfl

/-- A part whose guides have nothing to reload by is not changed by looking for one that is ready. -/
theorem guidesReady_of_none {s : State} (h : ∀ x ∈ s.ladder.fns, x.2.until_ = none) : guidesReady s = s := by
  unfold guidesReady
  rw [List.filter_eq_nil_iff.mpr fun x hx => by simp [h x hx]]
  rfl

theorem orderlyCheck_of_ne_stopping {s : State} (h : seqState s ≠ stStopping) : orderlyCheck s = s := by
  simp [orderlyCheck, h]

/-- Settles O2: a next state is a committed one (`step_next`), and the idle tick's two checks find nothing due. -/
theorem queueOrder : Obligations.QueueOrder := by
  refine ⟨?front, ?idle⟩
  case front =>
    intro s t h
    obtain ⟨u, rfl⟩ := step_next h
    rfl
  case idle =>
    intro s hempty hstop hnone
    have htick : idleTick s = commit s { s with timebase := s.timebase + 1 } := by
      rw [idleTick, guidesReady_of_none (s := { s with timebase := s.timebase + 1 }) hnone,
        orderlyCheck_of_ne_stopping (s := { s with timebase := s.timebase + 1 }) hstop]
    simp [step, hempty, htick]

/-- Settles O3: by the outcome of `needs`, which every arm of `exec` ends in. -/
theorem everyCommandSettles : Obligations.EveryCommandSettles := by
  intro c s
  rcases exec_settles c s with ⟨hwf, u, hu⟩ | ⟨hwf, hu⟩
  · exact ⟨fun _ => ⟨_, hu, rfl⟩, fun h => by simp [hwf] at h⟩
  · exact ⟨fun h => by simp [hwf] at h, fun _ => hu⟩

/-- Settles O4: `commit` puts the range into its one form. -/
theorem rangeFormKept : Obligations.RangeFormKept := by
  intro s t _ h
  obtain ⟨u, rfl⟩ := step_next h
  exact memCanon_wf _

/-! ## Fuses over a run -/

theorem FusesKept.refl (s : State) : FusesKept s s := fun _ => Nat.le_refl _

theorem FusesKept.trans {s t u : State} (hst : FusesKept s t) (htu : FusesKept t u) : FusesKept s u :=
  fun k => Nat.le_trans (hst k) (htu k)

theorem fusesKept_step {s t : State} (h : step s = .next t) : FusesKept s t := by
  obtain ⟨u, rfl⟩ := step_next h
  exact fun k => tcnt_fuseKeep s.fuse u.fuse k

/-- Settles O5: by induction on the number of steps; each step keeps the fuses (`fusesKept_step`). -/
theorem fusesOnlyRise : Obligations.FusesOnlyRise := by
  intro n
  induction n with
  | zero =>
    rintro s t ⟨⟩
    exact .refl s
  | succ n ih =>
    intro s t h
    cases hcore : Sys2Proof.core.step s with
    | next u =>
      have hstep : step s = .next u := hcore
      have hrun : Sys2Proof.core.run n u = .next t := by simpa only [Host.Core.run, hcore] using h
      exact (fusesKept_step hstep).trans (ih u t hrun)
    | fault r | refused r => simp only [Host.Core.run, hcore, reduceCtorEq] at h

/-! ## Reset -/

/-- Settles O6: no register is listed after reset; the field tables are finite. -/
theorem resetState : Obligations.ResetState := by
  refine ⟨fun _ => rfl, ?table, rfl, rfl, rfl, rfl, rfl, rfl, rfl⟩
  case table => decide +kernel

end Sys2Proof.Machine
end

section
/-! PROOFS. Values of the atomics (R100), bytes placed in the range (R96, R127), and freshness values (R390). -/

namespace Sys2Proof.Machine

/-! ## Bytes placed in the range -/

theorem memPut_wf (m : List Host.Cell) (a : Nat) (d : Bytes) (h : Memory.wf m = true) :
    Memory.wf (memPut m a d) = true := by
  induction d generalizing m a with
  | nil => exact h
  | cons b d ih => exact ih _ _ (memSet_wf m a b h)

theorem memGet_memPut_outside (m : List Host.Cell) {a x : Nat} {d : Bytes} (h : x < a ∨ a + d.length ≤ x) :
    memGet (memPut m a d) x = memGet m x := by
  induction d generalizing m a with
  | nil => rfl
  | cons b d ih =>
    rw [List.length_cons] at h
    rw [memPut, ih _ (by omega), memGet_memSet_ne _ _ (by omega)]

theorem memRead_memPut (m : List Host.Cell) (a : Nat) (d : Bytes) (h : Memory.wf m = true) :
    memRead (memPut m a d) a d.length = d := by
  induction d generalizing m a with
  | nil => rfl
  | cons b d ih =>
    have hb : memGet (memPut (memSet m a b) (a + 1) d) a = b := by
      rw [memGet_memPut_outside _ (by omega), memGet_memSet_same _ _ _ h]
    rw [List.length_cons, memRead, memPut, hb, ih _ _ (memSet_wf m a b h)]

/-- Settles O29: the atomics by their cases, the bytes by induction over those placed. -/
theorem atomicsAndBytes : Obligations.AtomicsAndBytes := by
  refine ⟨?equal, ?differ, ?add, fun m a d h => ⟨memRead_memPut m a d h, memPut_wf m a d h⟩,
    fun m _ _ _ => memGet_memPut_outside m⟩
  case equal =>
    intro op old a b hop h
    simp [atomNew, atomWrites, hop, h]
  case differ =>
    intro op old a b hop h
    simp [atomNew, atomWrites, hop, h]
  case add =>
    intro old a b
    simp [atomNew, atomWrites]

/-! ## Freshness values -/

/-- The key `k` has taken the low half `w` of a value, and still knows it: it is the highest taken, one of those seen
within 64 of it, or further below. -/
def Spent (s : State) (k w : Nat) : Prop :=
  ∃ r, tget s.cmd.fresh k = some r ∧ (w = r.high ∨ w < r.high ∧ (w ∈ r.seen ∨ w + 64 < r.high))

/-- What taking a value leaves in its key's record: the first value, a new highest one, or one more that was seen. -/
theorem freshTake_cases {s u : State} {k v : Nat} (h : freshTake s k v = some u) :
    ∃ r', u = { s with cmd.fresh := tset s.cmd.fresh k r' } ∧
      (tget s.cmd.fresh k = none ∧ r' = ⟨v % 2 ^ 32, []⟩ ∨
       ∃ r, tget s.cmd.fresh k = some r ∧
        (r.high < v % 2 ^ 32 ∧
            r' = ⟨v % 2 ^ 32, (r.high :: r.seen).filter fun x => decide (v % 2 ^ 32 ≤ x + 64)⟩ ∨
          v % 2 ^ 32 < r.high ∧ r.high ≤ v % 2 ^ 32 + 64 ∧ v % 2 ^ 32 ∉ r.seen ∧
            r' = { r with seen := v % 2 ^ 32 :: r.seen })) := by
  simp only [freshTake] at h
  split at h
  case isTrue => cases h
  case isFalse =>
    split at h
    case h_1 hnone => cases h; exact ⟨_, rfl, .inl ⟨hnone, rfl⟩⟩
    case h_2 r hr =>
      split at h
      case isTrue hhigh => cases h; exact ⟨_, rfl, .inr ⟨r, hr, .inl ⟨hhigh, rfl⟩⟩⟩
      case isFalse =>
        split at h
        case isTrue hlow =>
          cases h
          simp only [Bool.and_eq_true, decide_eq_true_eq, Bool.not_eq_true', List.contains_eq_mem,
            decide_eq_false_iff_not] at hlow
          obtain ⟨⟨hlt, hnear⟩, hnew⟩ := hlow
          exact ⟨_, rfl, .inr ⟨r, hr, .inr ⟨hlt, hnear, hnew, rfl⟩⟩⟩
        case isFalse => cases h

/-- A value is spent once it is taken. -/
theorem spent_of_freshTake {s u : State} {k v : Nat} (h : freshTake s k v = some u) : Spent u k (v % 2 ^ 32) := by
  obtain ⟨r', rfl, hcase⟩ := freshTake_cases h
  refine ⟨r', tget_tset_same .., ?_⟩
  rcases hcase with ⟨-, rfl⟩ | ⟨r, -, ⟨-, rfl⟩ | ⟨hlt, -, -, rfl⟩⟩
  · exact .inl rfl
  · exact .inl rfl
  · exact .inr ⟨hlt, .inl List.mem_cons_self⟩

/-- Whatever else is taken, a spent value stays spent: one that leaves the list seen is then more than 64 below. -/
theorem Spent.freshTake {s u : State} {k w k' v : Nat} (hs : Spent s k w) (h : freshTake s k' v = some u) :
    Spent u k w := by
  obtain ⟨r', rfl, hcase⟩ := freshTake_cases h
  obtain ⟨r, hr, hw⟩ := hs
  by_cases hk : k = k'
  · subst hk
    refine ⟨r', tget_tset_same .., ?_⟩
    rcases hcase with ⟨hnone, -⟩ | ⟨r₀, hr₀, hcase⟩
    · simp [hr] at hnone
    · obtain rfl : r = r₀ := by simpa [hr] using hr₀
      rcases hcase with ⟨hlt, rfl⟩ | ⟨-, -, -, rfl⟩
      · have hlow : w < v % 2 ^ 32 := by omega
        refine .inr ⟨hlow, ?_⟩
        by_cases hfar : w + 64 < v % 2 ^ 32
        · exact .inr hfar
        · refine .inl (List.mem_filter.mpr ⟨?_, by simpa using hfar⟩)
          rcases hw with rfl | ⟨-, hseen | hbelow⟩
          · exact List.mem_cons_self
          · exact List.mem_cons_of_mem _ hseen
          · omega
      · exact hw.imp_right fun ⟨hlt, hw⟩ => ⟨hlt, hw.imp_left (List.mem_cons_of_mem _)⟩
  · exact ⟨r, (tget_tset_ne _ _ hk).trans hr, hw⟩

theorem Spent.foldl {s : State} {k w : Nat} (hs : Spent s k w) (l : List (Nat × Nat)) :
    Spent (l.foldl (fun s x => (Machine.freshTake s x.1 x.2).getD s) s) k w := by
  induction l generalizing s with
  | nil => exact hs
  | cons x l ih =>
    rw [List.foldl_cons]
    cases h : Machine.freshTake s x.1 x.2 with
    | none => exact ih hs
    | some u => exact ih (hs.freshTake h)

/-- A spent value is refused. -/
theorem Spent.freshTake_eq_none {s : State} {k v : Nat} (hs : Spent s k (v % 2 ^ 32)) : Machine.freshTake s k v = none := by
  refine Option.eq_none_iff_forall_ne_some.mpr fun u h => ?_
  obtain ⟨r, hr, hw⟩ := hs
  obtain ⟨r₁, -, ⟨hnone, -⟩ | ⟨r₀, hr₀, hcase⟩⟩ := freshTake_cases h
  · simp [hr] at hnone
  · obtain rfl : r = r₀ := by simpa [hr] using hr₀
    rcases hcase with ⟨hlt, -⟩ | ⟨hlt, hnear, hnew, -⟩
    · omega
    · rcases hw with hw | ⟨-, hseen | hbelow⟩
      · omega
      · exact hnew hseen
      · omega

/-- Settles O50: a value taken is spent, and stays so over every list of values taken after it. -/
theorem freshValues : Obligations.FreshValues := by
  refine ⟨?again, ?boot, ?higher, ?below⟩
  case again =>
    intro s u k v l h
    exact ((spent_of_freshTake h).foldl l).freshTake_eq_none
  case boot =>
    intro s k v h
    exact if_pos h
  case higher =>
    intro s k v r hboot hr hhigh
    simp only [freshTake, hboot, hr, hhigh, ne_eq, not_true_eq_false, ↓reduceIte, Option.isSome_some]
  case below =>
    intro s k v r hboot hr hbelow
    exact Spent.freshTake_eq_none ⟨r, hr, .inr ⟨by omega, .inr hbelow⟩⟩

end Sys2Proof.Machine
end

section
/-! PROOFS. The outcome of a well-formed command, from what its row does to the state. -/

namespace Sys2Proof.Machine

/-- A row that is well formed and makes the state into `u` answers `u`, committed. Every arm of `exec` is such a
`needs`, so the lemma applies to `exec c s` as it stands. -/
theorem needs_eq_next {b : Bool} {s t u : State} (hb : b = true) (ht : t = u) : needs b s t = .next (commit s u) := by
  rw [hb, ht, needs_true]

end Sys2Proof.Machine
end

section
/-! PROOFS. The fabric: core voltage, clocks and gated power domains (R25 to R30, R39, R40). -/

namespace Sys2Proof.Machine

/-! ## One-bit fields -/

theorem isSet_setB_same (s : State) {f : Reg.Fld} (b : Bool) (h : f.w ≠ 0) : isSet (setB s f b) f = b := by
  have hw : 1 < 2 ^ f.w := Nat.one_lt_two_pow h
  cases b <;> simp [isSet, getF_setB_same, Nat.mod_eq_of_lt hw]

theorem isSet_setB_ne (s : State) {f g : Reg.Fld} (b : Bool) (h : g.key ≠ f.key) : isSet (setB s f b) g = isSet s g := by
  simp [isSet, getF_setB_ne _ _ _ _ h]

theorem isSet_setF_ne (s : State) {f g : Reg.Fld} (v : Nat) (h : g.key ≠ f.key) : isSet (setF s f v) g = isSet s g := by
  simp [isSet, getF_setF_ne _ _ _ _ h]

theorem isSet_logEv (s : State) (n : Nat) (e : Ev) (u : Nat) (d : List Nat) (p : Bool) {f : Reg.Fld}
    (h : calm f = true) : isSet (logEv s n e u d p) f = isSet s f := by
  simp [isSet, getF_logEv _ _ _ _ _ _ h]

@[simp] theorem isSet_commit (s t : State) (f : Reg.Fld) : isSet (commit s t) f = isSet t f := rfl

/-! ## Core voltage -/

/-- A granted write of a REQ that is in range takes it, whatever REQ held before (R25). -/
theorem windowReg_fabVcore_inRange {s : State} {v : Nat} (hg : 1 ≤ grantLevel s) (hv : v ≤ 46) :
    windowReg s 0x1010 (leBytes 4 v) = vcoreTarget (offerField s Reg.fabVcoreReq v).s := by
  have hbad : (offerField s Reg.fabVcoreReq v).bad = false := by
    unfold offerField
    split
    · rfl
    · simp [hv]
  rw [windowReg_low rfl (by omega) (by decide) (putFields_fabVcore hg (by omega)) rfl (offerField_denied s _ v), hbad]
  simp [regAfter]

theorem getF_offerField_fabVcoreReq {s : State} {v : Nat} (hv : v ≤ 46) :
    getF (offerField s Reg.fabVcoreReq v).s Reg.fabVcoreReq = v := by
  have hw : v < 2 ^ Reg.fabVcoreReq.w := Nat.lt_of_le_of_lt hv (by decide)
  rw [getF_offerField_same hw, fieldOk_fabVcoreReq, decide_eq_true hv, if_pos rfl]

/-- TARGET follows the lower of request and ceiling, unless the supply holds it (R26). -/
theorem getF_vcoreTarget {s : State} (h : isSet s Reg.fabVcoreAvsFault = false) :
    getF (vcoreTarget s) Reg.fabVcoreTarget = min (getF s Reg.fabVcoreReq) (getF s Reg.fabVcoreCeil) := by
  have hlt : min (getF s Reg.fabVcoreReq) (getF s Reg.fabVcoreCeil) < 2 ^ Reg.fabVcoreTarget.w :=
    lt_of_le_of_lt (min_le_left _ _) (getF_lt s Reg.fabVcoreReq)
  have htarget : vcoreTarget s =
      avsNext (setF s Reg.fabVcoreTarget (min (getF s Reg.fabVcoreReq) (getF s Reg.fabVcoreCeil))) := by
    simp only [vcoreTarget, h, Bool.false_eq_true, if_false]
  obtain ⟨fab, hnext, -⟩ :=
    avsNext_cases (setF s Reg.fabVcoreTarget (min (getF s Reg.fabVcoreReq) (getF s Reg.fabVcoreCeil)))
  rw [htarget, hnext]
  exact (getF_setF_same ..).trans (Nat.mod_eq_of_lt hlt)

/-- A step goes at most 2 codes from what the regulator acknowledged (R27). -/
theorem avsNext_within_two {s : State} (h : s.fab.avsSent = none) {k : Nat} (hk : (avsNext s).fab.avsSent = some k) :
    k ≤ s.fab.avsAcked + 2 ∧ s.fab.avsAcked ≤ k + 2 := by
  simp only [avsNext] at hk
  split at hk
  · simp [h] at hk
  · split at hk <;> simp at hk <;> omega

theorem getF_avsNext (s : State) (f : Reg.Fld) : getF (avsNext s) f = getF s f := by
  obtain ⟨fab, h, -⟩ := avsNext_cases s
  rw [h]
  rfl

/-! ## Power domains -/

/-- A domain powers up at once when fewer than 4 did within 10 µs and no lower-numbered one waits (R40). -/
theorem powerUp_now {s : State} {d : Nat} (hups : (recentUps s).length < 4) (hq : ∀ e ∈ s.fab.wakeQ, d ≤ e) :
    powerUp s d = domStarts (setDom { s with
      fab.ups := recentUps s ++ [s.timebase], fab.wakeQ := s.fab.wakeQ.filter (· != d) } d true) d := by
  have hall : s.fab.wakeQ.all (fun e => decide (d ≤ e)) = true :=
    List.all_eq_true.mpr fun e he => decide_eq_true (hq e he)
  rw [powerUp, if_pos ⟨hups, hall⟩]

/-- Past 4 power-ups within 10 µs it waits in domain order. -/
theorem powerUp_waits {s : State} {d : Nat} (hups : 4 ≤ (recentUps s).length) (hq : d ∉ s.fab.wakeQ) :
    powerUp s d = { s with fab.wakeQ := insertBy (fun a b => decide (a ≤ b)) d s.fab.wakeQ } := by
  have hmem : s.fab.wakeQ.contains d = false := by simpa using hq
  rw [powerUp, if_neg fun ⟨hlt, _⟩ => absurd hlt (Nat.not_lt.mpr hups), hmem]
  rfl

theorem autoGated_eq_true {d : Nat} (hlo : 90 ≤ d) (hhi : d ≤ 109) : autoGated d = true := decide_eq_true ⟨hlo, hhi⟩

/-- An automatically gated domain that is off and not held off powers up when it is woken (R39). -/
theorem exec_pdWake {s : State} {d : Nat} (hlo : 90 ≤ d) (hhi : d ≤ 109) (hoff : domOn s d = false)
    (hheld : (ladFn s (fnKey 8 d)).held = false) : exec (.pdWake d) s = .next (commit s (powerUp s d)) :=
  needs_eq_next (decide_eq_true (by omega)) (by simp [autoGated_eq_true hlo hhi, hoff, hheld])

/-! ## Pitch logs -/

@[simp] theorem plogOf_plogAdd_same (s : State) (n : Nat) (e : Ev) (d : List Nat) (l : Bool) :
    plogOf (plogAdd s n e d l) n =
      if (plogOf s n).frozen then { plogOf s n with missed := satAdd (plogOf s n).missed 1 65535 }
      else ringAdd (plogOf s n) ⟨stampNow s, n, e, l, d⟩ := by
  simp [plogAdd, plogOf]

@[simp] theorem getLast?_ringAdd (l : PitchLog) (r : PitchRec) : (ringAdd l r).recs.getLast? = some r := by
  simp [ringAdd]

/-! ## The statement -/

/-- The part that has seen SYS_REFCLK go: the oscillator counts, and the loss is recorded (R30). -/
def clkLost (s : State) : State :=
  logEv (setB (setB { s with fab.refOk := false } Reg.fabTbStatusClkLoss true) Reg.fabTbStatusOsc true)
    srcFab .clkLoss noUnit []

theorem exec_sysRefclkLoss {s : State} (h : s.fab.refOk = true) :
    exec .sysRefclkLoss s =
      .next (commit s (if hasSecond (clkLost s) then departFenced (clkLost s) else clkLost s)) :=
  needs_eq_next rfl (by simp only [h, Bool.not_true, Bool.false_eq_true, if_false]; rfl)

/-- Role and state of the team are no registers of the timebase or of the logs. -/
theorem hasSecond_clkLost (s : State) : hasSecond (clkLost s) = hasSecond s := by
  have hget {f : Reg.Fld} (hc : calm f = true) (h₁ : f.key ≠ Reg.fabTbStatusOsc.key)
      (h₂ : f.key ≠ Reg.fabTbStatusClkLoss.key) : getF (clkLost s) f = getF s f := by
    rw [clkLost, getF_logEv _ _ _ _ _ _ hc, getF_setB_ne _ _ _ _ h₁, getF_setB_ne _ _ _ _ h₂]
    rfl
  simp only [hasSecond, role, team, hget (f := Reg.rlStatusRole) (by decide) (by decide) (by decide),
    hget (f := Reg.rlStatusState) (by decide) (by decide) (by decide)]

theorem isSet_clkLost_clkLoss (s : State) : isSet (clkLost s) Reg.fabTbStatusClkLoss = true := by
  rw [clkLost, isSet_logEv _ _ _ _ _ _ (by decide), isSet_setB_ne _ _ (by decide), isSet_setB_same _ _ (by decide)]

theorem isSet_clkLost_osc (s : State) : isSet (clkLost s) Reg.fabTbStatusOsc = true := by
  rw [clkLost, isSet_logEv _ _ _ _ _ _ (by decide), isSet_setB_same _ _ (by decide)]

/-- Settles O9: each clause by the outcome of its one command. -/
theorem fabricClocksAndDomains : Obligations.FabricClocksAndDomains := by
  refine ⟨?request, ?acknowledged, ?again, ?fault, ?readback, ?lossAlone, ?lossTeam, ?readbackBad, fun _ => rfl,
    ?alert, fun _ => rfl, ?gate, ?wake, ?waits, ?grant⟩
  case request =>
    intro s v hl hg hlvl hv hfault
    have hlvl' : 1 ≤ grantLevel s := by rwa [grantLevel_of_lt hg]
    have hexec : exec (.fabVcoreReqWrite 0x1010 (leBytes 4 v)) s =
        .next (commit s (vcoreTarget (offerField s Reg.fabVcoreReq v).s)) := by
      rw [exec_eq_execFabVcoreReqWrite]
      refine needs_eq_next ?wf ?effect
      case wf => simp [wfFabVcoreReqWrite]
      case effect => rw [onWindow_of_linkUp hl, windowReg_fabVcore_inRange hlvl' hv]
    refine ⟨_, hexec, ?req, ?target⟩
    case req => rw [getF_commit, getF_vcoreTarget_ne _ (by decide), getF_offerField_fabVcoreReq hv]
    case target =>
      have hfault' : isSet (offerField s Reg.fabVcoreReq v).s Reg.fabVcoreAvsFault = false := by
        rw [isSet, getF_offerField_ne _ _ (by decide)]
        exact hfault
      rw [getF_commit, getF_vcoreTarget hfault', getF_offerField_fabVcoreReq hv, getF_offerField_ne _ _ (by decide)]
  case acknowledged =>
    intro s n mv hs hmv hlo hhi
    have hexec : exec (.avsStepAck mv) s = .next (commit s (avsNext { setF s Reg.fabVcoreReadbackMv mv with
        fab.avsSent := none, fab.avsAcked := n, fab.avsTries := 0 })) :=
      needs_eq_next (decide_eq_true hmv) (by simp only [hs]; exact if_pos ⟨hlo, hhi⟩)
    refine ⟨_, hexec, avsNext_avsAcked _, ?mv, ?near⟩
    case mv =>
      rw [getF_commit, getF_avsNext]
      exact (getF_setF_same ..).trans (Nat.mod_eq_of_lt hmv)
    case near => exact fun k hk => avsNext_within_two rfl hk
  case again =>
    intro s n hs ht
    exact needs_eq_next rfl (by simp [hs, ht])
  case fault =>
    intro s n hs ht
    refine ⟨_, needs_eq_next rfl (by simp only [hs]; exact if_neg (Nat.not_lt.mpr ht)), by simp, ?_, ?_, by simp⟩
    · rw [isSet_commit, isSet_logEv _ _ _ _ _ _ (by decide), isSet_setF_ne _ _ (by decide), isSet_setB_same _ _ (by decide)]
    · rw [getF_commit, getF_logEv _ _ _ _ _ _ (by decide), getF_setF_same]
      rfl
  case readback =>
    intro s mv hlo hhi
    exact needs_eq_next (decide_eq_true (by omega)) (by simp [Nat.not_lt.mpr hlo, Nat.not_lt.mpr hhi])
  case lossAlone =>
    intro s hok hnone
    have hexec : exec .sysRefclkLoss s = .next (commit s (clkLost s)) := by
      rw [exec_sysRefclkLoss hok, hasSecond_clkLost, hnone, if_neg (by decide)]
    refine ⟨_, hexec, by simp [clkLost],
      isSet_clkLost_clkLoss s, isSet_clkLost_osc s, fun a => ?_, by simp [clkLost], by simp [clkLost]⟩
    exact (memGet_memCanon _ a).trans (by simp [clkLost])
  case lossTeam =>
    intro s hok hsome u
    have hu : hasSecond u = true := (hasSecond_clkLost s).trans hsome
    exact ⟨hu, (exec_sysRefclkLoss hok).trans (by rw [show clkLost s = u from rfl, if_pos hu])⟩
  case readbackBad =>
    intro s mv hwf hout
    refine needs_eq_next hwf ?_
    by_cases hlow : mv < 600
    · simp [hlow]
    · simp [hlow, hout.resolve_left hlow]
  case alert =>
    intro s
    refine ⟨_, rfl, rfl, fun hf => ?_, fun hf => ?_⟩ <;>
      rw [show plogOf (commit s (pitchEv s srcFab .pmbAlert)) srcFab = plogOf (pitchEv s srcFab .pmbAlert) srcFab from rfl,
        pitchEv, plogOf_plogAdd_same, hf]
    · exact getLast?_ringAdd ..
    · rfl
  case gate =>
    intro s d hlo hhi hidle hon hbusy
    exact needs_eq_next (decide_eq_true (by omega)) (by simp [autoGated_eq_true hlo hhi, hidle, hon, hbusy])
  case wake =>
    intro s d hlo hhi hoff hheld hups hq
    rw [exec_pdWake hlo hhi hoff hheld, powerUp_now hups hq]
  case waits =>
    intro s d hlo hhi hoff hheld hq hups
    rw [exec_pdWake hlo hhi hoff hheld, powerUp_waits hups hq]
  case grant =>
    intro s d q hlo hhi hs hq hups
    have hle : ∀ e ∈ s.fab.wakeQ, d ≤ e := by
      rw [hs]
      exact List.forall_mem_cons.mpr ⟨Nat.le_refl d, hq⟩
    refine needs_eq_next (decide_eq_true (by omega)) ?_
    simp only [hs, ↓reduceIte, powerUp_now hups hle]

end Sys2Proof.Machine
end

section
/-! PROOFS. Stopping, hold-up and the always-on domain (R343 to R363). -/

namespace Sys2Proof.Machine

/-! ## What departure sends -/

/-- A frame on the rope touches the instances and the crossings' queues alone. -/
theorem ropeSendOn_frame (s : State) (i : Nat) (seqd : Bool) (body : RopeBody) :
    ∃ inst fifo, ropeSendOn s i seqd body = { s with rope.inst := inst, port.fifo := fifo } := ⟨_, _, rfl⟩

theorem ropeSendAll_frame (s : State) (seqd : Bool) (body : RopeBody) :
    ∃ inst fifo, ropeSendAll s seqd body = { s with rope.inst := inst, port.fifo := fifo } := by
  have hone (s : State) (i : Nat) : ∃ inst fifo,
      (if (ropeInst s i).up then ropeSendOn s i seqd body else s) = { s with rope.inst := inst, port.fifo := fifo } := by
    split
    · exact ropeSendOn_frame s i seqd body
    · exact ⟨_, _, rfl⟩
  obtain ⟨inst₀, fifo₀, h₀⟩ := hone s 0
  obtain ⟨inst₁, fifo₁, h₁⟩ := hone { s with rope.inst := inst₀, port.fifo := fifo₀ } 1
  refine ⟨inst₁, fifo₁, ?_⟩
  rw [ropeSendAll, List.foldl_cons, List.foldl_cons, List.foldl_nil, h₀, h₁]

/-- A departure that is not the second one of its instant sends the word three times (R435). -/
theorem departNow_frame {s : State} (h : s.rope.departAt ≠ some s.timebase) :
    ∃ plog inst fifo, departNow s = { s with
      pins.belayOut := s.pins.belayOut ++ List.replicate 3 (belayWord belayDepart s.pins.twinId s.rope.renewSeq),
      rope.departAt := some s.timebase, plog := plog, rope.inst := inst, port.fifo := fifo } := by
  obtain ⟨inst, fifo, hsend⟩ := ropeSendAll_frame (pitchEv { s with
      pins.belayOut := s.pins.belayOut ++ List.replicate 3 (belayWord belayDepart s.pins.twinId s.rope.renewSeq),
      rope.departAt := some s.timebase } srcRope .departureSent [s.rope.renewSeq]) true (.control .depart)
  exact ⟨_, inst, fifo, (if_neg h).trans hsend⟩

theorem departNow_again {s : State} (h : s.rope.departAt = some s.timebase) : departNow s = s := if_pos h

/-- What a Lead is when it has fenced (Table 11-8, step 4). -/
theorem fenceLead_of_lead {s : State} (h : role s = roleLead) :
    role (fenceLead s) = roleFenced ∧ team (fenceLead s) = teamFenced ∧
      (fenceLead s).rope = { s.rope with fenced := true, renewAt := [], leaseEnd := none } ∧
      (fenceLead s).pins = s.pins ∧ (fenceLead s).timebase = s.timebase ∧ (fenceLead s).port = s.port := by
  simp only [fenceLead, h, beq_self_eq_true, ↓reduceIte]
  refine ⟨?role, ?team, by simp [setTeam, setRole], by simp [setTeam, setRole], by simp [setTeam, setRole],
    by simp [setTeam, setRole]⟩
  case role =>
    rw [role, getF_logEv _ _ _ _ _ _ (by decide), setTeam, getF_setF_ne _ _ _ _ (by decide), setRole, getF_setF_same]
    rfl
  case team =>
    rw [team, getF_logEv _ _ _ _ _ _ (by decide), setTeam, getF_setF_same]
    rfl

/-! ## Registers written whole -/

theorem off_of_mem_fieldsAt {f : Reg.Fld} {off : Nat} (h : f ∈ Reg.fieldsAt off) : f.off = off := by
  obtain ⟨d, -, hd⟩ := List.mem_filterMap.mp h
  unfold Reg.FldD.instAt at hd
  split at hd
  · split at hd <;> cases hd
    simpa [Reg.FldD.at] using Eq.symm ‹off = d.base›
  · split at hd
    · cases hd
      obtain ⟨hle, hmod, -⟩ := ‹d.base ≤ off ∧ _›
      have hdiv := Nat.div_add_mod (off - d.base) d.stride
      simp only [Reg.FldD.at]
      omega
    · cases hd

/-- Writing fields changes the registers alone, and of these only the fields written. -/
theorem foldl_setF_frame (l : List Reg.Fld) (v : Reg.Fld → Nat) (s : State) :
    ∃ regs, l.foldl (fun s f => setF s f (v f)) s = { s with regs := regs } ∧
      ∀ g : Reg.Fld, (∀ f ∈ l, g.key ≠ f.key) → getF { s with regs := regs } g = getF s g := by
  induction l generalizing s with
  | nil => exact ⟨s.regs, rfl, fun _ _ => rfl⟩
  | cons f l ih =>
    obtain ⟨regs, hfold, hget⟩ := ih (setF s f (v f))
    refine ⟨regs, hfold, fun g hg => ?_⟩
    obtain ⟨hf, hl⟩ := List.forall_mem_cons.mp hg
    exact (hget g hl).trans (getF_setF_ne _ _ _ _ hf)

/-- Loading a word changes no register below it. -/
theorem loadWord_frame (s : State) (off v : Nat) : ∃ regs, loadWord s off v = { s with regs := regs } ∧
    ∀ g : Reg.Fld, g.key / 64 < off → getF { s with regs := regs } g = getF s g := by
  obtain ⟨regs, hfold, hget⟩ := foldl_setF_frame (Reg.fieldsAt off) (fun f => bits v f.lo f.w) s
  refine ⟨regs, hfold, fun g hg => hget g fun f hf hkey => ?_⟩
  rw [hkey, Reg.Fld.key, off_of_mem_fieldsAt hf] at hg
  omega

/-- Loading a run of words changes no register below it. -/
theorem foldl_loadWord_frame (base : Nat) (v : State → Nat → Nat) (l : List Nat) (s : State) :
    ∃ regs, l.foldl (fun s n => loadWord s (base + 8 * n) (v s n)) s = { s with regs := regs } ∧
      ∀ g : Reg.Fld, g.key / 64 < base → getF { s with regs := regs } g = getF s g := by
  induction l generalizing s with
  | nil => exact ⟨s.regs, rfl, fun _ _ => rfl⟩
  | cons n l ih =>
    obtain ⟨regs₁, hone, hget₁⟩ := loadWord_frame s (base + 8 * n) (v s n)
    obtain ⟨regs₂, hrest, hget₂⟩ := ih { s with regs := regs₁ }
    refine ⟨regs₂, by rw [List.foldl_cons, hone, hrest], fun g hg => ?_⟩
    exact (hget₂ g hg).trans (hget₁ g (by omega))

/-! ## PD0 -/

/-- The fuses are loaded into the rail table, the monitors and SEQ_CFG (R344): STATE is not theirs, AUTO_ON is. -/
theorem loadFuses_frame (s : State) : ∃ regs, loadFuses s = { s with regs := regs } ∧
    seqState { s with regs := regs } = seqState s ∧
    isSet { s with regs := regs } Reg.seqCfgAutoOn = bit (tcnt s.fuse 64) 0 := by
  obtain ⟨regs₁, h₁, hget₁⟩ := foldl_loadWord_frame 0x50100 (fun s n => tcnt s.fuse n) (List.range 24) s
  obtain ⟨regs₂, h₂, hget₂⟩ := foldl_loadWord_frame 0x50200 (fun s n => tcnt s.fuse (32 + n)) (List.range 32)
    { s with regs := regs₁ }
  simp only [loadFuses, h₁, h₂]
  refine ⟨_, rfl, ?state, ?auto⟩
  case state =>
    have hkey : Reg.seqStatusState.key / 64 = 0x50008 := by decide
    have hstate : seqState { s with regs := regs₂ } = seqState s :=
      (hget₂ _ (by omega)).trans (hget₁ _ (by omega))
    refine Eq.trans ?_ hstate
    exact (getF_setF_ne _ _ _ _ (by decide)).trans ((getF_setF_ne _ _ _ _ (by decide)).trans
      ((getF_setB_ne _ _ _ _ (by decide)).trans (getF_setB_ne _ _ _ _ (by decide))))
  case auto =>
    exact (isSet_setF_ne _ _ (by decide)).trans ((isSet_setF_ne _ _ (by decide)).trans
      ((isSet_setB_ne _ _ (by decide)).trans (isSet_setB_same _ _ (by decide))))

/-- Of its registers PD0 keeps through the loss of its supply only how power-good and hold-up read (R343). -/
theorem getF_pd0Lost (s : State) {f : Reg.Fld} (h₁ : f.key ≠ Reg.seqStatusPgState.key)
    (h₂ : f.key ≠ Reg.seqStatusHoldupOk.key) : getF (pd0Lost s) f = f.reset % 2 ^ f.w := by
  rw [pd0Lost, getF_setF_ne _ _ _ _ h₁, getF_setB_ne _ _ _ _ h₂]
  rfl

/-! ## A start that waits -/

theorem startIfDue_of_due {s : State} (hp : s.seq.startPending = true) (hv : isSet s Reg.seqStatusVinGood = true)
    (hs : getF s Reg.fabStartStatusStage ≠ 1) : startIfDue s = startRails s := by
  simp [startIfDue, hp, hv, hs]

/-- Settles O15: loss and return of PD0 by `getF_pd0Lost` and `loadFuses_frame`, the departure by its frame. -/
theorem alwaysOnAndRestart : Obligations.AlwaysOnAndRestart := by
  refine ⟨?lost, ?powered, ?vin, ?departs, ?again, ?restart⟩
  case lost =>
    intro s
    refine ⟨_, rfl, ?_, fun k => tcnt_fuseKeep _ _ k, rfl, rfl⟩
    rw [getF_commit, getF_pd0Lost s (by decide) (by decide)]
    rfl
  case powered =>
    intro s
    obtain ⟨regs, hload, hstate, hauto⟩ := loadFuses_frame (pd0Lost s)
    have hoff : seqState { pd0Lost s with regs := regs } = stOff :=
      hstate.trans (getF_pd0Lost s (by decide) (by decide))
    have hexec : exec .pd0PowerUp s = .next (commit s
        (if bit (tcnt s.fuse 64) 0 then { { pd0Lost s with regs := regs } with seq.startPending := true }
         else { pd0Lost s with regs := regs })) :=
      needs_eq_next rfl (by simp only [hload, hauto]; rfl)
    refine ⟨_, hexec, ?_⟩
    cases bit (tcnt s.fuse 64) 0
    · exact ⟨rfl, hoff, rfl⟩
    · exact ⟨rfl, hoff, rfl⟩
  case vin =>
    intro s hp hs
    refine needs_eq_next rfl (startIfDue_of_due hp (isSet_setB_same _ _ (by decide)) ?_)
    rwa [getF_setB_ne _ _ _ _ (by decide)]
  case departs =>
    intro s hlead hat
    obtain ⟨hrole, -, hrope, hpins, htime, -⟩ := fenceLead_of_lead hlead
    have hat' : (fenceLead s).rope.departAt ≠ some (fenceLead s).timebase := by rwa [hrope, htime]
    obtain ⟨plog, inst, fifo, hdep⟩ := departNow_frame hat'
    refine ⟨_, needs_eq_next rfl hdep, hrole, ?fenced, ?word⟩
    case fenced => exact congrArg (·.fenced) hrope
    case word => rw [commit_pins, hpins, hrope]
  case again =>
    intro s hat
    refine needs_eq_next rfl (departNow_again ?_)
    unfold fenceLead
    split
    · simpa [setTeam, setRole] using hat
    · exact hat
  case restart =>
    intro s b hb
    exact needs_eq_next rfl (by simp only [hb])

/-! ## Stopping and hold-up -/

/-- Settles O11: each clause by the branch of its row. -/
theorem stoppingAndHoldUp : Obligations.StoppingAndHoldUp := by
  refine ⟨?grace, ?discharged, ?lastDischarged, ?timedOut, ?step, ?energy, ?bivStep, ?fall, ?restored, ?wait⟩
  case grace =>
    intro s g hg hst
    exact needs_eq_next rfl (by simp only [hg, hst, beq_self_eq_true, if_true])
  case discharged =>
    intro s r a d hr har hdown hpace hlist hdis
    refine needs_eq_next (decide_eq_true hr) ?_
    simp [hdown, hpace, hlist, hdis, har]
  case lastDischarged =>
    intro s r d hr hdown hpace hlist hdis
    refine needs_eq_next (decide_eq_true hr) ?_
    simp [hdown, hpace, hlist, hdis]
  case timedOut =>
    intro s r d hr hdown hpace hlist hdis u
    refine needs_eq_next (decide_eq_true hr) ?_
    have hu : u.seq.discharging = [r] := by simp [u, hlist]
    simp [hdown, hpace, hlist, hdis, u]
  case step =>
    intro s d t hdown hdelay hpace
    exact needs_eq_next rfl (by simp only [hdown, hdelay, hpace, if_true])
  case energy =>
    intro s hst
    refine ⟨needs_eq_next rfl (by simp [hst]), ?_⟩
    simp [railOn, bitF, bit]
  case bivStep =>
    intro s hst hlt
    refine ⟨_, needs_eq_next rfl (by rw [hst, beq_self_eq_true, if_pos rfl, if_neg (Nat.ne_of_lt hlt)]), rfl⟩
  case fall =>
    intro s hok hopen hst hbud
    refine needs_eq_next rfl ?_
    have hopen' : serviceOpen (setB s Reg.seqStatusHoldupOk false) = true :=
      (congrArg (· == 12) (getF_setB_ne _ _ _ _ (by decide))).trans hopen
    have hst' : seqState (setB s Reg.seqStatusHoldupOk false) = stService :=
      (getF_setB_ne _ _ _ _ (by decide)).trans hst
    have hbud' : budgetGib (setB s Reg.seqStatusHoldupOk false) = budgetGib s := getF_setB_ne _ _ _ _ (by decide)
    simp [hok, hopen', hst', hbud', hbud]
  case restored =>
    intro s
    refine ⟨_, rfl, ?_, ?_, rfl⟩
    · rw [isSet_commit, isSet_setB_ne (f := Reg.seqStatusWriteThrough) _ _ (by decide)]
      exact isSet_setB_same _ _ (by decide)
    · rw [isSet_commit]
      exact isSet_setB_same _ _ (by decide)
  case wait =>
    intro s hstage hwait
    refine ⟨_, needs_eq_next rfl (if_pos ⟨hstage, hwait⟩), ?_, ?_⟩
    · rw [getF_commit, getF_logEv _ _ _ _ _ _ (by decide), hstage]
    · rw [getF_commit, getF_logEv _ _ _ _ _ _ (by decide), hwait]

end Sys2Proof.Machine
end

section
/-! PROOFS. What the sending of messages leaves alone: the registers but the log's, the queues', PFC_TX and RL_INDEX, and
every part of the state that neither a packet, a frame nor a record touches. -/

namespace Sys2Proof.Machine

/-! ## The view -/

/-- A field that no packet, frame or record touches. A sub-port's number has no bound in the model, so the words from
HP_PORT_STATUS on where PFC_TX of a sub-port that the part does not have would stand are left out. -/
def quiet (f : Reg.Fld) : Bool :=
  calm f && f.key != Reg.rlIndexIndex.key && (decide (f.key / 64 < 0xc1000) || f.key % 64 != 32 || f.key / 64 % 256 != 0)

/-- The state without what sending changes. -/
def sendCore (s : State) : State :=
  { s with
    regs := [], log := {}, plog := [], nq := [], mgmt := {}, conns := [], key.slots := [], port.fifo := [], port.occ := [],
    port.xoff := [], port.globalXoff := false, port.egressUsed := 0, port.mgmtUsed := 0, rope.inst := [],
    rope.index := 0, rope.held := [], rope.sent := [], rope.release := 0 }

/-- What sending leaves: the quiet fields and the rest of the state. -/
def sendView (s : State) : State × (Reg.Fld → Nat) := (sendCore s, fun f => if quiet f then getF s f else 0)

theorem getF_of_sendView {s t : State} (h : sendView t = sendView s) {f : Reg.Fld} (hf : quiet f = true) :
    getF t f = getF s f := by
  simpa [sendView, hf] using congrFun (congrArg Prod.snd h) f

theorem sendCore_of_sendView {s t : State} (h : sendView t = sendView s) : sendCore t = sendCore s :=
  congrArg Prod.fst h

theorem sendView_ext {s t : State} (hcore : sendCore t = sendCore s)
    (hget : ∀ f, quiet f = true → getF t f = getF s f) : sendView t = sendView s := by
  refine Prod.ext hcore (funext fun f => ?_)
  by_cases hf : quiet f = true
  · simpa [sendView, hf] using hget f hf
  · simp [sendView, hf]

theorem calm_of_quiet {f : Reg.Fld} (h : quiet f = true) : calm f = true := by
  simp only [quiet, Bool.and_eq_true] at h
  exact h.1.1

theorem ne_rlIndexIndex_of_quiet {f : Reg.Fld} (h : quiet f = true) : f.key ≠ Reg.rlIndexIndex.key := by
  simp only [quiet, Bool.and_eq_true, bne_iff_ne] at h
  exact h.1.2

theorem ne_hpPortStatusPfcTx_of_quiet {f : Reg.Fld} (h : quiet f = true) (p : Nat) :
    f.key ≠ (Reg.hpPortStatusPfcTx p).key := by
  have hkey : (Reg.hpPortStatusPfcTx p).key = (0xc1000 + 256 * p) * 64 + 32 := by
    simp [Reg.Fld.key, Reg.FldD.at, Reg.hpPortStatusPfcTxD]
  simp only [quiet, Bool.and_eq_true, Bool.or_eq_true, decide_eq_true_eq, bne_iff_ne] at h
  omega

/-! ## Records -/

@[simp] theorem sendView_ite (p : Prop) [Decidable p] (s t : State) :
    sendView (if p then s else t) = if p then sendView s else sendView t := apply_ite ..

@[simp] theorem sendView_foldl {α : Type} (f : State → α → State) (h : ∀ s a, sendView (f s a) = sendView s)
    (s : State) (l : List α) : sendView (l.foldl f s) = sendView s := by
  induction l generalizing s with
  | nil => rfl
  | cons a l ih => rw [List.foldl_cons, ih, h]

@[simp] theorem sendView_logEv (s : State) (n : Nat) (e : Ev) (u : Nat) (d : List Nat) (p : Bool) :
    sendView (logEv s n e u d p) = sendView s := by
  refine sendView_ext ?_ fun f hf => getF_logEv _ _ _ _ _ _ (calm_of_quiet hf)
  simp [sendCore]

@[simp] theorem sendView_pitchEv (s : State) (n : Nat) (e : Ev) (d : List Nat) :
    sendView (pitchEv s n e d) = sendView s := rfl

/-! ## Frames and the order stream -/

@[simp] theorem sendView_emit (s : State) (x : Nat) (f : Frame) : sendView (emit s x f) = sendView s := rfl

@[simp] theorem sendView_ropeSendOn (s : State) (i : Nat) (seqd : Bool) (body : RopeBody) :
    sendView (ropeSendOn s i seqd body) = sendView s := rfl

@[simp] theorem sendView_ropeSend (s : State) (seqd : Bool) (body : RopeBody) :
    sendView (ropeSend s seqd body) = sendView s := by
  simp only [ropeSend]; split <;> simp

@[simp] theorem sendView_ropeSendAll (s : State) (seqd : Bool) (body : RopeBody) :
    sendView (ropeSendAll s seqd body) = sendView s := by simp [ropeSendAll]

@[simp] theorem sendView_order (s : State) (b : OrderBody) : sendView (order s b).1 = sendView s :=
  (sendView_ropeSend ..).trans
    (sendView_ext rfl fun _ hf => getF_setF_ne _ _ _ _ (ne_rlIndexIndex_of_quiet hf))

@[simp] theorem sendView_orderIf (s : State) (b : OrderBody) : sendView (orderIf s b).1 = sendView s := by
  simp [orderIf, apply_ite Prod.fst]

/-! ## Flow control -/

@[simp] theorem sendView_showPfcTx (s : State) (sub prio : Nat) : sendView (showPfcTx s sub prio) = sendView s :=
  sendView_ext rfl fun _ hf => getF_putF_ne _ _ _ _ _ (ne_hpPortStatusPfcTx_of_quiet hf _)

@[simp] theorem sendView_setPause (s : State) (sub prio : Nat) (on : Bool) :
    sendView (setPause s sub prio on) = sendView s := by
  simp only [setPause, sendView_ite, sendView_emit, sendView_showPfcTx]
  exact ite_self (sendView s)

@[simp] theorem sendView_pfcCheck (s : State) (sub prio : Nat) : sendView (pfcCheck s sub prio) = sendView s := by
  simp [pfcCheck]

@[simp] theorem sendView_globalCheck (s : State) : sendView (globalCheck s) = sendView s := by
  have hall (t : State) (l : List (Nat × Nat)) : sendView (l.foldl (fun s x => pfcCheck s x.1 x.2) t) = sendView t :=
    sendView_foldl _ (fun _ _ => sendView_pfcCheck ..) _ _
  unfold globalCheck
  split <;> split
  · exact (hall ..).trans rfl
  · rfl
  · exact (hall ..).trans rfl
  · rfl

@[simp] theorem sendView_occChange (s : State) (key add sub_ : Nat) :
    sendView (occChange s key add sub_) = sendView s := by
  unfold occChange
  split
  · rfl
  · exact (sendView_globalCheck ..).trans ((sendView_pfcCheck ..).trans rfl)

@[simp] theorem sendView_occRelease (s : State) (l : List (Nat × Nat)) : sendView (occRelease s l) = sendView s :=
  sendView_foldl _ (fun _ _ => sendView_occChange ..) _ _

/-! ## Packets and messages -/

@[simp] theorem sendView_modConn (s : State) (ci : Nat) (f : Conn → Conn) : sendView (modConn s ci f) = sendView s := rfl

@[simp] theorem sendView_modPath (s : State) (ci k : Nat) (f : PathSt → PathSt) :
    sendView (modPath s ci k f) = sendView s := rfl

@[simp] theorem sendView_sendPkt (s : State) (prio : Nat) (p : Pkt) : sendView (sendPkt s prio p) = sendView s := by
  simp [sendPkt]

@[simp] theorem sendView_egressTake (s : State) (mgmt : Bool) (len : Nat) :
    sendView (egressTake s mgmt len) = sendView s := by
  unfold egressTake; split <;> rfl

@[simp] theorem sendView_sealPkt (s : State) (ci : Nat) (c : Conn) (p : Pkt) :
    sendView (sealPkt s ci c p).1 = sendView s := by
  unfold sealPkt; split <;> rfl

theorem sendView_of_pumpOne {s t : State} {ci : Nat} (h : pumpOne s ci = some t) : sendView t = sendView s := by
  simp only [pumpOne] at h
  repeat' split at h
  all_goals simp at h
  all_goals subst h; simp

theorem sendView_pumpN (ci fuel : Nat) (s : State) : sendView (pumpN ci fuel s) = sendView s := by
  induction fuel generalizing s with
  | zero => rfl
  | succ fuel ih =>
    simp only [pumpN]
    split
    · next t h => rw [ih, sendView_of_pumpOne h]
    · rfl

@[simp] theorem sendView_reserveIv (s : State) (ci : Nat) : sendView (reserveIv s ci) = sendView s := by
  simp only [reserveIv]; split <;> simp

@[simp] theorem sendView_pump (s : State) (ci : Nat) : sendView (pump s ci) = sendView s :=
  (sendView_reserveIv ..).trans (sendView_pumpN ..)

@[simp] theorem sendView_partMessage (s : State) (ci ty : Nat) (exts : List Ext) (data : Bytes) (tag : Nat)
    (rec : Nat × Nat × Nat) (seald : Bool) (avoid : Option Nat) :
    sendView (partMessage s ci ty exts data tag rec seald avoid).1 = sendView s := by
  simp only [partMessage]
  split
  · rfl
  · simp [apply_ite Prod.fst]

@[simp] theorem sendView_undelivered (s : State) (code qual detail : Nat) :
    sendView (undelivered s code qual detail) = sendView s := by simp [undelivered]

@[simp] theorem sendView_sendEvent (s : State) (ci code qual detail : Nat) (payload : Bytes) (avoid : Option Nat) :
    sendView (sendEvent s ci code qual detail payload avoid) = sendView s := by simp [sendEvent]

@[simp] theorem sendView_deviceEvent (s : State) (code qual detail : Nat) (payload : Bytes) :
    sendView (deviceEvent s code qual detail payload) = sendView s := by
  simp only [deviceEvent]; split <;> simp

theorem getF_deviceEvent (s : State) (code qual detail : Nat) (payload : Bytes) {f : Reg.Fld} (h : quiet f = true) :
    getF (deviceEvent s code qual detail payload) f = getF s f := getF_of_sendView (sendView_deviceEvent ..) h

end Sys2Proof.Machine
end

section
/-! PROOFS. Thermal management (R374 to R382). -/

namespace Sys2Proof.Machine

/-! ## The vote -/

theorem second_self (a : Int) : second a a a = a := by simp [second]

/-- Every sensor reads `v`. -/
def AllRead (s : State) (v : Int) : Prop := ∀ i < 48, sensorRd s i = v

theorem AllRead.zoneTemp {s : State} {v : Int} (h : AllRead s v) {z : Nat} (hz : z < 16) : zoneTemp s z = v := by
  rw [Machine.zoneTemp, h _ (by omega), h _ (by omega), h _ (by omega), second_self]

theorem AllRead.zonesAt_eq_nil {s : State} {v t : Int} (h : AllRead s v) (hv : v < t) : zonesAt s t = [] := by
  refine List.filter_eq_nil_iff.mpr fun z hz => ?_
  rw [h.zoneTemp (List.mem_range.mp hz)]
  simp [hv]

theorem AllRead.anyZone_eq_false {s : State} {v t : Int} (h : AllRead s v) (hv : v < t) : anyZone s t = false := by
  simp [anyZone, h.zonesAt_eq_nil hv]

theorem AllRead.criticalAt_eq_none {s : State} {v t : Int} (h : AllRead s v) (hv : v < t) : criticalAt s t = none := by
  refine List.find?_eq_none.mpr fun z hz => ?_
  have hz' := List.mem_range.mp hz
  have hempty : ((List.range 3).filter fun k => ! broken s (3 * z + k) && decide (t ≤ sensorRd s (3 * z + k))) = [] := by
    refine List.filter_eq_nil_iff.mpr fun k hk => ?_
    rw [h _ (by have := List.mem_range.mp hk; omega)]
    simp [hv]
  simp [hempty]

theorem hotZone_lt (s : State) : hotZone s < 16 := by
  have hpick (l : List Nat) (h : Nat) (hl : ∀ z ∈ l, z < 16) (hh : h < 16) :
      l.foldl (fun h z => if Machine.zoneTemp s h < Machine.zoneTemp s z then z else h) h < 16 := by
    induction l generalizing h with
    | nil => exact hh
    | cons z l ih =>
      obtain ⟨hz, hl⟩ := List.forall_mem_cons.mp hl
      rw [List.foldl_cons]
      exact ih _ hl (by split <;> assumption)
  exact hpick _ 0 (fun z hz => List.mem_range.mp hz) (by decide)

/-- What the sensors read rests on the readings taken and on the map of broken sensors. -/
theorem AllRead.of_eq {s t : State} {v : Int} (h : AllRead s v) (hrd : t.thm.rd = s.thm.rd) (hfree : t.free = s.free)
    (hmap : getF t Reg.thmBrokenMap = getF s Reg.thmBrokenMap) : AllRead t v := by
  intro i hi
  rw [← h i hi]
  unfold sensorRd broken bitF
  rw [hrd, hfree, hmap]

theorem AllRead.setF {s : State} {v : Int} (h : AllRead s v) (f : Reg.Fld) (x : Nat)
    (hf : Reg.thmBrokenMap.key ≠ f.key) : AllRead (setF s f x) v := h.of_eq rfl rfl (getF_setF_ne _ _ _ _ hf)

/-! ## A scan in which every sensor reads the same cool value -/

/-- The readings that a scan of the one value `v` leaves. -/
theorem takeScan_replicate (s : State) {v : Int} (h : convOk (some v) = true) :
    ∃ rd, takeScan s (List.replicate 48 (some v)) = { s with thm.rd := rd, thm.bad := [] } ∧
      ∀ i < 48, tget rd i = some v := by
  have htake (l : List (Option Int × Nat)) (s : State) (hl : ∀ x ∈ l, x.1 = some v) :
      ∃ rd, l.foldl (fun s x => match x.1 with
          | some v => if convOk x.1 then { s with thm.rd := tset s.thm.rd x.2 v } else s
          | none => s) s = { s with thm.rd := rd } ∧
        ∀ i, tget rd i = if i ∈ l.map (·.2) then some v else tget s.thm.rd i := by
    induction l generalizing s with
    | nil => exact ⟨s.thm.rd, rfl, fun i => by simp⟩
    | cons x l ih =>
      obtain ⟨hx, hl⟩ := List.forall_mem_cons.mp hl
      obtain ⟨rd, hrd, hget⟩ := ih { s with thm.rd := tset s.thm.rd x.2 v } hl
      refine ⟨rd, ?_, fun i => ?_⟩
      · simp only [List.foldl_cons, hx, h, if_true]
        exact hrd
      · rw [hget i]
        simp only [List.map_cons, List.mem_cons, tget_tset]
        by_cases hi : i ∈ l.map (·.2) <;> simp [hi]
  have hval : ∀ x ∈ (List.replicate 48 (some v)).zipIdx, x.1 = some v := fun x hx =>
    List.eq_of_mem_replicate (List.fst_mem_of_mem_zipIdx hx)
  have hfails : ((List.replicate 48 (some v)).zipIdx.filter fun x => ! convOk x.1) = [] :=
    List.filter_eq_nil_iff.mpr fun x hx => by simp [hval x hx, h]
  obtain ⟨rd, hrd, hget⟩ := htake _ { s with thm.bad := [] } hval
  refine ⟨rd, ?_, fun i hi => (hget i).trans (if_pos ?_)⟩
  · simp only [takeScan, hfails, List.map_nil, List.filter_nil, List.foldl_nil]
    exact hrd
  · have hsnd : (List.replicate 48 (some v)).zipIdx.map (·.2) = List.range 48 := rfl
    rw [hsnd]
    exact List.mem_range.mpr hi

theorem zoneReadF_key_inj : ∀ z < 16, ∀ y < 16, (zoneReadF z).key = (zoneReadF y).key → z = y := by decide +kernel

theorem zoneReadF_w {z : Nat} : (zoneReadF z).w = 16 := by
  unfold zoneReadF
  split
  · rfl
  · split
    · rfl
    · split <;> rfl

theorem ofSigned16_mod (v : Int) : ofSigned16 v % 2 ^ 16 = ofSigned16 v := Nat.mod_eq_of_lt (by unfold ofSigned16; omega)

/-- A field that is neither a zone's nor the hottest zone's. -/
def OffZones (f : Reg.Fld) : Prop :=
  (∀ z < 16, f.key ≠ (zoneReadF z).key) ∧ f.key ≠ Reg.thmStatusHotZone.key ∧ f.key ≠ Reg.thmStatusHotTemp.key

theorem zoneFold {v : Int} (l : List Nat) (hl : ∀ z ∈ l, z < 16) (s : State) (h : AllRead s v) :
    ∃ regs, l.foldl (fun s z => setF s (zoneReadF z) (ofSigned16 (zoneTemp s z))) s = { s with regs := regs } ∧
      (∀ z ∈ l, getF { s with regs := regs } (zoneReadF z) = ofSigned16 v) ∧
      ∀ f : Reg.Fld, (∀ z ∈ l, f.key ≠ (zoneReadF z).key) → getF { s with regs := regs } f = getF s f := by
  induction l generalizing s with
  | nil => exact ⟨s.regs, rfl, fun z hz => absurd hz List.not_mem_nil, fun _ _ => rfl⟩
  | cons z l ih =>
    replace ⟨hz, hl⟩ := List.forall_mem_cons.mp hl
    have hmap : ∀ z < 16, Reg.thmBrokenMap.key ≠ (zoneReadF z).key := by decide +kernel
    obtain ⟨regs, hfold, hval, hget⟩ := ih hl _ (h.setF _ (ofSigned16 (zoneTemp s z)) (hmap z hz))
    refine ⟨regs, hfold, fun y hy => ?_, fun f hf => ?_⟩
    · by_cases hyl : y ∈ l
      · exact hval y hyl
      · obtain rfl : y = z := (List.mem_cons.mp hy).resolve_right hyl
        have hne : ∀ x ∈ l, (zoneReadF y).key ≠ (zoneReadF x).key := fun x hx hkey =>
          hyl (zoneReadF_key_inj y hz x (hl x hx) hkey ▸ hx)
        exact (hget _ hne).trans (by rw [getF_setF_same, zoneReadF_w, h.zoneTemp hz, ofSigned16_mod])
    · obtain ⟨hfz, hfl⟩ := List.forall_mem_cons.mp hf
      exact (hget f hfl).trans (getF_setF_ne _ _ _ _ hfz)

/-- The zones' registers show the one value that every sensor reads. -/
theorem showZones_of_allRead {s : State} {v : Int} (h : AllRead s v) : ∃ regs, showZones s = { s with regs := regs } ∧
    (∀ z < 16, getF { s with regs := regs } (zoneReadF z) = ofSigned16 v) ∧
    getF { s with regs := regs } Reg.thmStatusHotTemp = ofSigned16 v ∧
    ∀ f, OffZones f → getF { s with regs := regs } f = getF s f := by
  obtain ⟨regs, hfold, hval, hget⟩ := zoneFold (List.range 16) (fun z hz => List.mem_range.mp hz) s h
  have hread : AllRead { s with regs := regs } v := h.of_eq rfl rfl (hget _ (by decide +kernel))
  have hhot := hread.zoneTemp (hotZone_lt { s with regs := regs })
  have hoff : ∀ z < 16, (zoneReadF z).key ≠ Reg.thmStatusHotZone.key ∧ (zoneReadF z).key ≠ Reg.thmStatusHotTemp.key := by
    decide +kernel
  rw [showZones, hfold]
  refine ⟨_, rfl, fun z hz => ?_, ?_, fun f ⟨hz, h₁, h₂⟩ => ?_⟩
  · refine (getF_setF_ne _ _ _ _ (hoff z hz).2).trans ((getF_setF_ne _ _ _ _ (hoff z hz).1).trans ?_)
    exact hval z (List.mem_range.mpr hz)
  · exact (getF_setF_same _ _ _).trans ((congrArg (ofSigned16 · % 2 ^ 16) hhot).trans (ofSigned16_mod v))
  · refine (getF_setF_ne _ _ _ _ h₂).trans ((getF_setF_ne _ _ _ _ h₁).trans ?_)
    exact hget f fun z hzm => hz z (List.mem_range.mp hzm)

/-- With every sensor at its zone's value nothing is suspect. -/
theorem suspects_of_allRead {s : State} {v : Int} (h : AllRead s v) :
    ∃ regs, suspects s = { s with regs := regs, thm.odd := [] } ∧
      ∀ f : Reg.Fld, f.key ≠ Reg.thmStatusSuspect.key → getF { s with regs := regs } f = getF s f := by
  have hodd : ((List.range 48).filter fun i =>
      ! broken s i && decide (200 < sensorRd s i - zoneTemp s (i / 3) ∨ sensorRd s i - zoneTemp s (i / 3) < -200)) = [] := by
    refine List.filter_eq_nil_iff.mpr fun i hi => ?_
    have hi := List.mem_range.mp hi
    rw [h i hi, h.zoneTemp (by omega)]
    simp
  have hclear (l : List Nat) (s : State) : ∃ regs,
      l.foldl (fun s z => putF s Reg.thmStatusSuspect z false) s = { s with regs := regs } ∧
        ∀ f : Reg.Fld, f.key ≠ Reg.thmStatusSuspect.key → getF { s with regs := regs } f = getF s f := by
    induction l generalizing s with
    | nil => exact ⟨s.regs, rfl, fun _ _ => rfl⟩
    | cons z l ih =>
      obtain ⟨regs, hfold, hget⟩ := ih (putF s Reg.thmStatusSuspect z false)
      exact ⟨regs, hfold, fun f hf => (hget f hf).trans (getF_putF_ne _ _ _ _ _ hf)⟩
  obtain ⟨regs, hfold, hget⟩ := hclear (List.range 16) { s with thm.odd := [] }
  refine ⟨regs, ?_, hget⟩
  simp only [suspects, hodd, List.foldl_nil, List.filter_nil, List.map_nil, List.any_nil, Bool.false_and,
    Bool.false_eq_true, if_false]
  exact hfold

/-- What a scan of one cool value has shown before the thresholds are looked at. -/
theorem scanned_frame {s : State} {v : Int} (hv : convOk (some v) = true) (hmap : getF s Reg.thmBrokenMap = 0) :
    ∃ regs thm, suspects (showZones (takeScan s (List.replicate 48 (some v)))) = { s with regs := regs, thm := thm } ∧
      thm.shut = s.thm.shut ∧ AllRead { s with regs := regs, thm := thm } v ∧
      (∀ z < 16, getF { s with regs := regs } (zoneReadF z) = ofSigned16 v) ∧
      getF { s with regs := regs } Reg.thmStatusHotTemp = ofSigned16 v ∧
      ∀ f, OffZones f → f.key ≠ Reg.thmStatusSuspect.key → getF { s with regs := regs } f = getF s f := by
  obtain ⟨rd, htake, hrd⟩ := takeScan_replicate s hv
  have hread : AllRead { s with thm.rd := rd, thm.bad := [] } v := by
    intro i hi
    have hbroken : broken { s with thm.rd := rd, thm.bad := [] } i = false := by
      rw [broken, bitF]
      exact (congrArg (bit · i) hmap).trans (by simp [bit])
    rw [sensorRd, hbroken, hrd i hi]
    rfl
  obtain ⟨regs₁, hshow, hzones, hhot, hget₁⟩ := showZones_of_allRead hread
  have hoff : OffZones Reg.thmBrokenMap := ⟨by decide +kernel, by decide, by decide⟩
  obtain ⟨regs₂, hsus, hget₂⟩ := suspects_of_allRead
    (hread.of_eq (t := { s with regs := regs₁, thm.rd := rd, thm.bad := [] }) rfl rfl (hget₁ _ hoff))
  have hkeys : ∀ z < 16, (zoneReadF z).key ≠ Reg.thmStatusSuspect.key := by decide +kernel
  rw [htake, hshow, hsus]
  refine ⟨_, _, rfl, rfl, ?_, fun z hz => (hget₂ _ (hkeys z hz)).trans (hzones z hz),
    (hget₂ _ (by decide)).trans hhot, fun f hf hsf => (hget₂ f hsf).trans (hget₁ f hf)⟩
  exact hread.of_eq rfl rfl ((hget₂ _ (by decide)).trans (hget₁ _ hoff))

theorem ceilingTimer_frame (s : State) : ∃ at_ up, ceilingTimer s = { s with thm.stepAt := at_, thm.stepUp := up } := by
  unfold ceilingTimer
  split
  · exact ⟨_, _, rfl⟩
  · split <;> exact ⟨_, _, rfl⟩

theorem warnCheck_of_allRead {s : State} {v : Int} (h : AllRead s v) (hv : v < warnClear s) :
    warnCheck s = setB s Reg.thmStatusWarn false := by
  have hat : v < warnAt s := by simp only [warnClear] at hv; omega
  simp [warnCheck, h.zonesAt_eq_nil hat, h.anyZone_eq_false hv]

theorem slowCheck_of_allRead {s : State} {v : Int} (h : AllRead s v) (hv : v < slowClear s)
    (hreq : isSet s Reg.thmStatusRequested = false) (henf : isSet s Reg.thmStatusEnforced = false) : slowCheck s = s := by
  have hat : v < slowAt s := by simp only [slowClear] at hv; omega
  simp [slowCheck, hreq, henf, h.anyZone_eq_false hat]

theorem coolWatch_of_allRead {s : State} {v : Int} (h : AllRead s v) (hv : v < restartLevel s) :
    ∃ since, coolWatch s = { s with thm.coolSince := since } := by
  rw [coolWatch, h.anyZone_eq_false hv, if_neg Bool.false_ne_true]
  split
  · exact ⟨_, rfl⟩
  · exact ⟨_, rfl⟩

theorem tripCheck_of_allRead {s : State} {v : Int} (h : AllRead s v) (hv : v < tripAt s) : tripCheck s = s := by
  rw [tripCheck, h.zonesAt_eq_nil hv]

theorem critCheck_of_allRead {s : State} {v : Int} (h : AllRead s v) (hv : v < critAt s) : critCheck s = s := by
  rw [critCheck, h.criticalAt_eq_none hv]

/-- Below every threshold the checks clear WARN and move timers alone. -/
theorem checks_of_allRead {s : State} {v : Int} (h : AllRead s v) (hwarn : v < warnClear s) (hslow : v < slowClear s)
    (hcool : v < restartLevel s) (htrip : v < tripAt s) (hcrit : v < critAt s)
    (hreq : isSet s Reg.thmStatusRequested = false) (henf : isSet s Reg.thmStatusEnforced = false) :
    ∃ t, critCheck (tripCheck (coolWatch (ceilingTimer (slowCheck (warnCheck s))))) = t ∧
      t.thm.shut = s.thm.shut ∧ t.log = s.log ∧ isSet t Reg.thmStatusWarn = false ∧
      ∀ f : Reg.Fld, f.key ≠ Reg.thmStatusWarn.key → getF t f = getF s f := by
  have hread : AllRead (setB s Reg.thmStatusWarn false) v := h.setF _ _ (by decide)
  have hslow' : slowClear (setB s Reg.thmStatusWarn false) = slowClear s := by
    rw [slowClear, slowAt, getF_setB_ne _ _ _ _ (by decide), slowClear, slowAt]
  have htwo := slowCheck_of_allRead hread (hslow' ▸ hslow) ((isSet_setB_ne _ _ (by decide)).trans hreq)
    ((isSet_setB_ne _ _ (by decide)).trans henf)
  obtain ⟨at_, up, hthree⟩ := ceilingTimer_frame (setB s Reg.thmStatusWarn false)
  have hread₃ : AllRead (ceilingTimer (setB s Reg.thmStatusWarn false)) v := by
    rw [hthree]
    exact hread.of_eq rfl rfl rfl
  obtain ⟨since, hfour⟩ := coolWatch_of_allRead hread₃ (by rw [hthree]; exact hcool)
  have hread₄ : AllRead (coolWatch (ceilingTimer (setB s Reg.thmStatusWarn false))) v := by
    rw [hfour]
    exact hread₃.of_eq rfl rfl rfl
  have hfive := tripCheck_of_allRead hread₄ (by rw [hfour, hthree]; exact htrip)
  have hsix := critCheck_of_allRead hread₄ (by rw [hfour, hthree]; exact hcrit)
  rw [warnCheck_of_allRead h hwarn, htwo, hfive, hsix, hfour, hthree]
  exact ⟨_, rfl, rfl, rfl, isSet_setB_same s (f := Reg.thmStatusWarn) false (by decide),
    fun f hf => getF_setB_ne s _ f false hf⟩

/-! ## The ceiling -/

@[simp] theorem getF_ceilingTimer (s : State) (f : Reg.Fld) : getF (ceilingTimer s) f = getF s f := by
  obtain ⟨at_, up, h⟩ := ceilingTimer_frame s
  rw [h]
  rfl

@[simp] theorem ceilingTimer_conns (s : State) : (ceilingTimer s).conns = s.conns := by
  obtain ⟨at_, up, h⟩ := ceilingTimer_frame s
  rw [h]

/-- The ceiling at `c`, at the end of a step due at `b`, and what the step makes of the target. -/
def ceilingMoved (s : State) (b c : Nat) : State :=
  vcoreTarget (setF (reach { s with thm.stepAt := none } b) Reg.fabVcoreCeil c)

theorem getF_ceilingMoved_ceil (s : State) (b c : Nat) :
    getF (ceilingMoved s b c) Reg.fabVcoreCeil = c % 2 ^ Reg.fabVcoreCeil.w := by
  rw [ceilingMoved, getF_vcoreTarget_ne _ (by decide), getF_setF_same]

theorem getF_ceilingMoved_target {s : State} (b : Nat) {c : Nat} (hc : c < 2 ^ Reg.fabVcoreCeil.w)
    (h : isSet s Reg.fabVcoreAvsFault = false) :
    getF (ceilingMoved s b c) Reg.fabVcoreTarget = min (getF s Reg.fabVcoreReq) c := by
  have hfault : isSet (setF (reach { s with thm.stepAt := none } b) Reg.fabVcoreCeil c) Reg.fabVcoreAvsFault = false :=
    (isSet_setF_ne _ _ (by decide)).trans h
  refine (getF_vcoreTarget hfault).trans ?_
  rw [getF_setF_same, Nat.mod_eq_of_lt hc, getF_setF_ne _ _ _ _ (by decide)]
  rfl

/-- Enforcement ends when the ceiling has risen to REQ (R379). -/
def enforcementEnds (s : State) : State :=
  if isSet s Reg.thmStatusEnforced && decide (getF s Reg.fabVcoreReq ≤ getF s Reg.fabVcoreCeil) then
    deviceEvent (pitchEv (setB s Reg.thmStatusEnforced false) srcThm .slowdownCleared) 0x0403 0 0
  else s

theorem getF_enforcementEnds_ceil (s : State) : getF (enforcementEnds s) Reg.fabVcoreCeil = getF s Reg.fabVcoreCeil := by
  unfold enforcementEnds
  split
  · rw [getF_deviceEvent _ _ _ _ _ (by decide), getF_pitchEv, getF_setB_ne _ _ _ _ (by decide)]
  · rfl

/-! ## The statement -/

/-- Settles O16: the vote by cases of the order, the scan by `scanned_frame` and `checks_of_allRead`. -/
theorem thermal : Obligations.Thermal := by
  refine ⟨?bounds, ?order, ?cool, ?grace, ?down, ?scan, ?up, ?coolEnd, ?restart⟩
  case bounds => intro a b c; unfold second; omega
  case order => intro a b c; unfold second; omega
  case cool =>
    intro s v hlo hhi hmap hwarn hslow hres htrip hcrit _ _ hw hreq henf
    obtain ⟨regs, thm, hscan, hshut, hread, hzones, hhot, hget⟩ :=
      scanned_frame (s := s) (v := v) (decide_eq_true ⟨hlo, hhi⟩) hmap
    have hkeep {f : Reg.Fld} (hz : ∀ z < 16, f.key ≠ (zoneReadF z).key) (h₁ : f.key ≠ Reg.thmStatusHotZone.key)
        (h₂ : f.key ≠ Reg.thmStatusHotTemp.key) (h₃ : f.key ≠ Reg.thmStatusSuspect.key) :
        getF { s with regs := regs, thm := thm } f = getF s f := hget f ⟨hz, h₁, h₂⟩ h₃
    have hcfgW := hkeep (f := Reg.thmCfgWarnC) (by decide +kernel) (by decide) (by decide) (by decide)
    have hcfgS := hkeep (f := Reg.thmCfgSlowC) (by decide +kernel) (by decide) (by decide) (by decide)
    obtain ⟨t, hchecks, hshut', hlog, hwarn', hget'⟩ := checks_of_allRead hread
      (by simpa only [warnClear, warnAt, hcfgW] using hwarn) (by simpa only [slowClear, slowAt, hcfgS] using hslow)
      hres htrip hcrit
      (by rw [isSet, hkeep (by decide +kernel) (by decide) (by decide) (by decide)]; exact hreq)
      (by rw [isSet, hkeep (by decide +kernel) (by decide) (by decide) (by decide)]; exact henf)
    have hkeys : ∀ z < 16, (zoneReadF z).key ≠ Reg.thmStatusWarn.key := by decide +kernel
    have hexec := needs_eq_next (s := s) rfl ((congrArg (fun u => critCheck (tripCheck (coolWatch (ceilingTimer
      (slowCheck (warnCheck u)))))) hscan).trans hchecks)
    refine ⟨_, hexec, fun z hz => (hget' _ (hkeys z hz)).trans (hzones z hz), (hget' _ (by decide)).trans hhot, hwarn',
      hshut'.trans hshut, hlog, (hget' Reg.seqStatusState (by decide)).trans ?_⟩
    exact hkeep (by decide +kernel) (by decide) (by decide) (by decide)
  case grace =>
    intro s g hg hany
    exact needs_eq_next rfl (by simp only [hg]; exact if_pos hany)
  case down =>
    intro s b hat hway
    have hc : getF s Reg.fabVcoreCeil - 2 < 2 ^ Reg.fabVcoreCeil.w := Nat.lt_of_le_of_lt (Nat.sub_le ..) (getF_lt ..)
    have hexec : exec .ceilingStep s =
        .next (commit s (ceilingTimer (ceilingMoved s b (getF s Reg.fabVcoreCeil - 2)))) :=
      needs_eq_next rfl (by simp only [hat, hway, Bool.false_and, Bool.false_eq_true, if_false]; rfl)
    refine ⟨_, hexec, ?_, fun hfault => ?_, ?_⟩
    · rw [getF_commit, getF_ceilingTimer, getF_ceilingMoved_ceil, Nat.mod_eq_of_lt hc]
    · rw [getF_commit, getF_ceilingTimer, getF_ceilingMoved_target b hc hfault]
    · rw [commit_conns, ceilingTimer_conns, ceilingMoved, vcoreTarget_conns]
      rfl
  case scan => exact fun s l hl => needs_eq_next hl rfl
  case up =>
    intro s b hat hway
    have hexec : exec .ceilingStep s = .next (commit s (ceilingTimer (enforcementEnds
        (ceilingMoved s b (min 46 (getF s Reg.fabVcoreCeil + 2)))))) :=
      needs_eq_next rfl (by simp only [hat, hway, if_true, Bool.true_and]; rfl)
    refine ⟨_, hexec, ?_⟩
    rw [getF_commit, getF_ceilingTimer, getF_enforcementEnds_ceil, getF_ceilingMoved_ceil,
      Nat.mod_eq_of_lt (Nat.lt_of_le_of_lt (min_le_left ..) (by decide))]
  case coolEnd =>
    intro s b hc hshut
    exact needs_eq_next rfl (by simp [hc, hshut])
  case restart =>
    intro s b hc hshut hauto
    have hno : isSet (setB (reach s (b + sec 30)) Reg.thmStatusCool true) Reg.thmCfgAutoRestart = false :=
      (isSet_setB_ne _ _ (by decide)).trans hauto
    have hexec : exec .cool s = .next (commit s
        { setB (reach s (b + sec 30)) Reg.thmStatusCool true with pins.tripN := true, thm.shut := false }) :=
      needs_eq_next rfl (by
        simp only [hc]
        rw [if_pos (show (setB (reach s (b + sec 30)) Reg.thmStatusCool true).thm.shut = true from hshut)]
        exact if_neg fun h => by
          rw [Bool.and_eq_true, Bool.and_eq_true] at h
          exact absurd h.1.1 (Bool.eq_false_iff.mp hno))
    exact ⟨_, hexec, isSet_setB_same (f := Reg.thmStatusCool) _ true (by decide), rfl, rfl, rfl⟩

end Sys2Proof.Machine
end

section
/-! PROOFS. The ends of the start stages (R451, R452, R460) and the ladder's rows (R437, R444). -/

namespace Sys2Proof.Machine

/-! ## Stages -/

/-- A stage that is set is the stage in progress. -/
theorem stage_setStage (s : State) {n : Nat} (h : n < 16) : stage (setStage s n) = n := by
  rw [stage, setStage, startWait, getF_setF_ne _ _ _ _ (by decide), getF_setF_same]
  exact Nat.mod_eq_of_lt h

@[simp] theorem stage_commit (s t : State) : stage (commit s t) = stage t := rfl

theorem stage_startWait (s : State) (w : Nat) : stage (startWait s w) = stage s := getF_setF_ne _ _ _ _ (by decide)

/-- A start that nobody has asked for does not go on. -/
theorem startIfDue_of_not_pending {s : State} (h : s.seq.startPending = false) : startIfDue s = s := by
  simp [startIfDue, h]

/-- The end of the stage in progress does that stage's work. -/
theorem exec_startStageDone {s : State} {i : StageInfo} (h : stageRuns s (infoStage i) = true) :
    exec (.startStageDone i) s = .next (commit s (stageDone s i)) := needs_eq_next rfl (if_pos h)

/-- From stage 4 on the stage in progress may end where the part is out of reset, has a bank and is starting. -/
theorem stageRuns_of_le {s : State} {n : Nat} (hn : 4 ≤ n) (hstage : stage s = n) (hin : s.start.inReset = false)
    (hhalt : s.start.halted = false)
    (hstate : seqState s = stStarting ∨ seqState s = stRecovery ∨ seqState s = stReplay) : stageRuns s n = true := by
  rcases hstate with h | h | h <;> simp [stageRuns, hstage, hin, hhalt, hn, h]

/-- Settles O17: each stage by what its end does (`stageDone`). -/
theorem startStages : Obligations.StartStages := by
  refine ⟨?one, ?two, ?three, ?threeWaits, ?six, ?ten, ?later, ?timeout⟩
  case one =>
    intro s hs hp
    have hdone : stageDone s .s1 = setStage s 2 := startIfDue_of_not_pending hp
    refine ⟨_, exec_startStageDone (by simp [stageRuns, infoStage, hs]), ?_⟩
    rw [hdone]
    exact stage_setStage s (by decide)
  case two =>
    intro s hs hst hup
    exact ⟨_, exec_startStageDone (by simp [stageRuns, infoStage, hs, hst, hup]), stage_setStage s (by decide)⟩
  case three =>
    intro s hs hst hin
    have hdone : stageDone s (.s3 true true) =
        setStage { s with fab.refOk := true, fab.sdOk := true, fab.sdSince := none } 4 := by
      simp only [stageDone, stage3, if_true]
      exact if_neg (Bool.eq_false_iff.mp hin)
    refine ⟨_, exec_startStageDone (by simp [stageRuns, infoStage, hs, hst]), ?_⟩
    rw [hdone]
    exact ⟨stage_setStage _ (by decide), rfl, rfl⟩
  case threeWaits =>
    intro s hs hst href
    have hwait (t : State) : getF (startWait t 1) Reg.fabStartStatusWait = 1 := getF_setF_same _ _ _
    exact ⟨_, exec_startStageDone (by simp [stageRuns, infoStage, hs, hst]), (stage_startWait _ 1).trans hs, hwait _⟩
  case six =>
    intro s hs hst hin hhalt hch
    have hdone : stageDone s .s6 = setStage s 7 :=
      if_pos (List.all_eq_true.mpr fun c hc => beq_iff_eq.mpr (hch c hc))
    refine ⟨_, exec_startStageDone (stageRuns_of_le (by decide) hs hin hhalt (.inl hst)), ?_⟩
    rw [hdone]
    exact stage_setStage s (by decide)
  case ten =>
    intro s hs hst hin hhalt hteam hrole
    have hdone : stageDone s .s10 = setStage s 11 := by
      simp [stageDone, stage10, hteam, isSecond, hrole]
    refine ⟨_, exec_startStageDone (stageRuns_of_le (by decide) hs hin hhalt (.inl hst)), ?_⟩
    rw [hdone]
    exact stage_setStage s (by decide)
  case later =>
    intro s i hi hs hin hhalt hst
    have hexec := exec_startStageDone (stageRuns_of_le hi hs hin hhalt hst)
    refine ⟨?_, ?_, ?_, ?_, ?_, ?_⟩
    · rintro a b rfl; exact hexec
    · rintro rfl; exact hexec
    · rintro a b c rfl; exact hexec
    · rintro rfl; exact hexec
    · rintro rfl; exact hexec
    · rintro rfl; exact hexec
  case timeout =>
    intro s b hsince hs hwait
    exact needs_eq_next rfl (by simp only [hsince]; exact if_pos ⟨hs, hwait⟩)

/-! ## The ladder -/

/-- SD_REFCLK is recorded as lost (R437). -/
def sdClkLost (s : State) : State :=
  logEv (setB { s with fab.sdOk := false } Reg.fabTbStatusSdclkLoss true) srcFab .sdClkLoss noUnit []

theorem hasSecond_sdClkLost (s : State) : hasSecond (sdClkLost s) = hasSecond s := by
  have hget {f : Reg.Fld} (hc : calm f = true) (h : f.key ≠ Reg.fabTbStatusSdclkLoss.key) :
      getF (sdClkLost s) f = getF s f :=
    (getF_logEv _ _ _ _ _ _ hc).trans (getF_setB_ne _ _ _ _ h)
  unfold hasSecond role team
  rw [hget (by decide) (by decide), hget (by decide) (by decide)]

/-- Settles O18: each row by its branch. -/
theorem ladderRows : Obligations.LadderRows := by
  refine ⟨?hang, ?due, ?again, ?lossAlone, ?stay, ?handover, ?lossTeam, ?restored, ?early⟩
  case hang =>
    intro s g hg hstage hon
    exact needs_eq_next (decide_eq_true hg) (by simp [hstage, hon])
  case due =>
    intro s i hwait hopen hrun hauto
    have hauto' : isSet { s with ladder.run := 0 } Reg.fabLadderCfgAutoCycle = false := hauto
    refine needs_eq_next rfl ?_
    rw [if_pos rfl, if_neg (not_not.mpr hwait), hopen, if_neg Bool.false_ne_true, if_pos hrun]
    exact if_neg (Bool.eq_false_iff.mp hauto')
  case again =>
    intro s c i hc
    exact needs_eq_next rfl (if_neg hc)
  case lossAlone =>
    intro s hsd hsec
    have hsec' : hasSecond (sdClkLost s) = false := (hasSecond_sdClkLost s).trans hsec
    refine needs_eq_next rfl ?_
    rw [hsd, Bool.not_true, if_neg Bool.false_ne_true]
    change (let s := if hasSecond (sdClkLost s) then departFenced (sdClkLost s) else sdClkLost s
      let s := ((allSubs s).filter fun k => subRuns s k || subState s k == subQuiesced).foldl subGoesDown s
      instDown (instDown s 0) 1) = _
    rw [hsec', if_neg Bool.false_ne_true]
    rfl
  case stay =>
    intro s i hwait hopen hrun
    exact needs_eq_next rfl (by simp [hwait, hopen, hrun])
  case handover =>
    intro s i hwait
    refine needs_eq_next rfl ?_
    rw [if_pos rfl, if_pos hwait]
    exact if_neg hwait
  case lossTeam =>
    intro s hsd hsec
    have hsec' : hasSecond (sdClkLost s) = true := (hasSecond_sdClkLost s).trans hsec
    refine ⟨hsec', needs_eq_next rfl ?_⟩
    rw [hsd, Bool.not_true, if_neg Bool.false_ne_true]
    change (let s := if hasSecond (sdClkLost s) then departFenced (sdClkLost s) else sdClkLost s
      let s := ((allSubs s).filter fun k => subRuns s k || subState s k == subQuiesced).foldl subGoesDown s
      instDown (instDown s 0) 1) = _
    rw [hsec', if_pos rfl]
    rfl
  case restored =>
    intro s hsd hstage
    have hstage' : ¬ stage { s with fab.sdOk := true } < 5 := Nat.not_lt.mpr hstage
    refine needs_eq_next rfl ?_
    rw [hsd, if_neg Bool.false_ne_true]
    exact if_neg hstage'
  case early =>
    intro s hsd hstage
    refine needs_eq_next rfl ?_
    rw [hsd, if_neg Bool.false_ne_true]
    exact if_pos hstage

end Sys2Proof.Machine
end

section
/-! PROOFS. Reads and writes through the window (R468 to R475). -/

namespace Sys2Proof.Machine

/-- A part alone, its link up under a grant of level 1 with context 16 selected, that still holds a HANDOVER it has sent. -/
def handoverHeld : State :=
  { regs := [(Reg.mbxGrantStatusLevel.key, 1), (Reg.cvuCtxSelCtx.key, 16)],
    mgmt := { linkUp := true, grantEnd := 1 }, rope := { handover := some 0 } }

theorem exec_eq_execCvuCtxWrite (off : Nat) (d : Bytes) (s : State) :
    exec (.cvuCtxWrite off d) s = execCvuCtxWrite off d s := rfl

/-- The write of CVU_CTX_INIT waits in that state, and the context keeps its initial value. -/
theorem cvuWrite_handoverHeld : onWindow handoverHeld (fun s => cvuWrite s 0x80018 (zeros 8)) =
    { handoverHeld with key.ctxWait := [{ ctx := 16, raw := some (0x80018, zeros 8) }] } := by decide +kernel

/-- Refutes O23: a change of a context waits while a HANDOVER that was sent is not over (`ctxTry`), and no hypothesis of the
context-register clause excludes one. -/
theorem not_windowAndAuthority : ¬ Obligations.WindowAndAuthority := by
  intro ⟨_, _, _, hctx, _⟩
  obtain ⟨t, hexec, hinit⟩ := hctx handoverHeld (zeros 8) rfl rfl (by decide +kernel) (by decide +kernel)
    (by decide +kernel) (by decide +kernel) rfl (by decide +kernel)
  rw [exec_eq_execCvuCtxWrite, execCvuCtxWrite, cvuWrite_handoverHeld] at hexec
  cases hexec
  exact absurd hinit (by decide +kernel)

end Sys2Proof.Machine
end

section
/-! PROOFS. The I3C target (R393, R501), the test port and the time marks (R412, R417, R503), the mailbox and the
endpoint (R466 to R477, R502). -/

namespace Sys2Proof.Machine

/-! ## I3C -/

theorem onI3c_of_on {s : State} (h : domOn s 124 = true) (f : State → State) : onI3c s f = f s := if_pos h

theorem onI3c_of_off {s : State} (h : domOn s 124 = false) (f : State → State) : onI3c s f = s :=
  if_neg (Bool.eq_false_iff.mp h)

theorem i3cReached_of_addr {s : State} (hd : domOn s 124 = true) (ha : s.i3c.addr.isSome = true) (f : State → State) :
    i3cReached s f = f s := (onI3c_of_on hd _).trans (if_pos ha)

theorem i3cReached_of_off {s : State} (h : domOn s 124 = false) (f : State → State) : i3cReached s f = s :=
  onI3c_of_off h _

/-- Settles O19: the target answers as its row says once it is reached. -/
theorem i3cTarget : Obligations.I3cTarget := by
  refine ⟨?daa, ?dasa, ?rst, ?enec, ?disec, ?read, ?gets, ?unpowered, ?write, ?second⟩
  case daa =>
    intro s a hwf hd ha
    exact needs_eq_next hwf ((onI3c_of_on hd _).trans (if_pos (by rw [ha]; rfl)))
  case dasa =>
    intro s a hwf hd ha
    exact needs_eq_next hwf ((onI3c_of_on hd _).trans (if_pos (by rw [ha]; rfl)))
  case rst => exact fun s hd => needs_eq_next rfl (onI3c_of_on hd _)
  case enec => exact fun s hd => needs_eq_next rfl (onI3c_of_on hd _)
  case disec => exact fun s hd => needs_eq_next rfl (onI3c_of_on hd _)
  case read =>
    intro s last r rest hd ha hr
    exact needs_eq_next rfl ((i3cReached_of_addr hd ha _).trans (by rw [hr]))
  case gets =>
    intro s hd ha
    have hget (b : Bytes) : i3cGet s b = { s with i3c.out := b } := i3cReached_of_addr hd ha _
    exact ⟨needs_eq_next rfl (hget _), needs_eq_next rfl (hget _), needs_eq_next rfl (hget _), needs_eq_next rfl (hget _),
      needs_eq_next rfl (hget _), needs_eq_next rfl (hget _)⟩
  case unpowered =>
    exact fun s hd => ⟨needs_eq_next rfl (onI3c_of_off hd _), needs_eq_next rfl (i3cReached_of_off hd _)⟩
  case write =>
    intro s d hd ha hb
    exact needs_eq_next rfl ((i3cReached_of_addr hd ha _).trans (if_neg (Bool.eq_false_iff.mp hb)))
  case second =>
    intro s d hd ha hb
    refine ⟨_, needs_eq_next rfl ((i3cReached_of_addr hd ha _).trans (if_pos hb)), rfl, ?_⟩
    simp [busyReply]

/-! ## The test port -/

theorem takenByTest_of_service {s : State} (h : seqState s = stService) : takenByTest s = setSeqState s stTest := by
  simp [takenByTest, h]

/-- ORDER of a rail's word is its low field, and no other field of the word lies over it. -/
theorem fieldsAt_railTable : ∀ n < 24, (Reg.fieldsAt (0x50100 + 8 * n)).head? = some (Reg.seqRailOrder n) ∧
    ∀ f ∈ (Reg.fieldsAt (0x50100 + 8 * n)).tail, (Reg.seqRailOrder n).key ≠ f.key := by decide +kernel

theorem railOrder_loadWord (s : State) {n : Nat} (hn : n < 24) (v : Nat) :
    railOrder (loadWord s (0x50100 + 8 * n) v) n = bits v 0 (Reg.seqRailOrder n).w := by
  obtain ⟨hhead, htail⟩ := fieldsAt_railTable n hn
  obtain ⟨rest, hfields⟩ := List.head?_eq_some_iff.mp hhead
  rw [hfields, List.tail_cons] at htail
  obtain ⟨regs, hfold, hget⟩ := foldl_setF_frame rest (fun f => bits v f.lo f.w)
    (setF s (Reg.seqRailOrder n) (bits v 0 (Reg.seqRailOrder n).w))
  have hword : loadWord s (0x50100 + 8 * n) v = { setF s (Reg.seqRailOrder n) (bits v 0 (Reg.seqRailOrder n).w) with
      regs := regs } := by
    rw [loadWord, hfields]
    exact hfold
  rw [railOrder, hword, hget _ htail, getF_setF_same]
  exact Nat.mod_mod _ _

/-- A word cut to 8 bytes keeps the bits of a field at its bottom. -/
theorem bits_leNat_leBytes (v : Nat) {w : Nat} (h : w ≤ 64) : bits (leNat (leBytes 8 v)) 0 w = bits v 0 w := by
  have hdvd : 2 ^ w ∣ 256 ^ 8 := Nat.pow_dvd_pow 2 h
  rw [leNat_leBytes]
  simp only [bits, Nat.pow_zero, Nat.div_one]
  exact Nat.mod_mod_of_dvd v hdvd

/-- A time mark that falls due after other records is appended (R417). -/
theorem timeMark_of_sinceMark {s : State} (hload : s.log.loaded = true) (hfull : isSet s Reg.logStatusFull = false)
    (hsince : s.log.sinceMark = true) (hroom : s.log.recs.length < 65535)
    (hlast : ∀ r, s.log.recs.getLast? = some r → r.ev ≠ .timeMark) :
    (timeMark s).log.recs = s.log.recs ++
        [{ seq := s.log.next, src := srcLog, ev := .timeMark, unit := noUnit, detail := markDetail s }] ∧
      (timeMark s).log.sinceMark = false := by
  have hput := logPut_of_new (src := srcLog) (unit := noUnit) (detail := markDetail s) false hload hfull hroom
    fun r hr => LogRec.same_of_ev_ne (hlast r hr) srcLog noUnit (markDetail s)
  have hlog : (logEv s srcLog .timeMark noUnit (markDetail s)).log =
      s.log.append { seq := 0, src := srcLog, ev := .timeMark, unit := noUnit, detail := markDetail s } :=
    congrArg (fun x => x.1.log) hput
  simp [timeMark, hload, hfull, hsince, hlog]

/-- Settles O20: each access by its branch, the mark by `timeMark_of_sinceMark`. -/
theorem testPortAndMarks : Obligations.TestPortAndMarks := by
  refine ⟨?scan, ?noAuthority, ?locked, ?rail, fun _ => rfl, ?mark⟩
  case scan =>
    intro s hs
    have hs' : seqState { s with pins.boundary := true } = stService := hs
    exact ⟨_, needs_eq_next rfl (takenByTest_of_service hs'), seqState_setSeqState _ stTest, rfl⟩
  case noAuthority => exact fun s off d h => needs_eq_next rfl (by simp [h])
  case locked => exact fun s off d h => needs_eq_next rfl (by simp [h])
  case rail =>
    intro s n v hn hf hl
    have hoff : 0x50100 ≤ 0x50100 + 8 * n ∧ 0x50100 + 8 * n < 0x50300 := by omega
    have halign : (0x50100 + 8 * n) % 8 = 0 := by omega
    have hexec : exec (.jtagAccess (.railTable (0x50100 + 8 * n) (leBytes 8 v))) s =
        .next (commit s (loadWord s (0x50100 + 8 * n) (leNat (leBytes 8 v)))) :=
      needs_eq_next rfl (if_pos (by simp [hf, hl, hoff, halign, length_leBytes]))
    refine ⟨_, hexec, (railOrder_loadWord s hn _).trans (bits_leNat_leBytes v (w := 5) (by decide))⟩
  case mark =>
    intro s hload hfull hsince hroom hlast
    obtain ⟨hrecs, hmark⟩ := timeMark_of_sinceMark hload hfull hsince hroom hlast
    exact ⟨_, _, needs_eq_next rfl rfl, hrecs, rfl, rfl, rfl, hmark⟩

/-! ## The mailbox and the endpoint -/

/-- A write of one bit names that slot alone. -/
theorem slotBits_two_pow : ∀ n < 8, slotBits (BitVec.ofNat 8 (2 ^ n)).toNat = [n] := by decide

theorem doorbell_two_pow (s : State) {n : Nat} (h : n < 8) : doorbell s (BitVec.ofNat 8 (2 ^ n)).toNat = ring s n := by
  rw [doorbell, slotBits_two_pow n h, List.foldl_cons, List.foldl_nil]

theorem releaseSlots_two_pow (s : State) {n : Nat} (h : n < 8) :
    releaseSlots s (BitVec.ofNat 8 (2 ^ n)).toNat = release s n := by
  rw [releaseSlots, slotBits_two_pow n h, List.foldl_cons, List.foldl_nil]

/-- A record that is not posted sends no message. -/
theorem logEv_mgmt (s : State) (src : Nat) (e : Ev) (unit : Nat) (detail : List Nat) :
    (logEv s src e unit detail).mgmt = s.mgmt := by
  simp only [logEv, Bool.false_and, Bool.false_eq_true, if_false]
  split <;> simp

/-- A fold none of whose steps changes its start leaves it. -/
theorem foldl_eq_self {α β : Type} {f : β → α → β} {b : β} {l : List α} (h : ∀ a ∈ l, f b a = b) : l.foldl f b = b := by
  induction l with
  | nil => rfl
  | cons a l ih =>
    obtain ⟨ha, hl⟩ := List.forall_mem_cons.mp h
    rw [List.foldl_cons, ha, ih hl]

@[simp] theorem getF_of_mgmt (s : State) (m : Mgmt) (f : Reg.Fld) : getF { s with mgmt := m } f = getF s f := rfl

/-- Settles O21: a write of one bit is one bell or one release, and each reset of the link ends in `endpointReset`. -/
theorem mailboxAndEndpoint : Obligations.MailboxAndEndpoint := by
  refine ⟨?bell, ?bellInUse, ?release, ?releaseNone, ?clear, ?msix, ?reset, ?falls, ?rises⟩
  case bell =>
    intro s n hn hl hfree
    refine needs_eq_next rfl ((onWindow_of_linkUp hl _).trans ((doorbell_two_pow s hn).trans ?_))
    exact if_neg (not_not.mpr hfree)
  case bellInUse =>
    intro s n hn hl hused
    exact needs_eq_next rfl ((onWindow_of_linkUp hl _).trans ((doorbell_two_pow s hn).trans (if_pos hused)))
  case release =>
    intro s n hn hl hstands
    exact needs_eq_next rfl ((onWindow_of_linkUp hl _).trans ((releaseSlots_two_pow s hn).trans (if_pos hstands)))
  case releaseNone =>
    intro s n hn hl hnone
    exact needs_eq_next rfl ((onWindow_of_linkUp hl _).trans ((releaseSlots_two_pow s hn).trans (if_neg hnone)))
  case clear =>
    intro s b hl
    refine ⟨_, needs_eq_next rfl (onWindow_of_linkUp hl _), ?_⟩
    have hlt : getF s Reg.mbxIntStatusSlot - Nat.land (getF s Reg.mbxIntStatusSlot) b.toNat < 2 ^ Reg.mbxIntStatusSlot.w :=
      Nat.lt_of_le_of_lt (Nat.sub_le ..) (getF_lt ..)
    simp only [getF_commit, intStatusWrite]
    split
    · rw [getF_setF_same, Nat.mod_eq_of_lt hlt]
    · rw [getF_mbxVector, getF_setF_same, Nat.mod_eq_of_lt hlt]
  case msix =>
    intro s hl hbm hslot hq
    refine needs_eq_next rfl ?_
    rw [hl, hbm]
    simp only [Bool.not_true, Bool.false_and, Bool.or_false, Bool.false_eq_true, if_false, getF_of_mgmt, hslot, if_true]
    refine foldl_eq_self fun q hmem => if_pos ?_
    exact List.isEmpty_iff.mpr (hq q (List.mem_range.mp hmem))
  case reset =>
    intro s hl
    refine ⟨_, exec_pcieLinkReset hl, rfl, rfl, rfl, grantLevel_grantDrop _, ?_⟩
    exact congrArg (·.slots) (logEv_mgmt s srcMgmt .mgmtLinkDown noUnit [])
  case falls =>
    intro s hp
    have hne : ¬ false = s.pins.perstN := by simp [hp]
    refine ⟨_, needs_eq_next rfl ((if_neg hne).trans (if_neg Bool.false_ne_true)), ?_⟩
    cases hl : s.mgmt.linkUp with
    | false => exact ⟨rfl, rfl⟩
    | true =>
      simp only [commit_mgmt, commit_pins, if_true, grantDrop, setF_mgmt, setF_pins, logEv_mgmt, logEv_pins, and_self]
  case rises =>
    intro s hp hd hin
    have hne : ¬ true = s.pins.perstN := by simp [hp]
    refine ⟨_, needs_eq_next rfl ((if_neg hne).trans (if_pos rfl)), ?_, rfl, rfl, grantLevel_of_grantEnd_zero rfl⟩
    have hd' : domOn { s with pins.perstN := true } 124 = true := hd
    have hstart : (! s.start.inReset) = true := by rw [hin]; rfl
    exact Bool.and_eq_true _ _ ▸ ⟨hd', hstart⟩

end Sys2Proof.Machine
end

section
/-! PROOFS. Packets at the expected PSN (R54), acknowledgements (R56), connection control and the timers of connections
and paths (R58 to R60, R77 to R80). -/

namespace Sys2Proof.Machine

/-- A connection of a number stands in that number's slot. -/
theorem tget_of_connOf {s : State} {n : Nat} {c : Conn} (h : connOf s n = some c) : tget s.conns (connIdx n) = some c := by
  unfold connOf at h
  split at h
  · next x hx =>
    obtain ⟨-, hxc⟩ := Option.ite_none_right_eq_some.mp h
    exact hx.trans hxc
  · cases h

/-! ## A packet at the expected PSN -/

theorem psnBehind_self (a : Nat) : psnBehind a a = false := by simp [psnBehind]
theorem psnAhead_self (a : Nat) : psnAhead a a = false := by simp [psnAhead]

/-- A packet whose type row is in order is sequenced. -/
theorem WellPacked.unseq {k : Conn} {p : Pkt} (h : WellPacked k p) : p.unseq = false := by
  obtain ⟨-, hrow, -, -⟩ := h
  simp only [rowOk, Bool.and_eq_true, Bool.not_eq_true'] at hrow
  exact hrow.1.1

/-- Steps 6 to 13 for a well-formed, unsealed packet at the expected PSN, of a message not seen before within the span. -/
theorem receiveSeq_expected {s : State} {ci j : Nat} {k : Conn} {q : PathSt} {p : Pkt} {f : State → Nat → Nat → State}
    (hk : tget s.conns ci = some k) (hpsn : p.psn = q.rxE) (hpack : WellPacked k p) (hseal : p.seald = false)
    (hdone : msnBefore k.nextDone p.msn = false) (hspan : msnInSpan k.nextDone p.msn = true)
    (hnew : tget k.msgs p.msn = none) (hsec : isSecond s = false) :
    receiveSeq f s ci j k q p =
      ackAfter (advanceMsg (placeChunk (openMsg (consume s ci j) ci p) ci k.unit p) ci j p) ci j p.ackReq := by
  obtain ⟨hchain, hrow, hlen, hfault⟩ := hpack
  have hgood : (! (chainOk p && rowOk p && chunkLenOk k.unit p) || lengthFault p || sealMalformed s k p) = false := by
    simp [hchain, hrow, hlen, hfault, sealMalformed, hseal]
  have hsec' : isSecond (consume s ci j) = false := hsec
  simp only [receiveSeq, hpsn, psnBehind_self, psnAhead_self, hgood, hseal, Bool.false_eq_true, if_false, acceptPkt, hk,
    hsec, Bool.false_and, hdone, hspan, Bool.not_true, hnew, hsec']

/-- The packet of a request, a SEND or an MGMT message, not held back, comes to steps 6 to 13. -/
theorem receive_of_wellPacked {s : State} {p : Pkt} {k : Conn} {q : PathSt} (h : OnRoute s p k q)
    (hpack : WellPacked k p) (hearly : earlyOk s k p = true) (hwait : mustWait s p = false)
    (f : State → Nat → Nat → State) : receive f s p = receiveSeq f s (connIdx p.conn) (p.path % 4) k q p :=
  receive_sequenced h (by rw [hpack.unseq, Bool.false_and]) hearly hwait f

/-- A packet whose unit wakes is held back (R39). -/
theorem receive_of_mustWait {s : State} {p : Pkt} {k : Conn} {q : PathSt} (h : OnRoute s p k q)
    (hpack : WellPacked k p) (hearly : earlyOk s k p = true) (hwait : mustWait s p = true)
    (f : State → Nat → Nat → State) : receive f s p = { s with port.rxWait := s.port.rxWait ++ [p] } := by
  obtain ⟨htake, hconn, hk, hopen, hq, hup, hsrc, hport, hsub⟩ := h
  simp [receive, htake, hconn, hpack.unseq, hk, hopen, ConnSt.live, hearly, hq, hup, hsrc, hport, hsub, hwait]

/-- Every command of the statement but MGMT receives its packet. -/
theorem exec_eq_receive_of_ne_mgmt {c : Instr} {p : Pkt}
    (hc : c = .readReq p ∨ c = .writeReq p ∨ c = .writepReq p ∨ c = .flush p ∨ c = .cas64 p ∨ c = .fadd64 p ∨
      c = .cas128 p ∨ c = .send p ∨ c = .triggeredSend p ∨ c = .mgmt p)
    (hm : c ≠ .mgmt p) (hwf : wellFormed c = true) (s : State) :
    exec c s = .next (commit s (receive pathDown s p)) := by
  refine exec_eq_receive ?_ hwf s
  simpa only [or_assoc, hm, or_false] using hc

/-- Settles O26: the packet comes to step 6 (`receive_of_wellPacked`) and passes the steps (`receiveSeq_expected`). -/
theorem requestsAccepted : Obligations.RequestsAccepted := by
  intro c s p k q hc hwf hroute hpsn hearly hpack hseal hdone hspan hnew hsec hwait
  have hk : tget s.conns (connIdx p.conn) = some k := by
    obtain ⟨-, -, hconn, -⟩ := hroute
    exact tget_of_connOf hconn
  have hrx := (receive_of_wellPacked hroute hpack hearly hwait pathDown).trans
    (receiveSeq_expected hk hpsn hpack hseal hdone hspan hnew hsec)
  refine ⟨fun hm => ?_, ?_, fun w hw hroute' hearly' hm => ?_⟩
  · rw [exec_eq_receive_of_ne_mgmt hc hm hwf, hrx]
  · rintro rfl
    exact needs_eq_next hwf (by rw [hrx])
  · rw [exec_eq_receive_of_ne_mgmt hc hm hwf, receive_of_mustWait hroute' hpack hearly' hw]

/-! ## ACKs -/

namespace UnsequencedEvent

/-- The unsequenced EVENT with a PSN behind the one that its path expects. -/
def pktBehind : Pkt := { pkt with psn := 1 }

theorem onRoute_pktBehind : OnRoute state pktBehind conn path := by
  unfold OnRoute; decide +kernel

theorem exec_readReq_pktBehind : exec (.readReq pktBehind) state = .next (commit state state) := by
  rw [exec_eq_receive (.inl rfl) (by decide), receive_unsequencedEvent onRoute_pktBehind rfl]

theorem fifo_sendAck_ne : (sendAck state 2 0).port.fifo ≠ state.port.fifo := by decide +kernel

end UnsequencedEvent

open UnsequencedEvent in
/-- Refutes O28: READ_REQ also carries an EVENT (`wfReadReq`), and one with Unsequenced set stops at step 5 of Table 3-5
(`receive`): with PSN 1 on a path that expects 3 it draws no ACK. -/
theorem not_acknowledgements : ¬ Obligations.Acknowledgements := by
  rintro ⟨hbehind, -⟩
  have hack : exec (.readReq pktBehind) state = .next (commit state (sendAck state 2 0)) :=
    hbehind state pktBehind conn path (by decide) onRoute_pktBehind (by decide +kernel) (by decide +kernel) (by decide)
  rw [exec_readReq_pktBehind] at hack
  injection hack with hack
  exact fifo_sendAck_ne (congrArg (·.port.fifo) hack).symm

/-! ## Connection control -/

/-- Settles O30: each packet by the branch that ingress, its connection and its route choose. -/
theorem connectionControl : Obligations.ConnectionControl := by
  refine ⟨?connect, ?pathOpen, ?close, ?closeFreed, ?closed⟩
  case connect =>
    intro s p hwf htake hp
    exact needs_eq_next hwf (by rw [htake]; exact if_pos hp)
  case pathOpen =>
    intro s p c hwf htake hp hc hlive hopen
    exact needs_eq_next hwf (by simp [htake, hp, hc, hlive, hopen])
  case close =>
    intro s p k q hwf hroute
    have hun := unseqRoute_of_onRoute hroute
    obtain ⟨htake, hp, hk, hopen, -⟩ := hroute
    exact needs_eq_next hwf (by simp [htake, hp, hk, hun, hopen, ConnSt.live, ConnSt.isOpen])
  case closeFreed =>
    intro s p hwf htake hp hc
    exact needs_eq_next hwf (by simp [htake, hp, hc])
  case closed =>
    intro s p ci k q hwf htake hun
    exact needs_eq_next hwf (by rw [htake, hun])

/-! ## Timers -/

/-- What is done to a path rests on the path that stands there alone. -/
theorem modPath_congr {s : State} {ci j : Nat} {k : Conn} {q : PathSt} {f g : PathSt → PathSt}
    (hk : tget s.conns ci = some k) (hq : k.path j = some q) (h : f q = g q) : modPath s ci j f = modPath s ci j g := by
  have hq' : tget k.paths j = some q := hq
  simp [modPath, modConn, tmod, hk, hq', h]

/-- Settles O31: each timer by the entry it belongs to. -/
theorem connectionAndPathTimers : Obligations.ConnectionAndPathTimers := by
  refine ⟨?quiet, ?closedSent, ?closedNoPath, ?lastTry, ?again, ?held, ?lead, ?rtx, ?limit, ?ackDelay, ?rnr, ?msn, ?repeated⟩
  case quiet =>
    intro s n t c hwf hc hst hmsgs hresp hout _ hup
    exact needs_eq_next hwf (by simp [closeDrain, hc, hst, hmsgs, hresp, hout, hup])
  case closedSent =>
    intro s n t k c q l hwf hc hst hup
    exact needs_eq_next hwf (by simp only [closeDrain, hc, hst, hup])
  case closedNoPath =>
    intro s n t c hwf hc hst hup
    exact needs_eq_next hwf (by simp only [closeDrain, hc, hst, hup])
  case lastTry =>
    intro s n reason at_ c hwf hc hout
    exact needs_eq_next hwf (by simp only [hc, hout, if_true])
  case again =>
    intro s n reason tries at_ c hwf hc hout
    exact needs_eq_next hwf (by simp [hc, hout])
  case held =>
    intro s n t c hwf hc hst
    exact needs_eq_next hwf (by simp only [hc, hst])
  case lead =>
    intro s n t c hwf hc hlost hup
    exact needs_eq_next hwf (by simp [hc, hlost, hup])
  case rtx =>
    intro s n k t c q h l hwf hc hq ht hheld hle
    have hcount := modPath_congr (s := reach s t) (f := fun x => { x with retry := x.retry + 1 })
      (g := fun x => { x with retry := q.retry + 1 }) (tget_of_connOf hc) hq rfl
    refine needs_eq_next hwf ?_
    simp only [hc, hq, ht, hheld]
    rw [hcount]
    exact if_neg (Nat.not_lt.mpr hle)
  case limit =>
    intro s n k t c q hwf hc hq ht hlt
    refine needs_eq_next hwf ?_
    simp only [hc, hq, ht]
    exact if_pos hlt
  case ackDelay =>
    intro s n k t c q hwf hc hq ht
    exact needs_eq_next hwf (by simp [hc, hq, ht])
  case rnr =>
    intro s n k e t c q hwf hc hq ht
    exact needs_eq_next hwf (by simp [hc, hq, ht])
  case msn =>
    intro s n k e t c q hwf hc hq ht
    exact needs_eq_next hwf (by simp [hc, hq, ht])
  case repeated =>
    intro s n k c o l hwf hc hout hk
    exact needs_eq_next hwf (by simp only [hc, hout, hk])

end Sys2Proof.Machine
end

section
/-! PROOFS. Windows and priority flow control (R64 to R69), and the ports (R21, R43, R44, R460). -/

namespace Sys2Proof.Machine

/-! ## Windows and pauses -/

/-- Eight eighths are the whole window (Table 3-7). -/
theorem windowEighths_le (s : State) (c : Conn) : windowEighths s c ≤ 8 := by
  unfold windowEighths
  extract_lets worst base
  have hbase : base ≤ 8 := by
    unfold base
    split
    · omega
    · split <;> omega
  split
  · omega
  · split <;> omega

/-- Settles O32: each row by its branch, the windows by `windowEighths_le`. -/
theorem flowControl : Obligations.FlowControl := by
  refine ⟨?probeBytes, ?probePackets, ?restore, ?bounds, ?pause, ?unpause, ?expiry, ?refresh⟩
  case probeBytes =>
    intro s n k q c hwf hc hw hk
    exact needs_eq_next hwf (by simp [hc, hw, hk])
  case probePackets =>
    intro s n k q c hwf hc hw hk
    exact needs_eq_next hwf (by simp [hc, hw, hk])
  case restore =>
    intro s n c hwf hc hred hw
    exact needs_eq_next hwf (by simp [hc, hred, hw])
  case bounds =>
    intro s c
    have h := windowEighths_le s c
    refine ⟨h, ?_, ?_⟩
    · simp only [windowOf]; omega
    · simp only [windowOf]; omega
  case pause =>
    intro s sub prio quanta hwf hq
    refine ⟨_, needs_eq_next hwf rfl, ?_, rfl, rfl⟩
    exact (congrArg (tget · (occKey sub prio)) (if_neg hq)).trans (tget_tset_same ..)
  case unpause =>
    intro s sub prio hwf
    exact ⟨_, needs_eq_next hwf rfl, tget_tdel_same ..⟩
  case expiry =>
    intro s sub prio b hwf hb
    have hexec : exec (.pfcPauseExpiry sub prio) s = .next (commit s (showPfcRx
        { reach s b with port.rxPause := tdel s.port.rxPause (occKey sub prio) } sub prio)) :=
      needs_eq_next hwf (by rw [hb])
    exact ⟨_, hexec, tget_tdel_same .., Nat.le_max_right ..⟩
  case refresh =>
    intro s sub prio hwf hx hocc
    exact needs_eq_next hwf (by simp [hx, hocc])

/-! ## One bit of a field -/

theorem bit_eq_testBit (v n : Nat) : bit v n = v.testBit n := by
  rw [Nat.testBit_eq_decide_div_mod_eq, bit]
  rfl

theorem bit_putBit_same (v n : Nat) (b : Bool) : bit (putBit v n b) n = b := by
  have hpos := Nat.two_pow_pos n
  have hbit : bit v n = true ↔ v / 2 ^ n % 2 = 1 := beq_iff_eq
  unfold putBit
  cases b with
  | true =>
    rw [if_pos rfl]
    split
    · assumption
    · next h =>
      rw [hbit] at h
      simp only [bit, Nat.add_div_right _ hpos, beq_iff_eq]
      omega
  | false =>
    rw [if_neg Bool.false_ne_true]
    split
    · next h =>
      rw [hbit] at h
      have hle : 2 ^ n ≤ v := Nat.le_of_not_lt fun hlt => by simp [Nat.div_eq_of_lt hlt] at h
      have hdiv : (v - 2 ^ n) / 2 ^ n = v / 2 ^ n - 1 := Nat.sub_mul_div v (2 ^ n) 1 ▸ by rw [Nat.mul_one]
      simp only [bit, hdiv, beq_eq_false_iff_ne]
      omega
    · next h => exact Bool.eq_false_iff.mpr h

/-- A bit that is put reads back. -/
theorem bitF_putF_same (s : State) {f : Reg.Fld} {n : Nat} (h : n < f.w) (b : Bool) : bitF (putF s f n b) f n = b := by
  rw [bitF, putF, getF_setF_same, bit_eq_testBit, Nat.testBit_mod_two_pow, ← bit_eq_testBit, bit_putBit_same]
  simp [h]

/-! ## Ports -/

theorem wfHostLaneLoss_of_lt {n lane : Nat} (hn : n < 8) (hlane : lane < 8) : wfHostLaneLoss n lane = true := by
  simp [wfHostLaneLoss, hn, hlane]

/-- No held packet is a PFC frame: sending one marks nothing begun. -/
theorem markBegun_pfc (s : State) (prio quanta : Nat) : markBegun s (.pfc prio quanta) = s := by
  have hpath (l : List (Nat × PathSt)) : (l.map fun y => (y.1, { y.2 with held := y.2.held.map fun h => h })) = l := by
    simp
  simp [markBegun, isHeld]

/-- A sub-port's state stands at its own bits of its port's status. -/
theorem subFld_key (sub : Nat) : (subFld sub).key = (0xc1000 + 256 * (sub / 4)) * 64 + 8 + 4 * (sub % 4) := by
  have hlt := Nat.mod_lt sub (show 4 > 0 by decide)
  unfold subFld
  split
  · next h => rw [h]; rfl
  · next h => rw [h]; rfl
  · next h => rw [h]; rfl
  · next h₀ h₁ h₂ =>
    have h₃ : sub % 4 = 3 := by
      have : sub % 4 ≠ 0 := h₀
      have : sub % 4 ≠ 1 := h₁
      have : sub % 4 ≠ 2 := h₂
      omega
    rw [h₃]; rfl

theorem subFld_w (sub : Nat) : (subFld sub).w = 4 := by
  unfold subFld
  split <;> rfl

theorem quiet_subFld : ∀ sub < 32, quiet (subFld sub) = true := by decide +kernel

theorem subFld_key_ne_laneFail (sub n : Nat) : (subFld sub).key ≠ (Reg.hpPortStatusLaneFail n).key := by
  have hkey : (Reg.hpPortStatusLaneFail n).key = (0xc1000 + 256 * n) * 64 + 24 := rfl
  rw [subFld_key, hkey]
  omega

theorem subState_putF_laneFail (s : State) (sub n lane : Nat) (b : Bool) :
    subState (putF s (Reg.hpPortStatusLaneFail n) lane b) sub = subState s sub :=
  getF_putF_ne _ _ _ _ _ (subFld_key_ne_laneFail sub n)

theorem subState_setSub (s : State) (sub : Nat) {v : Nat} (h : v < 16) : subState (setSub s sub v) sub = v := by
  rw [subState, setSub, getF_setF_same, subFld_w]
  exact Nat.mod_eq_of_lt h

/-- With no connection a port event has no path to go by. -/
theorem sendView_portEvent {s : State} (h : s.conns = []) (sub code detail : Nat) :
    sendView (portEvent s sub code detail) = sendView s := by
  simp [portEvent, h]

/-- A lane that has not failed before, of a sub-port that runs narrower without it or else goes down (R44). -/
theorem laneLoss_of_new {s : State} {port lane k : Nat} (b : Bool)
    (hnew : bitF s (Reg.hpPortStatusLaneFail port) lane = false)
    (hk : (modeSubs (getF s (Reg.hpPortCfgMode port))).find?
      (fun k => (modeLanes (getF s (Reg.hpPortCfgMode port)) k).contains lane) = some k) :
    laneLoss s port lane b =
      if decide (getF s (Reg.hpPortCfgMode port) ≤ 1) && b &&
          (subState s (4 * port + k) == subUp || subState s (4 * port + k) == subQuiesced) then
        portEvent (logEv (if subState s (4 * port + k) = subUp then
            setSub (putF s (Reg.hpPortStatusLaneFail port) lane true) (4 * port + k) subDegraded
          else putF s (Reg.hpPortStatusLaneFail port) lane true) (srcPort port) .portDegraded noUnit
          [4 * port + k, getF s (Reg.hpPortCfgMode port) + 1]) (4 * port + k) 0x0301
          (getF s (Reg.hpPortCfgMode port) + 1)
      else subGoesDown (putF s (Reg.hpPortStatusLaneFail port) lane true) (4 * port + k) := by
  unfold laneLoss
  simp only [hnew, Bool.false_eq_true, if_false, hk, subState_putF_laneFail]

/-- The oldest frame that no pause holds leaves a crossing that runs (R21, R69). -/
theorem exec_frameTransmit {s : State} {x : Nat} {f : Frame} {rest : List Frame} (hwf : wfFrameTransmit x = true)
    (hup : (if x < 32 then subRuns s x || subState s x == subQuiesced else (ropeInst s (x - 32)).up) = true)
    (hfirst : takeFirst (fun f => ! paused s x f) ((tget s.port.fifo x).getD []) = some (f, rest)) :
    exec (.frameTransmit x) s = .next (commit s (deadlineCheck (markBegun { s with
      port.fifo := if rest.isEmpty then tdel s.port.fifo x else tset s.port.fifo x rest,
      port.wire := s.port.wire ++ [(x, f)] } f) f)) :=
  needs_eq_next hwf (by simp only [hup, if_true, hfirst])

/-- What the end of training makes of a sub-port and of the rung 2 that waited for it (R44, R460). -/
def trained (s : State) (sub mode : Nat) (cut : Bool) : State :=
  rungOk (portEvent (pitchEv (setSub s sub (if cut then subDegraded else subUp)) (srcPort (sub / 4)) .portRestored [sub, mode])
    sub 0x0303 mode) (fnKey 1 sub)

theorem exec_subportLinkUp {s : State} {sub : Nat} (hwf : wfSubportLinkUp sub = true) (hsd : s.fab.sdOk = true)
    (hmem : sub % 4 ∈ modeSubs (getF s (Reg.hpPortCfgMode (sub / 4))))
    (hst : subState s sub = subTraining ∨ subState s sub = subDown) :
    exec (.subportLinkUp sub) s = .next (commit s (trained s sub (getF s (Reg.hpPortCfgMode (sub / 4)))
      ((modeLanes (getF s (Reg.hpPortCfgMode (sub / 4))) (sub % 4)).any fun l =>
        bitF s (Reg.hpPortStatusLaneFail (sub / 4)) l))) := by
  refine needs_eq_next hwf (if_pos ?_)
  rcases hst with h | h <;> simp [hsd, hmem, h]

/-- With no connection, and no rung 2 of its own, a sub-port that has trained shows that it runs. -/
theorem subState_trained {s : State} {sub : Nat} (hsub : sub < 32) (mode : Nat) (cut : Bool) (hconns : s.conns = [])
    (hrung : (ladFn s (fnKey 1 sub)).rung = 0) :
    subState (trained s sub mode cut) sub = if cut then subDegraded else subUp := by
  have hview := sendView_portEvent (s := pitchEv (setSub s sub (if cut then subDegraded else subUp)) (srcPort (sub / 4))
    .portRestored [sub, mode]) hconns sub 0x0303 mode
  have hladder := congrArg State.ladder (sendCore_of_sendView hview)
  have hrung' : (ladFn (portEvent (pitchEv (setSub s sub (if cut then subDegraded else subUp)) (srcPort (sub / 4))
      .portRestored [sub, mode]) sub 0x0303 mode) (fnKey 1 sub)).rung = 0 := by
    rw [ladFn, show (portEvent _ sub 0x0303 mode).ladder = s.ladder from hladder]
    exact hrung
  rw [trained, rungOk, if_pos hrung', subState, getF_of_sendView hview (quiet_subFld sub hsub)]
  exact subState_setSub s sub (by cases cut <;> decide)

/-- In mode 0 every lane is the first sub-port's. -/
theorem modeSubs_zero_find : ∀ lane < 8, (modeSubs 0).find? (fun k => (modeLanes 0 k).contains lane) = some 0 := by decide

theorem quiet_laneFail : ∀ n < 8, quiet (Reg.hpPortStatusLaneFail n) = true := by decide

/-- Settles O33: the crossing by its oldest frame, a lane by `laneLoss_of_new`, training by its row. -/
theorem ports : Obligations.Ports := by
  refine ⟨?pfc, ?drop, ?oldest, ?narrower, ?down, ?trained, ?lane, ?up⟩
  case pfc =>
    intro s x prio quanta rest hx hruns hfifo
    have hwf : wfFrameTransmit x = true := by simp [wfFrameTransmit]; omega
    have hexec := exec_frameTransmit (s := s) hwf (by simp [hx, hruns]) (f := .pfc prio quanta) (rest := rest)
      (by simp [hfifo, takeFirst, paused])
    rw [markBegun_pfc] at hexec
    refine ⟨_, hexec, rfl, ?_, rfl⟩
    change (tget (if rest.isEmpty then tdel s.port.fifo x else tset s.port.fifo x rest) x).getD [] = rest
    split
    · next h => rw [tget_tdel_same, List.isEmpty_iff.mp h]; rfl
    · rw [tget_tset_same]; rfl
  case drop =>
    exact fun s n w hn => needs_eq_next (decide_eq_true hn) rfl
  case oldest =>
    intro s x f rest hwf hup hfirst
    exact exec_frameTransmit hwf hup hfirst
  case narrower =>
    intro s n lane k hn hlane hmode hnew hk hst
    refine needs_eq_next (wfHostLaneLoss_of_lt hn hlane) ((laneLoss_of_new true hnew hk).trans ?_)
    rw [if_pos (by simp [hmode, hst]), if_pos hst]
  case down =>
    intro s n lane k b hn hlane hnew hk hno
    refine needs_eq_next (wfHostLaneLoss_of_lt hn hlane) ((laneLoss_of_new b hnew hk).trans (if_neg ?_))
    rcases hno with hmode | hb
    · simp [Nat.not_le.mpr hmode]
    · simp [hb]
  case trained => exact fun s sub hwf hsd hmem hst => exec_subportLinkUp hwf hsd hmem hst
  case lane =>
    intro s n lane hn hlane hmode hnew hst hconns
    have hone : laneLoss s n lane true = portEvent (logEv (setSub (putF s (Reg.hpPortStatusLaneFail n) lane true) (4 * n)
        subDegraded) (srcPort n) .portDegraded noUnit [4 * n, 1]) (4 * n) 0x0301 1 := by
      have h := laneLoss_of_new (k := 0) true hnew (by rw [hmode]; exact modeSubs_zero_find lane hlane)
      rw [hmode, Nat.add_zero, if_pos (by simp [hst]), if_pos hst] at h
      exact h
    have hview := sendView_portEvent (s := logEv (setSub (putF s (Reg.hpPortStatusLaneFail n) lane true) (4 * n)
        subDegraded) (srcPort n) .portDegraded noUnit [4 * n, 1]) (by rw [logEv_conns]; exact hconns) (4 * n) 0x0301 1
    refine ⟨_, needs_eq_next (wfHostLaneLoss_of_lt hn hlane) hone, ?_, ?_⟩
    · have hq := quiet_subFld (4 * n) (by omega)
      exact (getF_of_sendView hview hq).trans ((getF_logEv _ _ _ _ _ _ (calm_of_quiet hq)).trans
        (subState_setSub _ _ (by decide)))
    · have hq := quiet_laneFail n hn
      rw [bitF, getF_commit, getF_of_sendView hview hq, getF_logEv _ _ _ _ _ _ (calm_of_quiet hq), setSub,
        getF_setF_ne _ _ _ _ (subFld_key_ne_laneFail _ _).symm]
      exact bitF_putF_same s hlane true
  case up =>
    intro s n hn hsd hmode hst hfail hconns hrung
    have hsub : 4 * n < 32 := by omega
    have hdiv : 4 * n / 4 = n := by omega
    have hmod : 4 * n % 4 = 0 := by omega
    have hcut : ((modeLanes 0 0).any fun l => bitF s (Reg.hpPortStatusLaneFail n) l) = false := by
      simp [bitF, hfail, bit]
    have hexec := exec_subportLinkUp (s := s) (sub := 4 * n) (decide_eq_true hsub) hsd
      (by rw [hdiv, hmod, hmode]; decide) (.inl hst)
    rw [hdiv, hmod, hmode, hcut] at hexec
    exact ⟨_, hexec, subState_trained hsub 0 false hconns hrung⟩

end Sys2Proof.Machine
end

section
/-! PROOFS. The budget's reservations (R97) and work requests (R113, R114). -/

namespace Sys2Proof.Machine

/-- The state once reservation `r`, with number `n`, has given up its place in time. -/
def placeGivenUp (s : State) (r : Resv) (n : Nat) : State :=
  { reach s r.until_ with ops.budgetQ := s.ops.budgetQ.filter (·.id != n) }

/-- The message of a reservation that expires ends in NAK BUDGET_FULL (R97). -/
theorem budgetExpiry_msg {s : State} {r : Resv} {n ci msn : Nat} {m : Msg}
    (hr : s.ops.budgetQ.find? (·.id == n) = some r) (hwho : r.who = .msg ci msn) (hm : msgOf s ci msn = some m) :
    budgetExpiry s n =
      let u := countRefusal (placeGivenUp s r n) (((rangeOf m.first).map (·.key)).getD 0)
      runAll (endMsg (sendNak u ci m.first.path nkBudgetFull 0 msn (budgetUsedMib u)) ci msn (.nak nkBudgetFull)) := by
  unfold msgOf at hm
  simp only [budgetExpiry, hr, hwho, placeGivenUp, msgOf, reach, hm]

/-- The work request of a reservation that expires fails (R97, R114). -/
theorem budgetExpiry_wr {s : State} {r : Resv} {n q slot : Nat} {x : Queue}
    (hr : s.ops.budgetQ.find? (·.id == n) = some r) (hwho : r.who = .wr q slot) (hx : queueOf s q = some x) :
    budgetExpiry s n = chainFail (countRefusal (placeGivenUp s r n) (wrDstKey (x.wr slot))) q slot .budgetFull := by
  unfold queueOf at hx
  simp only [budgetExpiry, hr, hwho, placeGivenUp, queueOf, reach, hx, Option.map_some, Option.getD_some]

/-- Settles O34: the reservation at the front by its two branches, a work request by the checks it passes. -/
theorem budgetAndWork : Obligations.BudgetAndWork := by
  refine ⟨?met, ?through, ?msgExpires, ?wrExpires, ?moves, ?notify, ?completes, ?fails⟩
  case met =>
    intro s r rest hq hw hfits
    exact needs_eq_next rfl (by simp only [budgetMet, hq, hw, hfits, Bool.false_eq_true, if_false, if_true])
  case through =>
    intro s r rest hq hw
    exact needs_eq_next rfl (by simp only [budgetMet, hq, hw, if_true])
  case msgExpires => exact fun s r n ci msn m hr hwho hm => needs_eq_next rfl (budgetExpiry_msg hr hwho hm)
  case wrExpires => exact fun s r n q slot x hr hwho hx => needs_eq_next rfl (budgetExpiry_wr hr hwho hx)
  case moves =>
    intro s o q x r regs rs hwf hq hr hstop hlive hdone hsec hrx hhand hop hlen hval hres
    refine needs_eq_next hwf ?_
    rcases hop with hop | hop
    · simp [wrStart, hq, hr, hstop, hlive, hdone, hsec, hrx, hhand, hop, hlen, hval, hres, woCopy, woWrite, woPush, woCheck, woNotify]
    · simp [wrStart, hq, hr, hstop, hlive, hdone, hsec, hrx, hhand, hop, hlen, hval, hres, woCopy, woWrite, woPush, woCheck, woNotify]
  case notify =>
    intro s q x r hwf hq hr hstop hlive hdone hsec hrx hhand hop
    refine needs_eq_next hwf ?_
    simp [wrStart, hq, hr, hstop, hlive, hdone, hsec, hrx, hhand, hop, wrLenOk, wrRegions, wrValidate, woCopy, woWrite, woPush, woCheck, woNotify]
  case completes => exact fun s q slot hwf hfin => needs_eq_next hwf (if_pos hfin)
  case fails => exact fun s q slot cause hwf hrun => needs_eq_next hwf (if_pos hrun)

end Sys2Proof.Machine
end

section
/-! PROOFS. The range's walker, segments, parked messages and markers (R124, R141, R142, R147, R156). -/

namespace Sys2Proof.Machine

/-- A segment that has been rebuilt counts as built. -/
theorem segBuilt_segLoad (s : State) (g : Nat) : segBuilt (segLoad s g) g = true := by
  have hshow (t : State) : (showRebuild t).range.built = t.range.built := by
    simp [showRebuild]
  simp [segBuilt, segLoad, hshow]

/-- Settles O36: the walker by its room and its candidate, each timer by the entry it belongs to. -/
theorem rangeWalk : Obligations.RangeWalk := by
  refine ⟨?evicts, ?rests, ?rebuilt, fun s => needs_eq_next rfl rfl, ?direct, ?marker⟩
  case evicts =>
    intro s part n hwf hfew hnext hcand hcls
    refine needs_eq_next hwf (congrArg runAll ?_)
    rw [walk, walkerRuns, decide_eq_true hfew, Bool.not_true, if_neg Bool.false_ne_true, hnext]
    exact (if_pos hcand).trans (if_pos hcls)
  case rests =>
    intro s part hwf hmany
    exact needs_eq_next hwf (congrArg runAll (if_pos (by simp [walkerRuns, hmany])))
  case rebuilt =>
    exact fun s g hwf hrun => ⟨needs_eq_next hwf (if_pos hrun), segBuilt_segLoad s g⟩
  case direct =>
    intro s c msn d k m x hwf hc hm hd hx hp hty
    exact needs_eq_next hwf (by simp only [hc, hm, hd, hx, hp, hty, beq_self_eq_true, Bool.and_self, if_true])
  case marker =>
    intro s n t hwf ht hmoved
    refine ⟨fun b hb => ?_, fun hnone => ?_⟩
    · refine needs_eq_next hwf ?_
      simp only [ht, if_neg hmoved, hb]
      rfl
    · exact needs_eq_next hwf (by simp only [ht, if_neg hmoved, hnone])

end Sys2Proof.Machine
end

section
/-! PROOFS. Camp: requests, refresh, the guard's counts and throttles, centring, moves and training (6). -/

namespace Sys2Proof.Machine

/-! ## Requests to camp and the entries of slabs -/

/-- A request to camp changes the queues of camp alone. -/
theorem campAskAt_frame (s : State) (write : Bool) (port : CampPort) (conn cls cpa : Nat) :
    ∃ q, campAskAt s write port conn cls cpa = { s with camp.q := q } := by
  unfold campAskAt
  extract_lets d key q r
  split
  · exact ⟨_, rfl⟩
  · split
    · exact ⟨s.camp.q, rfl⟩
    · exact ⟨_, rfl⟩

theorem campLines_frame (s : State) (write : Bool) (port : CampPort) (cls : Nat) (l : List Nat) :
    ∃ q, campLines s write port cls l = { s with camp.q := q } := by
  have hfold (l : List Nat) (s : State) :
      ∃ q, l.foldl (fun s n => campAsk s write port 0 cls n) s = { s with camp.q := q } := by
    induction l generalizing s with
    | nil => exact ⟨s.camp.q, rfl⟩
    | cons n l ih =>
      obtain ⟨q₁, h₁⟩ := campAskAt_frame s write port 0 cls (cpaOf s n)
      obtain ⟨q₂, h₂⟩ := ih { s with camp.q := q₁ }
      exact ⟨q₂, by rw [List.foldl_cons, campAsk, h₁, h₂]⟩
  exact hfold _ s

/-- A slab's entry is written, with a request to camp and a place in the translation cache. -/
theorem setSlab_frame (s : State) (n : Nat) (x : Slab) : ∃ q tc, setSlab s n x =
    { s with range.slabs := if x = {} then tdel s.range.slabs n else tset s.range.slabs n x, camp.q := q,
             range.tcache := tc } := by
  obtain ⟨q, h⟩ := campAskAt_frame
    { s with range.slabs := if x = {} then tdel s.range.slabs n else tset s.range.slabs n x } true .demand 0 0 (entryCpa n)
  have huse (t : State) : ∃ tc, cacheUse t (n / 8) = { t with range.tcache := tc } := ⟨_, rfl⟩
  obtain ⟨tc, htc⟩ := huse { s with
    range.slabs := if x = {} then tdel s.range.slabs n else tset s.range.slabs n x, camp.q := q }
  exact ⟨q, tc, (congrArg (cacheUse · (n / 8)) h).trans htc⟩

/-- A slab's entry reads as it was written. -/
theorem slabOf_setSlab_same (s : State) (n : Nat) (x : Slab) : slabOf (setSlab s n x) n = x := by
  obtain ⟨q, tc, h⟩ := setSlab_frame s n x
  rw [slabOf, h]
  by_cases hx : x = {}
  · simp [hx]
  · simp [hx]

theorem slabOf_campLines (s : State) (write : Bool) (port : CampPort) (cls : Nat) (l : List Nat) (n : Nat) :
    slabOf (campLines s write port cls l) n = slabOf s n := by
  obtain ⟨q, h⟩ := campLines_frame s write port cls l
  rw [h]
  rfl

theorem campLines_moves (s : State) (write : Bool) (port : CampPort) (cls : Nat) (l : List Nat) :
    (campLines s write port cls l).camp.moves = s.camp.moves := by
  obtain ⟨q, h⟩ := campLines_frame s write port cls l
  rw [h]

theorem setSlab_moves (s : State) (n : Nat) (x : Slab) : (setSlab s n x).camp.moves = s.camp.moves := by
  obtain ⟨q, tc, h⟩ := setSlab_frame s n x
  rw [h]

/-! ## Ranks and banks -/

@[simp] theorem rankSt_commit (s t : State) (k : Nat) : rankSt (commit s t) k = rankSt t k := rfl
@[simp] theorem bankSt_commit (s t : State) (b : Nat) : bankSt (commit s t) b = bankSt t b := rfl
@[simp] theorem campCh_commit (s t : State) (c : Nat) : campCh (commit s t) c = campCh t c := rfl

@[simp] theorem rankSt_setRank_same (s : State) (k : Nat) (r : RankSt) : rankSt (setRank s k r) k = r := by
  simp [rankSt, setRank]

theorem rankSt_setRank_ne (s : State) {k j : Nat} (r : RankSt) (h : j ≠ k) : rankSt (setRank s k r) j = rankSt s j := by
  simp [rankSt, setRank, tget_tset_ne _ _ h]

@[simp] theorem rankSt_issue (s : State) (k : Nat) (c : DdrCmd) (j : Nat) : rankSt (issue s k c) j = rankSt s j := rfl

@[simp] theorem bankSt_setBank_same (s : State) (b : Nat) (x : BankSt) : bankSt (setBank s b x) b = x := by
  simp [bankSt, setBank]

@[simp] theorem campCh_setCampCh_same (s : State) (c : Nat) (x : CampCh) : campCh (setCampCh s c x) c = x := by
  simp [campCh, setCampCh]

theorem campCh_of_ch {s t : State} (h : t.camp.ch = s.camp.ch) (c : Nat) : campCh t c = campCh s c := by
  rw [campCh, campCh, h]

theorem tget_tmod_same {α : Type} {t : Tab α} {n : Nat} {x : α} (f : α → α) (h : tget t n = some x) :
    tget (tmod t n f) n = some (f x) := by
  simp [tmod, h]

/-- ZQ calibration goes to the ranks in service of each subchannel, and to the DIMMs alone (R186). -/
theorem zqFold (l : List Nat) (s : State) :
    l.foldl (fun s k => if chState s (k / 2) == 2 then (ranksOf s k).foldl (fun s rk => issue s k (.zq (rk % 16))) s else s) s =
      { s with camp.issued := s.camp.issued ++ l.flatMap fun k =>
        if chState s (k / 2) == 2 then (ranksOf s k).map fun rk => (k, DdrCmd.zq (rk % 16)) else [] } := by
  have hranks (k : Nat) (r : List Nat) (s : State) :
      r.foldl (fun s rk => issue s k (.zq (rk % 16))) s =
        { s with camp.issued := s.camp.issued ++ r.map fun rk => (k, DdrCmd.zq (rk % 16)) } := by
    induction r generalizing s with
    | nil => simp
    | cons x r ih =>
      rw [List.foldl_cons, ih, List.map_cons, List.append_cons]
      rfl
  induction l generalizing s with
  | nil => simp
  | cons k l ih =>
    rw [List.foldl_cons, List.flatMap_cons]
    split
    · rw [hranks, ih]
      simp only [List.append_assoc]
      rfl
    · rw [ih]
      rfl

theorem quiet_campChStatusHot : ∀ ch < 16, calm (Reg.campChStatusHot ch) = true := by decide

/-- A slab that is CLEAN and has been copied off its frame stands in the new one (R191). -/
theorem frameMoved_of_clean {s : State} {n f : Nat} (hf : tget s.camp.moves n = some f) (hst : (slabOf s n).st = .clean) :
    (slabOf (frameMoved s n) n).frame = f ∧ tget (frameMoved s n).camp.moves n = none := by
  have hres : (slabOf (dropJobs { s with camp.moves := tdel s.camp.moves n } (· == .move n)) n).st.resident = true := by
    have hst' : (slabOf (dropJobs { s with camp.moves := tdel s.camp.moves n } (· == .move n)) n).st = .clean := hst
    rw [hst']
    rfl
  simp only [frameMoved, hf, hres, if_true]
  refine ⟨?_, ?_⟩
  · rw [slabOf_campLines, slabOf_setSlab_same]
  · rw [campLines_moves, setSlab_moves]
    split
    · exact tget_tdel_same ..
    · exact tget_tdel_same ..

/-! ## One command slot (R169) -/

/-- A subchannel as its command slot finds it: whistles measured, throttled operations marked, the drain of its writes
decided. -/
def commandSlotReady (s : State) (k : Nat) : State :=
  let u := markThrottled (measure s) k
  let q := subQ u k
  setSubQ u k { q with drain := decide (getF u Reg.campSchedCfgWqHigh ≤ q.wr.length) ||
    (q.drain && decide (getF u Reg.campSchedCfgWqLow < q.wr.length)) }

theorem ddrIssue_of_rankOne {s t : State} {k : Nat} (hst : chState s (k / 2) = 2) (h : rankOne (commandSlotReady s k) k = some t) :
    ddrIssue s k = t := by
  unfold commandSlotReady at h
  simp only [ddrIssue, hst, ne_eq, not_true_eq_false, if_false, h]

theorem ddrIssue_of_cand {s : State} {k : Nat} {l : List Cand} {x : Cand} (hst : chState s (k / 2) = 2)
    (hnone : rankOne (commandSlotReady s k) k = none)
    (h : (candRanks (commandSlotReady s k) k).findSome? (fun l =>
      (pickCand (commandSlotReady s k) (subQ (commandSlotReady s k) k).ptr l).map fun x => (l, x)) = some (l, x)) :
    ddrIssue s k = serveCand (commandSlotReady s k) k l x := by
  unfold commandSlotReady at hnone h
  simp only [ddrIssue, hst, ne_eq, not_true_eq_false, if_false, hnone, h]
  rfl

/-- A whistle that has been raised for too long is lowered (R172). -/
theorem raised_whistleLong {s : State} {p : CampPort} {b : Nat} (hb : tget (measure s).camp.raised (whKey p) = some b)
    (hp : p ∈ (measure s).camp.whistle) : tget (whistleLong s p).camp.raised (whKey p) = none := by
  have hcount (t : State) (l : List Nat) : (l.foldl (fun s c => bumpF s (Reg.campChStatusWhLong c)) t).camp = t.camp := by
    induction l generalizing t with
    | nil => rfl
    | cons c l ih => exact (ih _).trans rfl
  unfold whistleLong
  generalize measure s = m at hb hp ⊢
  have hp' : m.camp.whistle.contains p = true := List.contains_iff_mem.mpr hp
  simp only [hb, hp', if_true, logEv_camp, hcount]
  exact tget_tdel_same ..

theorem subOf_div {ch sub : Nat} (h : wfDdrCommandIssue ch sub = true) : (ch * 2 + sub) / 2 = ch := by
  simp only [wfDdrCommandIssue, Bool.and_eq_true, decide_eq_true_eq] at h
  omega

/-- A rank whose centring has taken 10 ms is urgent from then on (R186). -/
def escalated (s : State) (k : Nat) : State :=
  match tget s.camp.centring k with
  | some t =>
    { reach s (t + ms 10) with
      camp.urgent := if s.camp.urgent.contains k then s.camp.urgent else s.camp.urgent ++ [k] }
  | none => s

theorem escalated_of_centring {s : State} {k b : Nat} (h : tget s.camp.centring k = some b) :
    k ∈ (escalated s k).camp.urgent ∧ b + ms 10 ≤ (escalated s k).timebase := by
  simp only [escalated, h]
  refine ⟨?_, Nat.le_max_right ..⟩
  split
  · next hin => exact List.contains_iff_mem.mp hin
  · exact List.mem_append_right _ (List.mem_singleton_self k)

/-- Another rank's escalation keeps what is urgent, and takes the clock no further back. -/
theorem escalated_keeps (s : State) (k : Nat) :
    (∀ x ∈ s.camp.urgent, x ∈ (escalated s k).camp.urgent) ∧ s.timebase ≤ (escalated s k).timebase := by
  unfold escalated
  split
  · refine ⟨fun x hx => ?_, Nat.le_max_left ..⟩
    change x ∈ if s.camp.urgent.contains k then s.camp.urgent else s.camp.urgent ++ [k]
    split
    · exact hx
    · exact List.mem_append_left _ hx
  · exact ⟨fun x hx => hx, Nat.le_refl _⟩

/-! ## The statement -/

/-- Settles O37: each row by its branch. -/
theorem campRefreshAndTimers : Obligations.CampRefreshAndTimers := by
  refine ⟨?first, ?served, ?interval, ?mr4, ?refresh, ?hot, ?window, ?token, ?hold, ?zq, ?within, ?beyond, ?escalates,
    ?moved, ?whistle, ?t2, ?t1, ?t5, ?t6, ?clean, ?word⟩
  case first =>
    intro s t ch sub hwf hst k u q hrank
    exact needs_eq_next hwf (ddrIssue_of_rankOne (s := s) (k := ch * 2 + sub) (by rw [subOf_div hwf]; exact hst) hrank)
  case served =>
    intro s ch sub hwf hst k u q v hrank l x hx
    exact needs_eq_next hwf (ddrIssue_of_cand (s := s) (k := ch * 2 + sub) (by rw [subOf_div hwf]; exact hst) hrank hx)
  case interval =>
    intro s ch rank hwf hst hrank
    have hlow : ch * 2 * 16 + rank = ch * 32 + rank := by omega
    have hhigh : (ch * 2 + 1) * 16 + rank = ch * 32 + 16 + rank := by omega
    have hne : ch * 32 + rank ≠ ch * 32 + 16 + rank := by omega
    refine ⟨_, needs_eq_next hwf (if_pos (by simp [hst, hrank])), ?_, ?_, rfl⟩
    · rw [rankSt_commit, List.foldl_cons, List.foldl_cons, List.foldl_nil, hlow, hhigh, rankSt_setRank_ne _ _ hne,
        rankSt_setRank_same]
    · rw [rankSt_commit, List.foldl_cons, List.foldl_cons, List.foldl_nil, hlow, hhigh, rankSt_setRank_same,
        rankSt_setRank_ne _ _ hne.symm]
  case mr4 =>
    intro s ch rank b hwf hst hrank
    have hlow : ch * 2 * 16 + rank = ch * 32 + rank := by omega
    have hhigh : (ch * 2 + 1) * 16 + rank = ch * 32 + 16 + rank := by omega
    have hne : ch * 32 + rank ≠ ch * 32 + 16 + rank := by omega
    have hset (t : State) (f : Reg.Fld) (v : Bool) (k : Nat) : rankSt (setB t f v) k = rankSt t k := rfl
    refine ⟨_, needs_eq_next hwf (if_pos (by simp [hst, hrank])), ?_, ?_⟩
    · rw [rankSt_commit, hset, List.foldl_cons, List.foldl_cons, List.foldl_nil, hlow, hhigh, rankSt_setRank_ne _ _ hne,
        rankSt_issue, rankSt_setRank_same]
    · rw [rankSt_commit, hset, List.foldl_cons, List.foldl_cons, List.foldl_nil, hlow, hhigh, rankSt_setRank_same]
  case refresh =>
    intro s rk hrk hopen
    have hforce : rankSt (setRank s rk { rankSt s rk with force := true }) rk = { debt := 8, force := true } := by
      rw [rankSt_setRank_same, hrk]
    have hclosed (p : Nat → Bool) : preOpen (setRank s rk { rankSt s rk with force := true }) rk p = none := by
      simp [preOpen, setRank, hopen]
    simp only [dueRefresh, hforce, hclosed, List.isEmpty_nil, if_true]
    exact ⟨rfl, congrArg (·.debt) (rankSt_setRank_same _ rk (paid { debt := 8, force := true }))⟩
  case hot =>
    intro s ch d c hwf hd hnew hc
    have hch : ch < 16 := by
      simp only [wfDimmTempPoll, Bool.and_eq_true, decide_eq_true_eq] at hwf
      exact hwf.1.1
    refine ⟨_, needs_eq_next hwf ((if_pos (decide_eq_true hd)).trans (if_pos (by simp [hc, hnew]))), ?_, ?_⟩
    · rw [isSet_commit, isSet_logEv _ _ _ _ _ _ (quiet_campChStatusHot ch hch)]
      exact isSet_setB_same _ true (show 1 ≠ 0 by decide)
    · rw [campCh_of_ch (s := setCampCh s ch { campCh s ch with hotDimms := (campCh s ch).hotDimms ++ [d] }) (by simp),
        campCh_setCampCh_same]
      exact List.mem_append_right _ (List.mem_singleton_self d)
  case window =>
    intro s
    refine ⟨_, rfl, ?_, ?_⟩
    · intro x hx r hr
      obtain ⟨y, -, rfl⟩ := List.mem_map.mp hx
      obtain ⟨z, -, rfl⟩ := List.mem_map.mp hr
      rfl
    · exact List.map_map.trans rfl
  case token =>
    intro s b i x hwf hx
    refine ⟨_, _, needs_eq_next hwf (if_pos (by simp [thas, hx])), ?_, rfl⟩
    rw [bankSt_commit, bankSt_setBank_same]
    exact tget_tmod_same _ hx
  case hold =>
    intro s b i x hwf hx
    have hexec : exec (.rfgHoldExpiry b i) s = .next (commit s
        (setBank (reach s x.until_) b { bankSt s b with thr := tdel (bankSt s b).thr i })) :=
      needs_eq_next hwf (by simp only [hx])
    refine ⟨_, hexec, ?_, Nat.le_max_right ..⟩
    rw [bankSt_commit, bankSt_setBank_same]
    exact tget_tdel_same ..
  case zq =>
    intro s ch r hch hst hr hr'
    refine ⟨_, needs_eq_next rfl (zqFold (List.range 32) s), List.mem_append_right _ (List.mem_flatMap.mpr ?_)⟩
    have hk : ch * 2 / 2 = ch := by omega
    have hmod : (ch * 2 * 16 + r) % 16 = r := by omega
    refine ⟨ch * 2, List.mem_range.mpr (by omega), ?_⟩
    rw [hk, hst]
    refine List.mem_map.mpr ⟨ch * 2 * 16 + r, ?_, by rw [hmod]⟩
    exact List.mem_map.mpr ⟨r, List.mem_range.mpr (by rwa [hk]), rfl⟩
  case within =>
    intro s ch r ps hwf hst hr hps
    refine ⟨_, needs_eq_next hwf ((if_pos (by simp [hst, hr])).trans (if_neg (Nat.not_lt.mpr hps))), ?_, ?_⟩
    · have hne : ch * 32 + r ≠ ch * 32 + 16 + r := by omega
      change (tget (tdel (tdel s.camp.centring (ch * 32 + r)) (ch * 32 + 16 + r)) (ch * 32 + r)).isSome = false
      rw [tget_tdel_ne _ hne, tget_tdel_same]
      rfl
    · change ch * 32 + r ∉ s.camp.urgent.filter fun k => ! [ch * 32 + r, ch * 32 + 16 + r].contains k
      simp
  case beyond =>
    intro s ch r ps hwf hst hr hps
    exact needs_eq_next hwf ((if_pos (by simp [hst, hr])).trans (if_pos hps))
  case escalates =>
    intro s ch r b hwf hb
    have hexec : exec (.centringEscalation ch r) s =
        .next (commit s (escalated (escalated s (ch * 32 + r)) (ch * 32 + 16 + r))) := needs_eq_next hwf rfl
    obtain ⟨hin, hle⟩ := escalated_of_centring hb
    obtain ⟨hkeep, hlater⟩ := escalated_keeps (escalated s (ch * 32 + r)) (ch * 32 + 16 + r)
    exact ⟨_, hexec, hkeep _ hin, hle.trans hlater⟩
  case moved =>
    intro s n f hwf hf hst
    obtain ⟨hframe, hgone⟩ := frameMoved_of_clean hf hst
    exact ⟨_, needs_eq_next hwf rfl, hframe, hgone⟩
  case whistle =>
    intro s p b hb hp
    exact ⟨needs_eq_next rfl rfl, raised_whistleLong hb hp⟩
  case t2 =>
    intro s ch d hwf hst hstage hd
    exact needs_eq_next hwf (by simp [trainStage, hst, hstage, hd])
  case t1 =>
    intro s ch l hwf hst hstage
    exact needs_eq_next hwf (by simp [trainStage, hst, hstage])
  case t5 =>
    intro s ch g hwf hst hstage hg hlast hre
    exact needs_eq_next hwf (by simp [trainStage, hst, hstage, hg, trainT5, Nat.not_lt.mpr hlast, hre])
  case t6 =>
    intro s ch hwf hst hstage hrows
    have hdone : trainStage s ch .t6 = setF (setCampCh { s with
        camp.rank := s.camp.rank.filter (fun r => r.1 / 32 != ch), camp.open_ := s.camp.open_.filter fun b => b.1 / 1024 != ch }
        ch { campCh s ch with stage := 0, selfRef := false }) (Reg.campChStatusState ch) 2 := by
      simp [trainStage, hst, hstage, hrows]
    refine ⟨_, needs_eq_next hwf hdone, getF_setF_same _ (Reg.campChStatusState ch) 2, ?_⟩
    rw [campCh_commit]
    exact congrArg (·.selfRef) (campCh_setCampCh_same _ ch { campCh s ch with stage := 0, selfRef := false })
  case clean =>
    intro s cpa w p hwf hst hm hw
    refine needs_eq_next hwf ((if_pos (by simp [hst])).trans (congrArg runAll ?_))
    simp only [wordRead, hw]
    split
    · next l hl =>
      have hnone : s.code.merges.filter (· != l) = s.code.merges := by rw [hm]; rfl
      rw [hnone]
    · rfl
  case word =>
    intro s cpa w p hwf hst
    exact needs_eq_next hwf (if_pos (by simp [hst]))

end Sys2Proof.Machine
end

section
/-! PROOFS. The valley: reads and the verify pass, ends of programs and erases, and the page timers (7). -/

namespace Sys2Proof.Machine

/-! ## Replies leave the valley alone -/

@[simp] theorem partMessage_val (s : State) (ci ty : Nat) (exts : List Ext) (data : Bytes) (tag : Nat)
    (rec : Nat × Nat × Nat) (seald : Bool) (avoid : Option Nat) :
    (partMessage s ci ty exts data tag rec seald avoid).1.val = s.val :=
  congrArg (·.val) (sendCore_of_sendView (sendView_partMessage s ci ty exts data tag rec seald avoid))

@[simp] theorem deliver_val (s : State) (c : Chan) (r : Reply) : (deliver s c r).val = s.val := by
  unfold deliver
  split
  · simp only [apply_ite State.val, mbxVector_val, putF_val, setF_val, ite_self]
    rfl
  · split
    · split <;> simp
    · rfl
  · rfl

@[simp] theorem endTicket_val (s : State) (t : Nat) (tk : Ticket) : (endTicket s t tk).val = s.val := by
  unfold endTicket
  split <;> rfl

@[simp] theorem answer_val (s : State) (t status detail : Nat) (payload : Bytes) :
    (answer s t status detail payload).val = s.val := by
  unfold answer
  split
  · simp [finishTicket]
  · rfl

theorem answerJoined_val (s : State) (l : List Nat) (ok : Bool) : (answerJoined s l ok).val = s.val := by
  unfold answerJoined
  induction l generalizing s with
  | nil => rfl
  | cons t l ih =>
    rw [List.foldl_cons, ih]
    cases ok <;> exact answer_val ..

@[simp] theorem channelAnswers_val (s : State) (c : Nat) : (channelAnswers s c).val = s.val := by
  unfold channelAnswers rungOk rungEnd
  split
  · split
    · rfl
    · rw [answerJoined_val]; rfl
  · rfl

/-- The block of a place depends on the sizes of the NAND alone. -/
theorem vBlock_congr {s t : State} (h : t.val.dev = s.val.dev) (v : Nat) : vBlock t v = vBlock s v := by
  simp only [vBlock, blockAt, ppb, h]

/-! ## Reads -/

/-- A die without pages in use fails: nothing is relocated and nothing is rebuilt. -/
theorem failDie_of_empty {s u w : State} {d : Nat} (hd : (dieOf s d).failed = false)
    (hu : u = logEv (putF (setDie s d { dieOf s d with failed := true }) (Reg.valNvStatusFailedDies (d / 32)) (d % 32) true)
      (srcValley (d / 32)) .dieFailed (d % 32) [d / 32, d % 32] true)
    (hw : w = writeRoot u (rootStop u)) (hlive : diePagesLive u d = []) (hlive' : diePagesLive w d = []) :
    failDie s d = opCheck (journalRec (setB w Reg.valWearStatusRebuildActive (! w.val.rebuild.isEmpty)) (.dieFailed d)) := by
  have hsame : { u with val.rebuild := u.val.rebuild ++ [] } = u := by rw [List.append_nil]
  have hfail : failDie s d =
      let l := ((diePagesLive u d).flatMap fun v =>
        if ((tget u.val.pages v).map (·.parity)).getD false then parityOf u v else [v]).filter fun v => (slabAt u v).isSome
      let w := writeRoot { u with val.rebuild := u.val.rebuild ++ l.filter fun v => ! u.val.rebuild.contains v } (rootStop u)
      opCheck (journalRec
        ((diePagesLive w d).foldl relocate (setB w Reg.valWearStatusRebuildActive (! w.val.rebuild.isEmpty))) (.dieFailed d)) := by
    subst hu
    exact if_neg (by simp [hd])
  rw [hfail, hlive]
  simp only [List.flatMap_nil, List.filter_nil, hsame, ← hw, hlive', List.foldl_nil]

/-- Settles O38: a read goes by the level that it reached, and the verify pass by the pages that it has read. -/
theorem valleyReads : Obligations.ValleyReads := by
  unfold Obligations.ValleyReads
  refine ⟨?read, ?rebuilt, ?lost, ?down, ?again, ?empty, ?failed, ?raised, ?released, ?weak, ?sys, ?next, ?seen, ?last⟩
  case read =>
    intro s v cw bits level hwf h
    exact needs_eq_next hwf ((if_neg (by omega)).trans (if_pos h))
  case rebuilt =>
    intro s v cw bits level hwf h
    exact needs_eq_next hwf (by simp [valleyRead, h, levelNum])
  case lost =>
    intro s v cw bits level hwf h
    exact needs_eq_next hwf (by simp [valleyRead, h, levelNum])
  case down =>
    intro s v h
    cases hsound : stripeSound s v <;> simp [levelReached, h, hsound, levelNum]
  case again =>
    intro s d hwf h
    exact needs_eq_next hwf (if_pos h)
  case empty =>
    intro s d hwf h
    refine ⟨?_, fun hlive hlive' => needs_eq_next hwf (failDie_of_empty h rfl rfl hlive hlive')⟩
    simp [dieOf, setDie]
  case failed => exact fun s d hwf => needs_eq_next hwf rfl
  case raised => exact fun s d hwf h => needs_eq_next hwf (if_pos h)
  case released =>
    intro s v bits level hwf h
    have hnone : tget s.val.pages v = none := by simpa [thas] using h
    exact needs_eq_next hwf (by simp [verifyRead, hnone])
  case weak =>
    intro s v bits level x hwf hx hlive h₁ h₂
    exact needs_eq_next hwf (by simp [verifyRead, hx, hlive, verifyFound, h₁, h₂, Nat.ne_of_lt (Nat.lt_succ_of_lt h₂)])
  case sys =>
    intro s b n bits level hwf hsys hn h
    exact needs_eq_next hwf (by simp [verifyRead, hsys, Nat.not_le.mpr hn, h])
  case next =>
    intro s p hp hlen
    have hnext : verifyNext s p = setF { s with val.verified := s.val.verified ++ [p] } Reg.valWearStatusVerifyPassPct
        ((s.val.verified ++ [p]).length * 100 / passPages s) := by
      simp [verifyNext, hp, Nat.not_le.mpr hlen]
    rw [hnext]
    exact ⟨rfl, rfl⟩
  case seen =>
    intro s p hp hlen
    simp [verifyNext, hp, Nat.not_le.mpr hlen]
  case last =>
    intro s p hp hlen
    have hnext : verifyNext s p = setF { s with
        val.verified := [], val.verifyAt := max s.timebase (s.val.verifyAt + s.val.verifyDays * sec 86400),
        val.verifyDays := getF s Reg.valCfgVerifyDays, val.blocks := s.val.blocks.map fun b => (b.1, { b.2 with l4 := 0 }) }
        Reg.valWearStatusVerifyPassPct 0 := by
      simp [verifyNext, hp, hlen]
    rw [hnext]
    refine ⟨rfl, fun b hb => ?_, getF_setF_same ..⟩
    obtain ⟨b', -, rfl⟩ := List.mem_map.mp hb
    rfl

/-! ## Ends of programs and erases -/

theorem programDone_of_idle {s : State} {v : Nat} (ok : Bool) (pct : Nat)
    (h : tget s.val.progs v = none ∨ progRuns s v = false) : programDone s v ok pct = s := by
  obtain h | h := h <;> simp [programDone, h]

/-- A program that ran: it is timed, what it wrote stands, and its block is judged. -/
theorem programDone_of_runs {s : State} {v : Nat} {k : ProgKind} (pct : Nat) (hrun : progRuns s v = true)
    (hk : tget s.val.progs v = some k) :
    programDone s v true pct = runAll (opCheck (reclaim (wearCheck
      (slowOrFailed (programEnds (channelAnswers (programTimed s v pct) (vCh v)) v true k) (vBlock s v) true pct) (vDie v)))) := by
  have hblock : vBlock (channelAnswers (programTimed s v pct) (vCh v)) v = vBlock s v :=
    vBlock_congr (by rw [channelAnswers_val]; rfl) v
  simp [programDone, hrun, hk, hblock]

theorem slowOrFailed_of_good {s : State} {b pct : Nat} (h : pct ≤ 200) : slowOrFailed s b true pct = s := by
  simp [slowOrFailed, Nat.not_lt.mpr h]

theorem slowOrFailed_of_slow {s : State} {b pct : Nat} (ok : Bool) (h : 200 < pct) :
    slowOrFailed s b ok pct = retireBlock s b := by simp [slowOrFailed, h]

theorem eraseDone_of_runs {s : State} {b i : Nat} (pct : Nat) (hi : (blockOf s b).intent = some i)
    (hrun : (dieOf s (blockDie b)).run = some (.erase b)) :
    eraseDone s b true pct = runAll (opCheck (levelWear (wearCheck
      (slowOrFailed (eraseEnds (eraseTimed s b pct) b true) b true pct) (blockDie b)) (blockDie b))) := by
  simp [eraseDone, hi, hrun]

/-- An erase that ends leaves the pages of other blocks alone, and its own when it failed. -/
theorem eraseEnds_pages (s : State) (b : Nat) (ok : Bool) :
    (eraseEnds s b ok).val.pages = if ok then s.val.pages.filter fun p => vBlock s p.1 != b else s.val.pages := by
  have hend (u : State) (d : Nat) (w : DieWork) : (dieEnd u d w).val.pages = u.val.pages := by
    by_cases h : (dieOf u d).run = some w
    · rw [dieEnd, if_pos h]; rfl
    · rw [dieEnd, if_neg h]; rfl
  have hclosed (n : Nat) (p : Nat × Page) : vBlock (intentDone s n) p.1 = vBlock s p.1 := vBlock_congr rfl _
  have hpages (u : State) (x : Block) : (setBlock u b x).val.pages = u.val.pages := rfl
  rw [eraseEnds, hpages, hend]
  cases (blockOf s b).intent with
  | none => rfl
  | some n => simp only [hclosed]; rfl

theorem blockOf_eraseEnds (s : State) (b : Nat) (ok : Bool) :
    blockOf (eraseEnds s b ok) b = { blockOf s b with erases := (blockOf s b).erases + 1, intent := none, erased := ok } := by
  simp [eraseEnds, blockOf, setBlock]

/-- Settles O39: the program or erase that the die runs ends by its kind, and its block is judged by its time. -/
theorem valleyPrograms : Obligations.ValleyPrograms := by
  unfold Obligations.ValleyPrograms
  refine ⟨?idle, ?relocated, ?slow, ?parity, ?noErase, ?erased, ?slowErase, ?pages⟩
  case idle => exact fun s v pct ok hwf h => needs_eq_next hwf (programDone_of_idle ok pct h)
  case relocated =>
    intro s v pct n frm pg hwf hrun hk hpct
    exact needs_eq_next hwf (by rw [programDone_of_runs pct hrun hk, slowOrFailed_of_good hpct]; rfl)
  case slow =>
    intro s v pct k hwf hrun hk hpct
    exact needs_eq_next hwf (by rw [programDone_of_runs pct hrun hk, slowOrFailed_of_slow true hpct])
  case parity =>
    intro s v pct st hwf hrun hk
    have hblock : vBlock (programTimed s v pct) v = vBlock s v := vBlock_congr rfl v
    exact needs_eq_next hwf (by simp [programDone, hrun, hk, hblock, programEnds, slowOrFailed])
  case noErase =>
    intro s b pct ok hwf h
    exact needs_eq_next hwf (if_pos (by obtain h | h := h <;> simp [h]))
  case erased =>
    intro s b pct i hwf hi hrun hpct
    exact needs_eq_next hwf (by rw [eraseDone_of_runs pct hi hrun, slowOrFailed_of_good hpct])
  case slowErase =>
    intro s b pct i hwf hi hrun hpct
    exact needs_eq_next hwf (by rw [eraseDone_of_runs pct hi hrun, slowOrFailed_of_slow true hpct])
  case pages =>
    refine fun s b => ⟨fun p hp => ?_, blockOf_eraseEnds s b true, eraseEnds_pages s b false⟩
    rw [eraseEnds_pages, if_pos rfl] at hp
    exact bne_iff_ne.mp (List.mem_filter.mp hp).2

/-! ## Page timers -/

theorem tget_stripes_closeStripe {s : State} {k : Nat} (h : stripeBusy s k = false) :
    tget (closeStripe s k).val.stripes k = none := by
  rw [closeStripe, if_neg (by simp [h]), endStripe]
  split <;> exact tget_tdel_same ..

theorem foldl_applyJrec (l : List JRec) (s : State) :
    (l.foldl applyJrec s).val.jopen = s.val.jopen ∧ (l.foldl applyJrec s).val.jrnlSince = s.val.jrnlSince ∧
    (l.foldl applyJrec s).val.jnext = s.val.jnext ∧ (l.foldl applyJrec s).range = s.range := by
  induction l generalizing s with
  | nil => exact ⟨rfl, rfl, rfl, rfl⟩
  | cons r l ih =>
    rw [List.foldl_cons]
    obtain ⟨hopen, hsince, hnext, hrange⟩ := ih (applyJrec s r)
    refine ⟨hopen.trans ?_, hsince.trans ?_, hnext.trans ?_, hrange.trans ?_⟩ <;> cases r <;> rfl

/-- A root update changes the valley alone. -/
theorem programRoot_frame (s : State) (r : Root) : ∃ v, programRoot s r = { s with val := v } := by
  have hfold (k : Nat) (l : List Nat) (s : State) :
      ∃ v, l.foldl (fun s c => eraseSys 3 s (blockOn c 0 k)) s = { s with val := v } := by
    induction l generalizing s with
    | nil => exact ⟨s.val, rfl⟩
    | cons c l ih =>
      obtain ⟨v, h⟩ : ∃ v, eraseSys 3 s (blockOn c 0 k) = { s with val := v } := ⟨_, rfl⟩
      obtain ⟨v', h'⟩ := ih { s with val := v }
      exact ⟨v', by rw [List.foldl_cons, h, h']⟩
  by_cases h : s.val.rootPages < slcPages s
  · exact ⟨_, by rw [programRoot, if_pos h]⟩
  · obtain ⟨v, hv⟩ := hfold (1 - s.val.rootBlk) (List.range 4) s
    exact ⟨_, by simp only [programRoot, if_neg h, hv]; rfl⟩

/-- Records of the open table-log page are programmed: the valley alone changes. -/
theorem programTables_frame (s : State) (part : Bool) : ∃ v, programTables s part = { s with val := v } := by
  have himage (u : State) (old : Nat) : ∃ v, tableImage u old = { u with val := v } := by
    unfold tableImage
    split
    · exact ⟨u.val, rfl⟩
    · split
      · exact ⟨u.val, rfl⟩
      · obtain ⟨v, h⟩ := programRoot_frame _ _
        exact ⟨v, h⟩
  obtain ⟨v, h⟩ := himage _ s.val.tpage
  exact ⟨v, h⟩

theorem tableLog_frame (s : State) : ∃ v, tableLog s = { s with val := v } := by
  obtain ⟨v, h⟩ := programTables_frame _ false
  exact ⟨v, h⟩

/-- The last page of a logbook of at most one page holds every record. -/
theorem programLog_of_onePage {s : State} (hloaded : s.log.loaded = true) (hchanged : s.log.changed = true)
    (hlen : s.log.recs.length ≤ 255) : ∃ a p, programLog s =
      { s with log := { s.log with area := a, pageSeq := s.log.pageSeq + 1, changed := false } } ∧
      a.getLast? = some p ∧ p.page = 0 ∧ p.recs = s.log.recs ∧ p.seq = s.log.pageSeq := by
  have hk : (s.log.recs.length - 1) / 255 = 0 := Nat.div_eq_of_lt (by omega)
  have hprog : programLog s = { s with log := s.log.program 0 } := by simp [programLog, hloaded, hchanged, hk]
  refine ⟨_, _, hprog, (List.getLast?_drop ..).trans ((if_neg ?_).trans (List.getLast?_concat ..)), rfl, ?_, rfl⟩
  · rw [List.length_append, List.length_singleton]; omega
  · rw [Nat.zero_mul, List.drop_zero]
    exact List.take_of_length_le hlen

theorem sectorsErased_frame (s : State) (a n : Nat) :
    ∃ e r, sectorsErased s a n = { s with cairn.erases := e, regs := r } := ⟨_, _, rfl⟩

/-- A flush of the pitch logs appends its image to the images that the cairn keeps. -/
theorem flushPitch_frame (s : State) (cause : Nat) : ∃ e r i, flushPitch s cause = { s with
      regs := r, cairn.erases := e, cairn.images := (s.cairn.images ++ [i]).drop ((s.cairn.images ++ [i]).length - 6),
      cairn.lastFlush := some s.timebase, log.hoursCfg := s.log.hours } ∧ i.logs = s.plog ∧ i.cause = cause := by
  obtain ⟨e, r, h⟩ := sectorsErased_frame s (flushSector ((((s.cairn.images.getLast?).map (·.seq)).getD 0 + 1) % 6)) 81
  refine ⟨e, r, ?image, ?_⟩
  case image => exact {
    seq := ((s.cairn.images.getLast?).map (·.seq)).getD 0 + 1, nextSeq := s.log.next, cause, logs := s.plog,
    stamp := stampNow (sectorsErased s (flushSector ((((s.cairn.images.getLast?).map (·.seq)).getD 0 + 1) % 6)) 81),
    committed := (sectorsWritten s (flushSector ((((s.cairn.images.getLast?).map (·.seq)).getD 0 + 1) % 6)) 81).2 }
  refine ⟨?_, rfl, rfl⟩
  simp only [flushPitch, sectorsWritten, h]

/-- Six pitch-log images are kept, the newest last. -/
theorem newest_of_drop {α : Type} (l : List α) (i : α) : ((l ++ [i]).drop ((l ++ [i]).length - 6)).getLast? = some i ∧
    ((l ++ [i]).drop ((l ++ [i]).length - 6)).length ≤ 6 := by
  have hlen : (l ++ [i]).length = l.length + 1 := by simp
  constructor
  · rw [List.getLast?_drop, if_neg (by omega), List.getLast?_concat]
  · rw [List.length_drop]; omega

/-- Settles O40: what is open in the stores is written by its timer. -/
theorem storedTimers : Obligations.StoredTimers := by
  unfold Obligations.StoredTimers
  refine ⟨?stripe, ?journal, ?records, ?tables, ?logbook, ?unchanged, ?skipped, ?flushed⟩
  case stripe =>
    intro s k x hx
    exact ⟨needs_eq_next rfl (by rw [hx]), fun hbusy => tget_stripes_closeStripe hbusy⟩
  case journal => exact fun s b hb => needs_eq_next rfl (by rw [hb])
  case records => exact fun s => foldl_applyJrec _ _
  case tables =>
    intro s b hb
    obtain ⟨v, hlog⟩ := tableLog_frame (reach s (b + us 500))
    obtain ⟨v', htab⟩ := programTables_frame (tableLog (reach s (b + us 500))) true
    exact ⟨needs_eq_next rfl (by rw [hb]), by rw [htab, hlog]; rfl, by rw [htab, hlog]; rfl⟩
  case logbook =>
    intro s hloaded hchanged hne hlen
    obtain ⟨a, p, h, hlast, hpage, hrecs, hseq⟩ := programLog_of_onePage hloaded hchanged hlen
    exact ⟨_, p, needs_eq_next rfl h, hlast, hpage, hrecs, hseq, rfl, rfl⟩
  case unchanged =>
    intro s h
    exact needs_eq_next rfl (if_neg (by obtain h | h := h <;> simp [h]))
  case skipped =>
    intro s b hb hdue
    have hskip : flushHourly s = pitchEv (bumpF s Reg.valCairnStatusFlushSkipped) srcCairn .flushSkipped :=
      if_neg (by simp [hb, hdue])
    refine ⟨_, needs_eq_next rfl hskip, rfl, ?_⟩
    exact getF_bumpF_same s Reg.valCairnStatusFlushSkipped 1
  case flushed =>
    intro s b hb hdue
    have hflush : flushHourly s = flushPitch s 1 := if_pos (by simp [hb, hdue])
    obtain ⟨e, r, i, h, hlogs, hcause⟩ := flushPitch_frame s 1
    obtain ⟨hlast, hlen⟩ := newest_of_drop s.cairn.images i
    exact ⟨_, i, needs_eq_next rfl (hflush.trans h), hlast, hlogs, hcause, hlen.trans (Nat.le_max_left ..), rfl, rfl⟩

end Sys2Proof.Machine
end

section
/-! PROOFS. The cairn ROM service, and the protection of stored words: repairs, windows and scrubs (7, 8, 10). -/

namespace Sys2Proof.Machine

/-! ## The cairn ROM service -/

theorem csEnd_of_held {s : State} {sector tries max : Nat} (h : tries ≤ max) :
    csEnd s sector tries max = csStatus { s with cairn.weak := s.cairn.weak.filter (· != sector) } 0 := if_pos h

/-- A sector that does not hold its tries goes to a spare one. -/
theorem csEnd_of_remapped {s : State} {sector tries max : Nat} (h : max < tries)
    (hspare : 9 ≤ getF s Reg.valCairnStatusSparesLeft) : csEnd s sector tries max =
      csStatus (setF { s with
        cairn.remapped := s.cairn.remapped ++ [sector], cairn.weak := s.cairn.weak.filter (· != sector) }
        Reg.valCairnStatusSparesLeft (getF s Reg.valCairnStatusSparesLeft - 1)) 1 :=
  (if_neg (by omega)).trans ((if_neg (by omega)).trans (if_neg (by omega)))

theorem csEnd_of_noSpare {s : State} {sector tries max : Nat} (h : max < tries)
    (hspare : getF s Reg.valCairnStatusSparesLeft = 0) : csEnd s sector tries max =
      csStatus { s with cairn.weak := if s.cairn.weak.contains sector then s.cairn.weak else s.cairn.weak ++ [sector] } 2 :=
  (if_neg (by omega)).trans (if_pos hspare)

/-- An erase of a sector that holds its tries. -/
theorem csErase_of_held {s : State} {n tries : Nat} (hn : n < 4096) (hprot : csProtected s (n * 4096) = false)
    (htries : tries ≤ 3) : ∃ t, csErase s n tries = t ∧ t.cairn.status = 0 ∧
      t.cairn.rows = s.cairn.rows.filter (fun r => r.1 / 16 != n) ∧
      t.cairn.erases = tset s.cairn.erases n (tcnt s.cairn.erases n + 1) ∧ t.val = s.val ∧ t.log = s.log := by
  have hlost (u : State) : (areaLost u n).cairn.rows = u.cairn.rows ∧ (areaLost u n).cairn.erases = u.cairn.erases ∧
      (areaLost u n).val = u.val ∧ (areaLost u n).log = u.log := by
    unfold areaLost
    split
    · exact ⟨rfl, rfl, rfl, rfl⟩
    · split <;> exact ⟨rfl, rfl, rfl, rfl⟩
  have hbank (u : State) (b : Nat) (x : Bank) : (setBank2 u b x).cairn.rows = u.cairn.rows ∧
      (setBank2 u b x).cairn.erases = u.cairn.erases ∧ (setBank2 u b x).val = u.val ∧ (setBank2 u b x).log = u.log := by
    unfold setBank2
    split <;> exact ⟨rfl, rfl, rfl, rfl⟩
  rw [csErase, if_neg (by omega), if_neg (by simp [hprot])]
  refine ⟨_, csEnd_of_held htries, rfl, ?_⟩
  split
  · exact hbank ..
  · exact hlost _

theorem csProgram_of_allowed {s : State} {off : Nat} (d : Bytes) (tries : Nat) (halign : off % 256 = 0) (hoff : off < 0x1000000)
    (hprot : csProtected s off = false) : csProgram s off d tries =
      if (csEnd s (off / 4096) tries 4).cairn.status = 2
      then { csEnd s (off / 4096) tries 4 with cairn.rows := tdel (csEnd s (off / 4096) tries 4).cairn.rows (off / 256) }
      else { csEnd s (off / 4096) tries 4 with cairn.rows := tset (csEnd s (off / 4096) tries 4).cairn.rows (off / 256) d } :=
  (if_neg (by omega)).trans (if_neg (by simp [hprot]))

/-- Settles O41: each call of the service answers the status of its outcome. -/
theorem cairnService : Obligations.CairnService := by
  unfold Obligations.CairnService
  refine ⟨?erased, ?protect, ?outside, ?programmed, ?remapped, ?lost, ?verify, ?commit, ?badCommit, ?bank, ?oldBank, ?wear⟩
  case erased =>
    intro s n tries hn hprot htries
    obtain ⟨t, ht, hstatus, hrows, herases, hval, hlog⟩ := csErase_of_held hn hprot htries
    refine ⟨_, needs_eq_next rfl ht, hstatus, fun r hr => ?_, ?_, hval, hlog⟩
    · rw [commit_cairn, hrows] at hr
      exact bne_iff_ne.mp (List.mem_filter.mp hr).2
    · rw [commit_cairn, herases, tcnt, tget_tset_same]
      rfl
  case protect =>
    intro s n tries hn hprot
    exact needs_eq_next rfl ((if_neg (by omega)).trans (if_pos hprot))
  case outside => exact fun s n tries hn => needs_eq_next rfl (if_pos hn)
  case programmed =>
    intro s off tries d hwf halign hoff hprot htries
    exact needs_eq_next hwf (by rw [csProgram_of_allowed d tries halign hoff hprot, csEnd_of_held htries]; rfl)
  case remapped =>
    intro s off tries d hwf halign hoff hprot htries hspare
    have hlt : getF s Reg.valCairnStatusSparesLeft - 1 < 2 ^ Reg.valCairnStatusSparesLeft.w :=
      Nat.lt_of_le_of_lt (Nat.sub_le ..) (getF_lt ..)
    have hprog := csProgram_of_allowed d tries halign hoff hprot
    rw [csEnd_of_remapped htries hspare] at hprog
    exact ⟨_, needs_eq_next hwf hprog, rfl, rfl, (getF_setF_same ..).trans (Nat.mod_eq_of_lt hlt), rfl⟩
  case lost =>
    intro s off tries d hwf halign hoff hprot htries hspare
    have hprog := csProgram_of_allowed d tries halign hoff hprot
    rw [csEnd_of_noSpare htries hspare] at hprog
    refine ⟨_, needs_eq_next hwf hprog, rfl, tget_tdel_same .., ?_⟩
    have hweak : off / 4096 ∈ if s.cairn.weak.contains (off / 4096) then s.cairn.weak else s.cairn.weak ++ [off / 4096] := by
      split
      · next h => exact List.contains_iff_mem.mp h
      · exact List.mem_concat_self
    exact hweak
  case verify =>
    intro s off len g r hwf hlen
    exact needs_eq_next hwf (if_neg (by omega))
  case commit =>
    intro s n hn hrun
    have hcommit : csCommit s (.bank n) true = csStatus (setBank2 s n { bankOf s n with committed := true }) 0 :=
      (if_neg (by omega)).trans ((if_neg hrun).trans (if_pos rfl))
    refine ⟨_, needs_eq_next rfl hcommit, ?_⟩
    obtain rfl | rfl : n = 0 ∨ n = 1 := by omega
    · exact ⟨rfl, rfl, rfl⟩
    · exact ⟨rfl, rfl, rfl⟩
  case badCommit =>
    intro s n hn hrun
    exact needs_eq_next rfl ((if_neg (by omega)).trans ((if_neg hrun).trans (if_neg (by decide))))
  case bank => exact fun s b i hwf => needs_eq_next hwf rfl
  case oldBank =>
    intro s b i hwf hold
    exact needs_eq_next hwf (if_neg (by simp [bankOk, Nat.not_le.mpr hold]))
  case wear => exact fun s => needs_eq_next rfl rfl

/-! ## Repairs -/

/-- A line with good data is no longer poisoned. -/
theorem lineBad_lineGood (s : State) (l : Nat) (d : Bytes) : lineBad (lineGood s l d) l = false := by
  have hclean : (s.range.poison.filter (· != l)).contains l = false := by
    rw [← Bool.not_eq_true, List.contains_iff_mem, List.mem_filter]
    simp
  unfold lineGood
  extract_lets _ _ _ u
  split
  · obtain ⟨q, h⟩ := campAskAt_frame u true .demand 0 0 (cpaOf u l)
    rw [campAsk, h]
    exact hclean
  · exact hclean

theorem lineBad_poisonLine (s : State) (l : Nat) : lineBad (poisonLine s l) l = true := by
  have hmem : ∀ u : State, u = (if lineBad s l then s else { s with range.poison := s.range.poison ++ [l] }) →
      lineBad u l = true := by
    rintro u rfl
    split
    · next h => exact h
    · exact List.contains_iff_mem.mpr List.mem_concat_self
  unfold poisonLine
  extract_lets _ u n x
  split
  · exact hmem u rfl
  · obtain ⟨q, tc, h⟩ := setSlab_frame u n { x with pois := true }
    rw [h]
    exact hmem u rfl

/-! ## The patrol -/

/-- The next request of the patrol changes whether it is late, and the queues of camp. -/
theorem scrubAsk_frame (s : State) : ∃ b q, scrubAsk s = { s with code.late := b, camp.q := q } := by
  unfold scrubAsk
  extract_lets late _ u d k asked
  split
  · exact ⟨late, s.camp.q, rfl⟩
  · obtain ⟨q, h⟩ := campAskAt_frame u false .maint 0 0 u.code.patrol
    exact ⟨late, q, h⟩

theorem patrolNext_of_lt {s : State} (h : s.code.patrol + 64 < campGib s * 2 ^ 30) :
    ∃ r, patrolNext s = { s with code.patrol := s.code.patrol + 64, regs := r } := ⟨_, if_neg (by omega)⟩

/-- A channel out of service is passed over. -/
theorem scrubStep_of_skipped {s : State} (w : Bytes) (hen : isSet s Reg.campCodeCfgScrubEn = true) (hgib : campGib s ≠ 0)
    (hch : chState s (campLoc s s.code.patrol).ch ≠ 2) : scrubStep s w = scrubAsk (patrolNext (scrubTaken s)) :=
  (if_neg (by simp [hen, hgib])).trans (if_pos (bne_iff_ne.mpr hch))

/-- Whether a word that is read needed a correction. -/
def fixedWord : WordIs → Bool
  | .corrected _ => true
  | _ => false

/-- The word at the patrol's place is read, and written back when it was corrected. -/
theorem scrubStep_of_read {s : State} (w : Bytes) (hen : isSet s Reg.campCodeCfgScrubEn = true) (hgib : campGib s ≠ 0)
    (hch : chState s (campLoc s s.code.patrol).ch = 2) : scrubStep s w = runAll (scrubAsk (patrolNext
      (if fixedWord (decodeWord (w.map (·.toNat)) ((tget s.code.marked (rankKey (campLoc s s.code.patrol))).map (·.1)))
        then scrubWrite (wordRead (scrubTaken s) s.code.patrol w true) s.code.patrol
        else wordRead (scrubTaken s) s.code.patrol w true))) :=
  (if_neg (by simp [hen, hgib])).trans (if_neg fun h => bne_iff_ne.mp h hch)

/-- The first bad bit of an SRAM word within the window is counted. -/
theorem sramStep_of_single {s : State} {st : SramStore} (a : Nat) (hen : isSet s Reg.campCodeCfgScrubEn = true)
    (hlist : ((tget s.code.win.sram (sramKey st a)).getD []).filter (in24h s) ++ [s.timebase] = [s.timebase])
    (hthresh : 1 < getF s Reg.campCodeCfgSramThresh) : sramStep s st a 1 =
      bumpF { s with code.win.sram := tset s.code.win.sram (sramKey st a) [s.timebase] } Reg.fabSramStatusSecCorr := by
  have hkept (u : State) : getF (bumpF u Reg.fabSramStatusSecCorr) Reg.campCodeCfgSramThresh =
      getF u Reg.campCodeCfgSramThresh := getF_setF_ne _ _ _ _ (by decide)
  unfold sramStep
  rw [if_neg (by simp [hen]), if_pos rfl]
  simp only [hlist, hkept]
  exact if_neg (Nat.not_le.mpr hthresh)

/-- Settles O42: repaired lines, the windows of counts, the patrol, and the words of the SRAM stores. -/
theorem protection : Obligations.Protection := by
  unfold Obligations.Protection
  refine ⟨?good, ?page, ?lost, ?daily, ?hourly, ?off, ?skipped, ?read, ?single, ?double, ?slot, ?sound⟩
  case good =>
    intro s l k d hwf hk hne
    refine ⟨needs_eq_next hwf (congrArg runAll ?_), lineBad_lineGood ..⟩
    simp only [repairDone, hk]
  case page =>
    intro s l d hwf hk
    exact needs_eq_next hwf (by simp only [repairDone, hk])
  case lost =>
    intro s l k hwf hk hne
    refine ⟨needs_eq_next hwf (congrArg runAll ?_), lineBad_poisonLine ..⟩
    simp only [repairDone, hk]
  case daily =>
    intro s
    refine ⟨_, needs_eq_next rfl rfl, fun x hx => ?_, fun x hx => ?_, rfl, rfl⟩
    · obtain ⟨hx, hne⟩ := List.mem_filter.mp hx
      obtain ⟨x, -, rfl⟩ := List.mem_map.mp hx
      exact ⟨by simpa using hne, fun y hy => (List.mem_filter.mp hy).2⟩
    · obtain ⟨x, -, rfl⟩ := List.mem_map.mp (List.mem_filter.mp hx).1
      exact fun y hy => (List.mem_filter.mp hy).2
  case hourly =>
    intro s
    refine ⟨_, needs_eq_next rfl rfl, fun x hx => ?_, rfl⟩
    obtain ⟨x, -, rfl⟩ := List.mem_map.mp (List.mem_filter.mp hx).1
    exact fun y hy => (List.mem_filter.mp hy).2
  case off => exact fun s w hwf hen => needs_eq_next hwf (if_pos (by simp [hen]))
  case skipped =>
    intro s w hwf hen hch hlt
    have hgib : campGib s ≠ 0 := fun h => by simp [h] at hlt
    obtain ⟨q, htaken⟩ : ∃ q, scrubTaken s = { s with camp.q := q } := ⟨_, rfl⟩
    obtain ⟨r, hnext⟩ := patrolNext_of_lt (s := { s with camp.q := q }) hlt
    obtain ⟨b, q', hask⟩ := scrubAsk_frame { s with camp.q := q, code.patrol := s.code.patrol + 64, regs := r }
    have hstep := scrubStep_of_skipped w hen hgib hch
    rw [htaken, hnext, hask] at hstep
    exact ⟨_, needs_eq_next hwf hstep, rfl, rfl, rfl, fun a => memGet_memCanon _ a⟩
  case read =>
    intro s w hwf hen hgib hch
    have hstep := scrubStep_of_read w hen hgib hch
    refine ⟨fun e he => needs_eq_next hwf (hstep.trans ?_), fun hne => needs_eq_next hwf (hstep.trans ?_)⟩
    · rw [he, fixedWord, if_pos rfl]
    · have hfixed : fixedWord (decodeWord (w.map (·.toNat))
          ((tget s.code.marked (rankKey (campLoc s s.code.patrol))).map (·.1))) = false := by
        unfold fixedWord
        split
        · next e he => exact absurd he (hne e)
        · rfl
      rw [hfixed, if_neg Bool.false_ne_true]
  case single =>
    intro s st a hen hnone hthresh
    have hlist : ((tget s.code.win.sram (sramKey st a)).getD []).filter (in24h s) ++ [s.timebase] = [s.timebase] := by
      rw [hnone]; rfl
    have hstep := sramStep_of_single a hen hlist hthresh
    exact ⟨_, needs_eq_next rfl hstep, tget_tset_same .., rfl, rfl, getF_bumpF_same _ Reg.fabSramStatusSecCorr 1⟩
  case double =>
    intro s st a bad hen hbad
    exact needs_eq_next rfl ((if_neg (by simp [hen]; omega)).trans (if_neg (by omega)))
  case slot => exact fun s n => rfl
  case sound => exact fun s st a hen => needs_eq_next rfl (if_pos (by simp))

end Sys2Proof.Machine
end

section
/-! PROOFS. Fills, evictions and ways of summit; the cipher engine, roots and self-tests (9, 10). -/

namespace Sys2Proof.Machine

/-! ## Summit -/

theorem clearWay_of_empty {s : State} {w : Nat} (h : ∀ k ∈ tkeys s.sum.lines, k % 16 ≠ w) : clearWay s w = s := by
  have hnone : (tkeys s.sum.lines).filter (· % 16 == w) = [] :=
    List.filter_eq_nil_iff.mpr fun k hk => by simpa using h k hk
  rw [clearWay, hnone, List.foldl_nil]

/-- The walk at the head of the queue is shown in its two fields alone. -/
theorem getF_showWalk (s : State) {f : Reg.Fld} (h : f.key ≠ Reg.sumStatusCleaning.key)
    (h' : f.key ≠ Reg.sumStatusCleanWay.key) : getF (showWalk s) f = getF s f := by
  unfold showWalk
  split <;> rw [getF_setF_ne _ _ _ _ h', setB, getF_setF_ne _ _ _ _ h]

theorem showWalk_frame (s : State) : ∃ r, showWalk s = { s with regs := r } := by
  unfold showWalk
  split <;> exact ⟨_, rfl⟩

theorem showWalk_of_none {s : State} (h : s.sum.walks = []) :
    showWalk s = setF (setB s Reg.sumStatusCleaning false) Reg.sumStatusCleanWay 0 := by
  unfold showWalk
  rw [h]

/-- The last way of a walk that locks is clean: LOCK_WAYS holds. -/
theorem wayCleanDone_of_lastLock {s : State} {w v : Nat} (hwalks : s.sum.walks = [.lock w]) (hraise : s.sum.raising = some v)
    (hempty : ∀ k ∈ tkeys s.sum.lines, k % 16 ≠ w) :
    wayCleanDone s = showWalk (setF { s with sum.walks := [], sum.raising := none } Reg.sumCfgLockWays v) := by
  unfold wayCleanDone
  rw [hwalks]
  simp only [clearWay_of_empty hempty, hraise, List.any_nil, Bool.false_eq_true, if_false]

theorem wayCleanDone_of_off {s : State} {w : Nat} (hwalks : s.sum.walks = [.off w none])
    (hempty : ∀ k ∈ tkeys s.sum.lines, k % 16 ≠ w) :
    wayCleanDone s = showWalk (setDom (putF { s with sum.walks := [] } Reg.sumStatusWaysOn w false) (42 + w) false) := by
  unfold wayCleanDone
  rw [hwalks]
  simp only [clearWay_of_empty hempty]

theorem lockWaysSet_of_raised {s : State} {v : Nat} (hgood : lockWaysBad s v = false) (hv : lockWays s < v)
    (hraise : s.sum.raising = none) (hwalks : s.sum.walks = []) : lockWaysSet s v =
      showWalk { s with sum.raising := some v, sum.walks := (span (lockWays s + 1) (v + 1)).map Walk.lock } := by
  unfold lockWaysSet
  rw [if_neg (by simp [hgood])]
  simp only [hwalks, hraise, Nat.not_le.mpr hv, if_false, List.filter_nil, List.nil_append, Option.getD_none, Nat.max_zero]

/-- Settles O43: a fill, an eviction and a walk each end as their slot, their line and their way stand. -/
theorem summit : Obligations.Summit := by
  unfold Obligations.Summit
  refine ⟨?filled, ?gone, ?noFill, ?evicted, ?read, ?window, ?down, ?bad, ?raise, ?noWalk, ?locked, ?off⟩
  case filled =>
    intro s l key hwf hfill hev hzero hon hdis hstop
    refine needs_eq_next hwf ?_
    have hslot : (bitF s Reg.sumStatusWaysOn (key % 16) && ! zeroLine s l && ! s.code.disabled.contains key &&
        ! s.sum.stopped) = true := by simp [hon, hzero, hdis, hstop]
    unfold fillDone
    rw [hfill]
    exact (if_neg (by simp [hev])).trans (congrArg runAll (if_pos hslot))
  case gone =>
    intro s l key hwf hfill hev hout
    refine needs_eq_next hwf ?_
    have hslot : (bitF s Reg.sumStatusWaysOn (key % 16) && ! zeroLine s l && ! s.code.disabled.contains key &&
        ! s.sum.stopped) ≠ true := by
      obtain h | h | h := hout <;> simp [h]
    unfold fillDone
    rw [hfill]
    exact (if_neg (by simp [hev])).trans (congrArg runAll (if_neg hslot))
  case noFill =>
    intro s l hwf hfill
    exact needs_eq_next hwf (by simp only [fillDone, hfill])
  case evicted =>
    intro s l key hwf hev hfill
    refine needs_eq_next hwf ?_
    obtain ⟨q, h⟩ := campAskAt_frame (bumpF { s with sum.evicting := tdel s.sum.evicting l } Reg.sumEvictDirtyEvict) true .demand
      0 0 (cpaOf (bumpF { s with sum.evicting := tdel s.sum.evicting l } Reg.sumEvictDirtyEvict) l)
    have hfind : ((campAsk (bumpF { s with sum.evicting := tdel s.sum.evicting l } Reg.sumEvictDirtyEvict) true .demand
        0 0 l).sum.fills.find? fun x => x.2 == key) = none := by
      rw [campAsk, h]; exact hfill
    unfold evictAdmitted
    rw [hev]
    simp only [hfind]
  case read =>
    intro s l key f hwf hev hfill
    refine needs_eq_next hwf ?_
    obtain ⟨q, h⟩ := campAskAt_frame (bumpF { s with sum.evicting := tdel s.sum.evicting l } Reg.sumEvictDirtyEvict) true .demand
      0 0 (cpaOf (bumpF { s with sum.evicting := tdel s.sum.evicting l } Reg.sumEvictDirtyEvict) l)
    have hfind : ((campAsk (bumpF { s with sum.evicting := tdel s.sum.evicting l } Reg.sumEvictDirtyEvict) true .demand
        0 0 l).sum.fills.find? fun x => x.2 == key) = some f := by
      rw [campAsk, h]; exact hfill
    unfold evictAdmitted
    rw [hev]
    simp only [hfind]
  case window => exact fun s off d hwf hup => needs_eq_next hwf (if_pos hup)
  case down => exact fun s off d hwf hdown => needs_eq_next hwf (if_neg (by simp [hdown]))
  case bad => exact fun s v hbad => if_pos hbad
  case raise =>
    intro s v hgood hv hraise hwalks
    rw [lockWaysSet_of_raised hgood hv hraise hwalks]
    refine ⟨getF_showWalk _ (by decide) (by decide), ?_⟩
    obtain ⟨r, h⟩ := showWalk_frame
      { s with sum.raising := some v, sum.walks := (span (lockWays s + 1) (v + 1)).map Walk.lock }
    rw [h]
    exact ⟨rfl, rfl⟩
  case noWalk =>
    intro s hwalks
    exact needs_eq_next rfl (by simp only [wayCleanDone, hwalks])
  case locked =>
    intro s w v hwalks hraise hv hempty
    have hlt : v < 2 ^ Reg.sumCfgLockWays.w := Nat.lt_of_le_of_lt hv (by decide)
    have hdone := wayCleanDone_of_lastLock hwalks hraise hempty
    rw [showWalk_of_none rfl] at hdone
    refine ⟨_, needs_eq_next rfl hdone, ?_, rfl, rfl, ?_, rfl⟩
    · rw [lockWays, getF_commit, getF_setF_ne _ _ _ _ (by decide), setB, getF_setF_ne _ _ _ _ (by decide), getF_setF_same,
        Nat.mod_eq_of_lt hlt]
    · rw [isSet_commit, isSet_setF_ne _ _ (by decide), isSet_setB_same _ _ (by decide)]
  case off =>
    intro s w hwalks hw hempty
    have hmap : Reg.fabPdStatusMap ((42 + w) / 64) = Reg.fabPdStatusMap 0 := by
      rw [show (42 + w) / 64 = 0 by omega]
    have hdone := wayCleanDone_of_off hwalks hempty
    rw [showWalk_of_none rfl, setDom, hmap] at hdone
    refine ⟨_, needs_eq_next rfl hdone, ?_, ?_, rfl⟩
    · refine (congrArg (bit · w) ?_).trans (bitF_putF_same { s with sum.walks := [] } (f := Reg.sumStatusWaysOn) hw false)
      rw [getF_commit, getF_setF_ne _ _ _ _ (by decide), setB, getF_setF_ne _ _ _ _ (by decide), getF_putF_ne _ _ _ _ _ (by decide)]
    · rw [domOn, hmap]
      have hne : (42 + w == 0) = false := by simp
      rw [hne, Bool.false_or]
      refine (congrArg (bit · ((42 + w) % 64)) ?_).trans (bitF_putF_same (putF { s with sum.walks := [] } Reg.sumStatusWaysOn w false)
        (f := Reg.fabPdStatusMap 0) (Nat.mod_lt _ (by decide)) false)
      rw [getF_commit, getF_setF_ne _ _ _ _ (by decide), setB, getF_setF_ne _ _ _ _ (by decide)]
      rfl

/-! ## The cipher engine, roots and self-tests -/

theorem cipherDone_of_asleep {s : State} (ok : Bool) (h : cipherAwake s = false) : cipherDone s ok = s := by
  simp [cipherDone, h]

/-- A request whose slot's key is lost waits for it. -/
theorem cipherDone_of_keyLost {s : State} {r : CipherReq} {rest : List CipherReq} {k : KeySlot} (ok : Bool)
    (hq : s.key.queue = r :: rest) (hk : tget s.key.slots r.slot = some k) (hlost : k.keyLost = true)
    (hroot : thas s.key.roots k.root = true) : cipherDone s ok = s := by
  cases hawake : cipherAwake s with
  | false => exact cipherDone_of_asleep ok hawake
  | true => simp [cipherDone, hawake, hq, hk, hlost, hroot]

theorem mem_added (l : List Nat) (u : Nat) : u ∈ if l.contains u then l else l ++ [u] := by
  split
  · next h => exact List.contains_iff_mem.mp h
  · exact List.mem_concat_self

/-- Settles O44: the oldest request ends by its slot and its use; keys, roots and units as they are found. -/
theorem keys : Obligations.Keys := by
  unfold Obligations.Keys
  refine ⟨?empty, ?waits, ?title, ?unsealed, ?asleep, ?full, ?noSlot, ?derived, ?unwrapped, ?held, ?pipe, ?unit, ?unitOut,
    ?pipeOut⟩
  case empty =>
    intro s ok hq
    exact needs_eq_next rfl ((if_pos (by simp [hq])).trans (by simp [cipherDone, hq]))
  case waits =>
    intro s ok r rest k hq hk hlost hroot hlen
    exact needs_eq_next rfl ((if_pos hlen).trans (cipherDone_of_keyLost ok hq hk hlost hroot))
  case title =>
    intro s r rest k c m u ok hq hk hheld huse hawake hlen
    exact needs_eq_next rfl ((if_pos hlen).trans (by simp [cipherDone, hawake, hq, hk, hheld, huse]))
  case unsealed =>
    intro s r rest k t u ok hq hk hheld huse hawake hlen
    exact needs_eq_next rfl ((if_pos hlen).trans (by simp [cipherDone, hawake, hq, hk, hheld, huse]))
  case asleep =>
    intro s ok hawake hlen
    exact needs_eq_next rfl ((if_pos hlen).trans (cipherDone_of_asleep ok hawake))
  case full => exact fun s ok hlen => needs_eq_next rfl (if_neg (Nat.not_lt.mpr hlen))
  case noSlot =>
    intro s r rest c m u ok hq hk huse hawake hlen
    exact needs_eq_next rfl ((if_pos hlen).trans (by simp [cipherDone, hawake, hq, hk, cipherFails, huse]))
  case derived =>
    intro s n k r b hwf hk hr hb
    exact needs_eq_next hwf (by simp [Machine.derived, hk, hr, hb])
  case unwrapped =>
    intro s n r b hwf hr hnone hb
    exact needs_eq_next hwf (by simp [reunwrap, hr, hb, hnone])
  case held =>
    intro s n r hwf hr hsome
    refine needs_eq_next hwf ?_
    unfold reunwrap
    split
    · next r' b hr' hb =>
      obtain rfl : r = r' := Option.some.inj (hr.symm.trans hr')
      exact if_neg (by rw [Option.isNone_iff_eq_none]; exact fun h => by simp [h] at hsome)
    · rfl
  case pipe => exact fun s u hwf => needs_eq_next hwf rfl
  case unit =>
    intro s u hu
    have hwf : wfKnownAnswerTest u = true := decide_eq_true (by omega)
    exact needs_eq_next hwf ((if_neg (by simp [hu])).trans rfl)
  case unitOut =>
    intro s u hu
    have hwf : wfKnownAnswerTest u = true := decide_eq_true (by omega)
    have hout : selfTest s true u false = logEv { s with
          key.unitsOut := if s.key.unitsOut.contains u then s.key.unitsOut else s.key.unitsOut ++ [u] } srcCvu .selfTest u [u, tcnt s.key.unitPass u] true :=
      (if_neg (by simp [hu])).trans rfl
    refine ⟨_, needs_eq_next hwf hout, ?_, ?_⟩
    · rw [commit_key, logEv_key]; exact mem_added ..
    · rw [commit_key, logEv_key]
  case pipeOut =>
    intro s u hwf
    have hout : selfTest s false u false = logEv { s with
          key.pipesOut := if s.key.pipesOut.contains u then s.key.pipesOut else s.key.pipesOut ++ [u] } srcKey .selfTest u [u, tcnt s.key.pipePass u] true :=
      rfl
    refine ⟨_, needs_eq_next hwf hout, ?_, ?_⟩
    · rw [commit_key, logEv_key]; exact mem_added ..
    · rw [commit_key, logEv_key]

end Sys2Proof.Machine
end

section
/-! PROOFS. Rope frames, instances, fills and fetches (11). -/

namespace Sys2Proof.Machine

/-! ## Frames -/

theorem onFrame_of_taken {s u : State} {h : RopeHdr} {seqd : Bool} (f : State → State) (hin : ropeIn s h seqd = (u, true)) :
    onFrame s h seqd f = f u := by rw [onFrame, hin, if_pos rfl]

theorem onFrame_of_dropped {s u : State} {h : RopeHdr} {seqd : Bool} (f : State → State) (hin : ropeIn s h seqd = (u, false)) :
    onFrame s h seqd f = u := by rw [onFrame, hin, if_neg Bool.false_ne_true]

theorem ropeInst_setRopeInst_same (s : State) (i : Nat) (r : RopeInst) : ropeInst (setRopeInst s i r) i = r := by
  simp [ropeInst, setRopeInst]

theorem ropeInst_setRopeInst_ne (s : State) {i j : Nat} (r : RopeInst) (h : j ≠ i) :
    ropeInst (setRopeInst s i r) j = ropeInst s j := by
  simp [ropeInst, setRopeInst, tget_tset_ne _ _ h]

/-- What is sent unsequenced leaves its link of the rope as it is. -/
theorem ropeInst_ropeSendOn_unseq (s : State) (i : Nat) (b : RopeBody) :
    ropeInst (ropeSendOn s i false b) i = ropeInst s i := ropeInst_setRopeInst_same ..

theorem ropeSend_frame (s : State) (seqd : Bool) (b : RopeBody) :
    ∃ inst fifo, ropeSend s seqd b = { s with rope.inst := inst, port.fifo := fifo } := by
  unfold ropeSend
  split
  · exact ropeSendOn_frame ..
  · exact ⟨_, _, rfl⟩

/-- An acknowledgement releases held frames of its link; nothing else but the shown catch-up changes. -/
theorem ropeAcked_eq (s : State) (i ack : Nat) : ∃ n tm inst regs,
    ropeAcked s i ack = { s with rope.inst := inst, regs := regs } ∧ ropeInst (ropeAcked s i ack) i =
      { ropeInst s i with held := (ropeInst s i).held.filter (fun f => ! psnBehind f.seq ack), retry := n, timer := tm } := by
  have hshow (u : State) : ∃ regs, showCatchup u = { u with regs := regs } := by
    unfold showCatchup
    split <;> exact ⟨_, rfl⟩
  unfold ropeAcked
  extract_lets r h
  split
  · next hlen =>
    have hall : h = r.held := List.filter_eq_self.mpr (List.length_filter_eq_length_iff.mp hlen)
    exact ⟨r.retry, r.timer, s.rope.inst, s.regs, rfl, by rw [show (ropeInst s i).held.filter _ = _ from hall]⟩
  · obtain ⟨regs, hregs⟩ := hshow (setRopeInst s i
      { r with held := h, retry := 0, timer := if h.isEmpty then none else some (s.timebase + ropeRtx) })
    refine ⟨0, if h.isEmpty then none else some (s.timebase + ropeRtx), _, regs, hregs, ?_⟩
    rw [hregs]
    exact ropeInst_setRopeInst_same ..

/-- A frame of the part's own epoch at a link of the rope in service. -/
theorem ropeIn_of_ownEpoch {s : State} {h : RopeHdr} (seqd : Bool) (hup : (ropeInst s h.inst).up = true)
    (hreset : s.start.inReset = false) (hepoch : h.epoch = s.cairn.epoch) : ropeIn s h seqd =
      let t := ropeAcked s h.inst h.ack
      if ! seqd then (t, true)
      else if h.seq = (ropeInst t h.inst).rx then
        (ropeSendOn (setRopeInst t h.inst { ropeInst t h.inst with rx := psnNext (ropeInst t h.inst).rx }) h.inst false .ack, true)
      else (ropeSendOn t h.inst false .ack, false) := by
  have hnot : decide (s.cairn.epoch < h.epoch) = false := by simp [hepoch]
  unfold ropeIn
  rw [if_neg (by simp [hup, hreset]), if_neg (by simp [hepoch])]
  simp only [hnot, Bool.and_false, Bool.false_eq_true, if_false]

/-! ## Instances -/

/-- A return that goes on, or none, waits for nothing. -/
theorem returnOver_of_team {s t : State} (h : team t = team s) : returnOver s t = t := by
  refine if_neg ?_
  rw [h]
  cases hb : team s == teamReturning
  · simp
  · simp [bne, hb]

/-- A link of the rope that holds no frame goes down beside one that is up. -/
theorem instDown_of_otherUp {s : State} {i : Nat} (hi : i < 2) (hup : (ropeInst s i).up = true)
    (hother : (ropeInst s (1 - i)).up = true) (hheld : (ropeInst s i).held = []) : instDown s i =
      logEv (showInst (setRopeInst s i { up := false, lanes := (ropeInst s i).lanes })) srcRope .ropeInstDown i [i] true := by
  have hne : 1 - i ≠ i := by omega
  have hstill : (ropeInst (logEv (showInst (setRopeInst s i { up := false, lanes := (ropeInst s i).lanes }))
      srcRope .ropeInstDown i [i] true) (1 - i)).up = true := by
    rw [ropeInst, logEv_rope]
    exact (congrArg RopeInst.up (ropeInst_setRopeInst_ne s _ hne)).trans hother
  unfold instDown
  simp only [hup, hheld, moveFrames, List.foldl_nil, hstill, Bool.not_true, Bool.false_eq_true, if_false, if_true]

theorem instDown_of_down {s : State} {i : Nat} (h : (ropeInst s i).up = false) : instDown s i = s :=
  if_pos (by rw [h]; rfl)

/-! ## Fetches -/

theorem answerFetch_frame (s : State) (f : Fetch) :
    ∃ inst fifo, answerFetch s f = { s with rope.inst := inst, port.fifo := fifo } := by
  unfold answerFetch
  split <;> exact ropeSend_frame ..

/-- A fetch is answered alone, where the Lead has lost no group. -/
theorem answerFetches_single {s : State} {f : Fetch} {n : Nat} (hall : allApplied s = true) (hf : s.rope.fetches = [(f, n)])
    (hre : s.rope.recopy = []) :
    answerFetches s = { answerFetch { s with rope.fetches := [] } f with rope.recopy := [] } := by
  obtain ⟨inst, fifo, h⟩ := answerFetch_frame { s with rope.fetches := [] } f
  have hnone (l : List Nat) : (l.filter fun n => s.rope.recopy.contains (n / 64)) = [] := by simp [hre]
  unfold answerFetches
  rw [if_pos hall, hf, List.foldl_cons, List.foldl_nil]
  simp only [h, hnone, List.foldl_nil]

/-- The oldest wait ends at a record of a write of the part itself: its payload is there, or is asked for. -/
theorem fillWaitExpiry_of_write {s u : State} {i b x rel aop msn key addr status len digest : Nat} {rest : Tab Nat}
    {ap w sg : Bool} {res : Bytes} (hat : s.rope.fillAt = (i, b) :: rest)
    (hu : u = reach { s with rope.fillAt := tdel s.rope.fillAt i } b)
    (hrec : tget u.rope.recs i = some ⟨x, rel, .operation ap w sg tyWrite aop 0 msn key addr status len digest res⟩) :
    exec .fillWaitExpiry s = .next (commit s (if (recPayload u i 0 msn digest).1.isSome then u else
      ropeSend { bumpF u Reg.rlStatusFills with rope.filled := u.rope.filled ++ [i] } true (.fillReq [i]))) := by
  refine needs_eq_next rfl ?_
  split
  · next hcons =>
    cases hcons.symm.trans hat
    simp only [← hu, hrec, if_neg (show tyWrite ≠ tyAtomic by decide), if_true]
    rfl
  · next hnil => exact absurd (hnil.symm.trans hat) (List.cons_ne_nil _ _).symm

/-- The lines of a slab whose repair has not come in time. -/
theorem repairTimeout_of_lines {s u : State} {n b : Nat} {ls : List Nat} (hwf : wfRepairTimeout n = true)
    (hat : tget s.rope.repairAt n = some b) (hu : u = reach { s with rope.repairAt := tdel s.rope.repairAt n } b)
    (hls : (u.code.repairing.filter fun x => x.1 / 256 == n && x.2 == 4).map (·.1) = ls) :
    exec (.repairTimeout n) s = .next (commit s (runAll (logEv (bumpF
      (ls.foldl (fun s n => poisonLine { s with code.repairing := tdel s.code.repairing n } n) u)
      Reg.rlStatusRepairTimeouts) srcRope .repairTimeout noUnit [n]))) := by
  refine needs_eq_next hwf ?_
  split
  · next hsome =>
    cases hsome.symm.trans hat
    simp only [← hu, hls]
  · next hnone => exact absurd (hnone.symm.trans hat) (by simp)

/-- Settles O45: what a link of the rope takes and gives up, and what is filled and fetched over it. -/
theorem ropeFramesAndFills : Obligations.RopeFramesAndFills := by
  unfold Obligations.RopeFramesAndFills
  refine ⟨?down, ?oldEpoch, ?taken, ?dropped, ?acked, ?again, ?tooOften, ?noInst, ?instDown, ?oneDown, ?instUp, ?held,
    ?narrow, ?lost, ?lostDown, ?fill, ?fillRead, ?noPayload, ?filled, ?noRecord, ?asked, ?noWait, ?repair, ?later, ?line,
    ?answer, ?timeout, ?poisoned, ?noRepair⟩
  case down => exact fun s h b hdown => if_pos (by simp [hdown])
  case oldEpoch =>
    intro s h b hup hreset hold
    exact (if_neg (by simp [hup, hreset])).trans (if_pos hold)
  case taken =>
    intro s h hup hreset hepoch hseq
    obtain ⟨n, tm, inst, regs, hframe, hinst⟩ := ropeAcked_eq s h.inst h.ack
    have hrx : (ropeInst (ropeAcked s h.inst h.ack) h.inst).rx = (ropeInst s h.inst).rx := by rw [hinst]
    have hin := ropeIn_of_ownEpoch true hup hreset hepoch
    simp only [Bool.not_true, Bool.false_eq_true, if_false, hrx, ← hseq, if_true] at hin
    rw [hin]
    generalize ropeAcked s h.inst h.ack = u at hframe
    refine ⟨rfl, ?_, ?_, ?_⟩
    · rw [ropeInst_ropeSendOn_unseq, ropeInst_setRopeInst_same]
    · exact congrArg (·.conns) hframe
    · exact congrArg (·.tables) hframe
  case dropped =>
    intro s h hup hreset hepoch hseq
    obtain ⟨n, tm, inst, regs, hframe, hinst⟩ := ropeAcked_eq s h.inst h.ack
    have hrx : (ropeInst (ropeAcked s h.inst h.ack) h.inst).rx = (ropeInst s h.inst).rx := by rw [hinst]
    have hin := ropeIn_of_ownEpoch true hup hreset hepoch
    simp only [Bool.not_true, Bool.false_eq_true, if_false, hrx, hseq] at hin
    rw [hin]
    exact ⟨rfl, by rw [ropeInst_ropeSendOn_unseq, hrx]⟩
  case acked =>
    intro s h hwf hup hreset hepoch
    obtain ⟨n, tm, inst, regs, hframe, hinst⟩ := ropeAcked_eq s h.inst h.ack
    have hin : ropeIn s h false = (ropeAcked s h.inst h.ack, true) := ropeIn_of_ownEpoch false hup hreset hepoch
    refine ⟨_, needs_eq_next hwf (onFrame_of_taken id hin), ?_, ?_, ?_⟩
    · exact congrArg RopeInst.held hinst
    · exact congrArg (·.port) hframe
    · exact congrArg (·.tables) hframe
  case again =>
    intro s i b hwf htimer hup hretry
    refine needs_eq_next hwf ?_
    simp only [htimer]
    exact (if_neg (by simp [hup])).trans (if_neg (Nat.not_le.mpr hretry))
  case tooOften =>
    intro s i b hwf htimer hup hretry
    refine needs_eq_next hwf ?_
    simp only [htimer]
    exact (if_neg (by simp [hup])).trans (if_pos hretry)
  case noInst =>
    intro s i hwf hdown
    exact needs_eq_next hwf (by rw [instDown_of_down hdown, returnOver_of_team rfl])
  case instDown => exact fun s i hwf => needs_eq_next hwf rfl
  case oneDown =>
    intro s i hwf hup hother hheld
    have hi : i < 2 := of_decide_eq_true hwf
    have hgone := instDown_of_otherUp hi hup hother hheld
    have hfld {f : Reg.Fld} (hcalm : calm f = true) (hne : f.key ≠ Reg.rlStatusInstUp.key) :
        getF (Machine.instDown s i) f = getF s f := by
      rw [hgone, getF_logEv _ _ _ _ _ _ hcalm]
      exact getF_setF_ne _ _ _ _ hne
    have hteam : team (Machine.instDown s i) = team s := hfld (by decide) (by decide)
    refine ⟨_, needs_eq_next hwf (returnOver_of_team hteam), ?_, ?_, hteam, hfld (by decide) (by decide)⟩
    · rw [ropeInst, commit_rope, hgone, logEv_rope]
      exact congrArg RopeInst.up (ropeInst_setRopeInst_same s i _)
    · rw [ropeInst, commit_rope, hgone, logEv_rope]
      exact (congrArg RopeInst.up (ropeInst_setRopeInst_ne s _ (show 1 - i ≠ i by omega))).trans hother
  case instUp =>
    intro s i hwf hheld hsd hdown hreset
    exact needs_eq_next hwf (if_neg (by simp [hheld, hsd, hdown, hreset]))
  case held =>
    intro s i hwf h
    exact needs_eq_next hwf (if_pos (by obtain h | h | h | h := h <;> simp [h]))
  case narrow =>
    intro s i lane hwf hup hlanes
    have hstep : (let u := logEv s srcRope .ropeLaneLoss i [i, lane] true
        if true && (ropeInst s i).lanes != 4 then setRopeInst u i { ropeInst s i with lanes := 4 } else
          returnOver u (Machine.instDown u i)) =
        setRopeInst (logEv s srcRope .ropeLaneLoss i [i, lane] true) i { ropeInst s i with lanes := 4 } :=
      if_pos (by simpa using hlanes)
    refine ⟨_, needs_eq_next hwf ((if_neg (by simp [hup])).trans hstep), ropeInst_setRopeInst_same .., ?_⟩
    exact getF_logEv _ _ _ _ _ _ (by decide)
  case lost =>
    intro s i lane b hwf hup hwhy
    exact needs_eq_next hwf ((if_neg (by simp [hup])).trans (if_neg (by obtain h | h := hwhy <;> simp [h])))
  case lostDown => exact fun s i lane b hwf hdown => needs_eq_next hwf (if_pos (by simp [hdown]))
  case fill =>
    intro s u h i d hwf hin hd hsent
    refine needs_eq_next hwf ((onFrame_of_taken _ hin).trans ?_)
    simp [hd, hsent]
  case fillRead =>
    intro s u h i x rel ty aop conn msn key addr status len digest ap w sg res d hwf hin hd hsent
    refine needs_eq_next hwf ((onFrame_of_taken _ hin).trans ?_)
    simp [hd, hsent]
  case noPayload =>
    intro s u h i hwf hin hd
    refine needs_eq_next hwf ((onFrame_of_taken _ hin).trans ?_)
    simp [hd]
  case filled =>
    intro s u h i d hwf hin hsec hi hd hnew
    refine needs_eq_next hwf ((onFrame_of_taken _ hin).trans ((if_pos (by simp [hsec, hi])).trans ?_))
    simp only [hd, List.contains_iff_mem, hnew, if_false]
    rfl
  case noRecord =>
    intro s i b rest hat hrec
    refine needs_eq_next rfl ?_
    simp only [hat, reach, hrec]
  case asked =>
    intro s i b x rel aop msn key addr status len digest rest ap w sg res hat hrec
    have h := fillWaitExpiry_of_write hat rfl hrec
    refine ⟨fun hmiss => h.trans ?_, fun hhave => h.trans ?_⟩
    · rw [if_neg (by rw [hmiss]; decide)]
    · rw [if_pos hhave]
  case noWait =>
    intro s hat
    exact needs_eq_next rfl (by rw [hat])
  case repair =>
    intro s u h f hwf hin hf
    exact needs_eq_next hwf ((onFrame_of_taken _ hin).trans (if_pos hf))
  case later =>
    intro s u h f hwf hin hf hall
    exact needs_eq_next hwf ((onFrame_of_taken _ hin).trans ((if_neg (by simp [hf])).trans (if_neg (by
      rw [Bool.not_eq_true]; exact hall))))
  case line =>
    intro s u h f hwf hin hf hall hnone hre
    refine needs_eq_next hwf ((onFrame_of_taken _ hin).trans ((if_neg (by simp [hf])).trans ?_))
    exact answerFetches_single hall (congrArg (· ++ [(f, u.rope.applied)]) hnone) hre
  case answer => exact fun s u h f a hwf hin => needs_eq_next hwf (onFrame_of_taken _ hin)
  case timeout =>
    intro s n b hwf hat hnone u
    have hlist : (s.code.repairing.filter (fun x => x.1 / 256 == n && x.2 == 4)).map (·.1) = [] := by
      refine List.map_eq_nil_iff.mpr (List.filter_eq_nil_iff.mpr fun x hx => ?_)
      by_cases hn : x.1 / 256 = n
      · simp [hnone x hx hn]
      · simp [hn]
    have h := repairTimeout_of_lines (u := u) hwf hat rfl hlist
    rw [List.foldl_nil] at h
    exact h
  case poisoned =>
    intro s n b l hwf hat hone hl u v
    have hlist : (s.code.repairing.filter (fun x => x.1 / 256 == n && x.2 == 4)).map (·.1) = [l] := by
      simp [hone, hl]
    have h := repairTimeout_of_lines (u := u) hwf hat rfl hlist
    rw [List.foldl_cons, List.foldl_nil] at h
    exact h
  case noRepair =>
    intro s n hwf hat
    exact needs_eq_next hwf (by rw [hat])

end Sys2Proof.Machine
end

section
/-! PROOFS. The lease, the order stream at the Second, and how a team joins (11). -/

namespace Sys2Proof.Machine

/-! ## The lease -/

theorem exec_renew_rope (s : State) (h : RopeHdr) (n : Nat) :
    exec (.renew (.rope h) n) s = needs (wfRenew n) s (onFrame s h false fun s => renewed s n) := rfl

namespace RenewalAfterHandover

/-- A chain queue whose run has stopped. -/
def queue : Queue :=
  { owner := 0, oconn := 0, repeatMode := false, depth := 1, report := 0,
    run := some { first := 0, fin := 0, next := 0, trig := ⟨0, 0, []⟩, stopped := true } }

/-- A Lead that has sent HANDOVER, with that queue. -/
def state : State :=
  { setTeam (setRole State.reset roleLead) teamRoped with
    rope.handover := some 1, rope.inst := [(0, { up := true })], tables.queues := [(0, queue)] }

/-- A renewal of the twin that has taken the token: its epoch is one higher. -/
def hdr : RopeHdr := { epoch := 1 }

theorem ropeIn_state : (ropeIn state hdr false).2 = true ∧ isSecond (ropeIn state hdr false).1 = true := by decide +kernel

theorem run_renewed : ((renewed (ropeIn state hdr false).1 0).tables.queues.map fun q => q.2.run.isSome) ≠ [true] := by
  decide +kernel

end RenewalAfterHandover

open RenewalAfterHandover in
/-- Refutes O47: a Lead that has sent HANDOVER learns from the higher epoch of a renewal that its twin has taken the token, and
becomes Second before the renewal is taken (`ropeIn`, R334); that ends the run of a chain queue that had stopped, so the
tables are not those of before. -/
theorem not_lease : ¬ Obligations.Lease := by
  rintro ⟨hrenew, -⟩
  obtain ⟨htaken, hsecond⟩ := ropeIn_state
  have hin : ropeIn state hdr false = ((ropeIn state hdr false).1, true) := Prod.ext rfl htaken
  obtain ⟨t, hexec, -, -, -, -, htables⟩ := hrenew state _ hdr 0 (by decide) hin hsecond
  have hstep := (exec_renew_rope state hdr 0).trans (needs_eq_next (by decide) (onFrame_of_taken _ hin))
  obtain rfl : commit state (renewed (ropeIn state hdr false).1 0) = t := by
    rw [hstep] at hexec
    injection hexec
  refine run_renewed (Eq.trans ?_ (show state.tables.queues.map (fun q => q.2.run.isSome) = [true] from rfl))
  exact congrArg (fun x => x.queues.map fun q => q.2.run.isSome) htables

/-! ## The order stream -/

theorem applyNext_of_none {s : State} (want : OrderBody → Bool) (h : nextRec s = none) : applyNext s want = s := by
  simp only [applyNext, h]

theorem applyNext_of_unwanted {s : State} {r : OrderRec} {want : OrderBody → Bool} (h : nextRec s = some r)
    (hw : want r.body = false) : applyNext s want = s := by simp [applyNext, h, hw]

/-- A record of another kind than OPERATION is applied. -/
theorem applyNext_of_body {s : State} {r : OrderRec} {want : OrderBody → Bool} (h : nextRec s = some r)
    (hw : want r.body = true) (hop : ∀ ap w sg ty aop conn msn key addr st len dg res,
      r.body ≠ .operation ap w sg ty aop conn msn key addr st len dg res) :
    applyNext s want = appliedTo (applyBody s r.body) r.idx := by
  simp only [applyNext, h, hw, Bool.not_true, Bool.false_eq_true, if_false]

theorem applyNext_of_operation {s : State} {r : OrderRec} {ap w sg : Bool} {ty aop conn msn key addr st len dg : Nat}
    {res : Bytes} (h : nextRec s = some r) (hb : r.body = .operation ap w sg ty aop conn msn key addr st len dg res) :
    exec .operation s = .next (commit s
      (let o := applyOperation s r.idx ap ty aop conn msn key addr st len dg res
       if o.2 then appliedTo o.1 r.idx else o.1)) :=
  needs_eq_next rfl (by simp only [applyNext, h, hb, Bool.not_true, Bool.false_eq_true, if_false])

/-- A write whose payload is missing waits for it. -/
theorem applyOperation_of_missing {s : State} {idx conn msn key addr len dg : Nat} {f : Bool} (hlen : len ≠ 0)
    (hpay : recPayload s idx conn msn dg = (none, f)) :
    applyOperation s idx true tyWrite 0 conn msn key addr 0 len dg [] = (awaitFill s idx conn f, false) := by
  unfold applyOperation
  rw [if_neg (by simp [hlen]), if_neg (show tyWrite ≠ tyAtomic by decide), hpay]

/-- A write is applied at the Second once its payload is there. -/
theorem applyOperation_of_payload {s : State} {idx conn msn key addr len dg : Nat} {d : Bytes} {f : Bool} (hlen : len ≠ 0)
    (hpay : recPayload s idx conn msn dg = (some d, f)) (happ : (applyBytes s conn addr d).2 = true) :
    applyOperation s idx true tyWrite 0 conn msn key addr 0 len dg [] =
      (recordDone (applyBytes s conn addr d).1 conn msn (recPkt tyWrite conn msn key addr len), true) := by
  unfold applyOperation
  rw [if_neg (by simp [hlen]), if_neg (show tyWrite ≠ tyAtomic by decide), hpay]
  exact if_pos happ

theorem applyBytes_of_ready {s : State} {conn addr : Nat} {d : Bytes}
    (hready : (slabsOf addr d.length).all (applyReady s addr d.length) = true) (hthru : writeThrough s = true) :
    applyBytes s conn addr d = (destagePlan (writeRange s conn addr d), true) := by
  have hnone : ((slabsOf addr d.length).filter fun n => ! applyReady s addr d.length n) = [] := by
    refine List.filter_eq_nil_iff.mpr fun n hn => ?_
    simp [List.all_eq_true.mp hready n hn]
  simp [applyBytes, hnone, hthru]

/-- Settles O46: records are kept until they are next, and each is applied by its kind. -/
theorem orderStream : Obligations.OrderStream := by
  unfold Obligations.OrderStream
  refine ⟨?kept, ?dropped, ?notSecond, ?none, ?body, ?discarded, ?missing, ?written, ?confirmed, ?old⟩
  case kept =>
    intro s u h r hwf hin hsec hr hempty
    refine needs_eq_next hwf ((onFrame_of_taken _ hin).trans ((if_pos hsec).trans ?_))
    simp [hr, hempty, tset]
  case dropped => exact fun s u h l hwf hin => needs_eq_next hwf (onFrame_of_dropped _ hin)
  case notSecond =>
    intro s u h l hwf hin hsec
    exact needs_eq_next hwf ((onFrame_of_taken _ hin).trans (if_neg (by simp [hsec])))
  case none =>
    rintro s hn c (rfl | rfl | rfl | rfl | rfl | rfl | rfl | rfl)
    case inr.inr.inr.inr.inr.inr.inr => exact needs_eq_next rfl (by rw [hn])
    all_goals exact needs_eq_next rfl (applyNext_of_none _ hn)
  case body =>
    intro s r hn
    have happ {want : OrderBody → Bool} (hw : want r.body = true) (hop : ∀ ap w sg ty aop conn msn key addr st len dg res,
        r.body ≠ .operation ap w sg ty aop conn msn key addr st len dg res) := applyNext_of_body hn hw hop
    refine ⟨?command, ?topo, ?chain, ?partMsg, ?ivReserve, ?mark, ?handover, ?early⟩
    case command =>
      intro op tag who nums body hb
      exact ⟨needs_eq_next rfl (happ (by rw [hb]) (by simp [hb])),
        needs_eq_next rfl (applyNext_of_unwanted hn (by rw [hb]))⟩
    case topo =>
      intro n m hb
      exact needs_eq_next rfl ((happ (by rw [hb]) (by simp [hb])).trans (by rw [hb]; rfl))
    case chain =>
      intro q ev conn msn hb
      exact needs_eq_next rfl ((happ (by rw [hb]) (by simp [hb])).trans (by rw [hb]; rfl))
    case partMsg =>
      intro conn msn code qual detail p hb
      exact needs_eq_next rfl ((happ (by rw [hb]) (by simp [hb])).trans (by rw [hb]; rfl))
    case ivReserve =>
      intro conn limit hb
      exact needs_eq_next rfl ((happ (by rw [hb]) (by simp [hb])).trans (by rw [hb]; rfl))
    case mark =>
      intro b hb
      exact needs_eq_next rfl ((happ (by rw [hb]) (by simp [hb])).trans (by rw [hb]; rfl))
    case handover =>
      intro last hb hlast
      exact needs_eq_next rfl (by simp only [hn, hb, if_pos hlast])
    case early =>
      intro last hb hlast
      exact needs_eq_next rfl (by simp only [hn, hb, if_neg hlast])
  case discarded =>
    intro s r w sg ty aop conn msn key addr status len digest res hn hb
    rw [applyNext_of_operation hn hb]
    rfl
  case missing =>
    intro s r w sg conn msn key addr len digest f hlen hn hb hpay
    rw [applyNext_of_operation hn hb, applyOperation_of_missing hlen hpay]
    rfl
  case written =>
    intro s r w sg conn msn key addr len digest d hlen hn hb hpay hready hthru
    have happ := applyBytes_of_ready (conn := conn) hready hthru
    rw [applyNext_of_operation hn hb, applyOperation_of_payload hlen hpay (congrArg Prod.snd happ), happ]
    simp only [if_true]
  case confirmed =>
    intro s u h idx hwf hin hsec hlt hle hnone
    refine needs_eq_next hwf ((onFrame_of_taken _ hin).trans ((if_pos (by simp [hsec, hlt, hle])).trans ?_))
    exact congrArg handoverDone (if_neg (by simp [hnone]))
  case old =>
    intro s u h idx hwf hin hwhy
    refine needs_eq_next hwf ((onFrame_of_taken _ hin).trans (if_neg ?_))
    obtain h | h | h := hwhy
    · simp [h]
    · simp [Nat.not_lt.mpr h]
    · simp [Nat.not_le.mpr h]

end Sys2Proof.Machine
end

section
/-! PROOFS. HELLO and negotiation, catch-up, control frames, returns and the timers of a team (11). -/

namespace Sys2Proof.Machine

/-! ## Fields -/

theorem team_setF (s : State) {f : Reg.Fld} (v : Nat) (h : Reg.rlStatusState.key ≠ f.key) : team (setF s f v) = team s :=
  getF_setF_ne _ _ _ _ h

theorem role_setF (s : State) {f : Reg.Fld} (v : Nat) (h : Reg.rlStatusRole.key ≠ f.key) : role (setF s f v) = role s :=
  getF_setF_ne _ _ _ _ h

theorem role_commit (s t : State) : role (commit s t) = role t := rfl

theorem team_commit (s t : State) : team (commit s t) = team t := rfl

theorem role_logEv (s : State) (n : Nat) (e : Ev) (u : Nat) (d : List Nat) (p : Bool) : role (logEv s n e u d p) = role s :=
  getF_logEv _ _ _ _ _ _ (by decide)

theorem team_logEv (s : State) (n : Nat) (e : Ev) (u : Nat) (d : List Nat) (p : Bool) : team (logEv s n e u d p) = team s :=
  getF_logEv _ _ _ _ _ _ (by decide)

theorem team_order (s : State) (b : OrderBody) : team (order s b).1 = team s :=
  getF_of_sendView (sendView_order s b) (by decide)

/-! ## Catch-up -/

theorem catchupEnd_of_waiting {s : State} (h : s.rope.catchBuf.isEmpty = false) : catchupEnd s = s :=
  if_neg (by rw [h, Bool.and_false]; exact Bool.false_ne_true)

/-- A slab whose stamp has not been reached stays. -/
theorem installReady_of_early {s : State} {x : Nat × Bytes × List Nat × Nat} (hbuf : s.rope.catchBuf = [x])
    (h : s.rope.applied < x.2.2.2) : installReady s = s := by
  have hok : (decide (x.2.2.2 ≤ s.rope.applied) && (slabOf s x.1).st != .promoting) = false := by simp [Nat.not_le.mpr h]
  have hkeep : { s with rope.catchBuf := [x] } = s := by rw [← hbuf]
  simp only [installReady, hbuf, List.filter_cons, hok, Bool.false_eq_true, if_false, List.filter_nil, Bool.not_false, if_true,
    List.foldl_nil, hkeep]

theorem installReady_of_due {s : State} {x : Nat × Bytes × List Nat × Nat} (hbuf : s.rope.catchBuf = [x])
    (h : x.2.2.2 ≤ s.rope.applied) (hst : (slabOf s x.1).st ≠ .promoting) :
    installReady s = installSlab { s with rope.catchBuf := [] } x.1 x.2.1 x.2.2.1 := by
  have hok : (decide (x.2.2.2 ≤ s.rope.applied) && (slabOf s x.1).st != .promoting) = true := by simp [h, hst]
  simp only [installReady, hbuf, List.filter_cons, hok, Bool.false_eq_true, if_false, List.filter_nil, Bool.not_true, if_true,
    List.foldl_nil, List.foldl_cons]

/-! ## The timers of a team -/

/-- An ended hold that no message waits on. -/
theorem holdTimeExpiry_of_noMsg {s u : State} {i b : Nat} (hat : tget s.rope.hold i = some b)
    (hu : u = reach { s with rope.hold := tdel s.rope.hold i } b)
    (hnone : ∀ x ∈ u.conns, ∀ y ∈ x.2.msgs, ∀ r, y.2.st ≠ .rope i r) :
    exec (.holdTimeExpiry i) s = .next (commit s u) := by
  refine needs_eq_next rfl ?_
  simp only [hat, ← hu]
  refine foldl_eq_self fun x hx => foldl_eq_self fun y hy => ?_
  split
  · next k r hst => exact if_neg fun hk : k = i => hnone x hx y hy r (hk ▸ hst)
  · rfl

/-- Negotiation ends alone: the part opens single where it may. -/
theorem exec_negotiateTimeout {s u v : State} {b : Nat} (hat : s.rope.helloAt = some b)
    (hu : u = reach { s with rope.helloAt := none } b)
    (hv : (if team u != teamNegotiating then u
       else if isSet u Reg.rlCfgSoloOpen || u.start.soloOrdered then openSingle u
       else setF (logEv u srcRope .twinAbsent noUnit [] true) Reg.fabStartStatusWait 4) = v) :
    exec .negotiateTimeout s = .next (commit s v) := by
  refine needs_eq_next rfl ?_
  simp only [hat, ← hu]
  exact hv

/-- Settles O48: a team joins, copies and returns as its twins hear each other. -/
theorem teamJoin : Obligations.TeamJoin := by
  unfold Obligations.TeamJoin
  refine ⟨?hello, ?belay, ?served, ?wait, ?waits, ?late, ?solo, ?early, ?due, ?recopied, ?control, ?titles, ?return_,
    ?noReturn, ?holdoff, ?noHoldoff, ?noConn, ?noMsg, ?noHold, ?single, ?alone, ?marked, ?notLead⟩
  case hello =>
    intro s u r h hin
    refine needs_eq_next rfl ?_
    simp only [helloIn, hin, if_true]
  case belay =>
    intro s h hteam
    have hkeep : team (belayHeard s) = team s := team_setF _ _ (by decide)
    have hstep : helloIn s none h = belayHeard s :=
      if_neg (by rw [hkeep]; simp [hteam])
    have hup : isSet (belayHeard s) Reg.rlStatusBelayUp = true := isSet_setB_same _ _ (by decide)
    have hrole : role (belayHeard s) = role s := role_setF _ _ (by decide)
    exact ⟨_, needs_eq_next rfl hstep, hup, rfl, hkeep, hrole⟩
  case served =>
    intro s h hsec hopen hserv hloud
    simp [weigh, hsec, hopen, hserv, hloud]
  case wait =>
    intro s b hat hteam hsolo horder
    have hwait : ¬ (team s != teamNegotiating) = true := by simp [hteam]
    have hshut : ¬ (isSet s Reg.rlCfgSoloOpen || s.start.soloOrdered) = true := by simp [hsolo, horder]
    refine ⟨_, exec_negotiateTimeout hat rfl ((if_neg hwait).trans (if_neg hshut)), getF_setF_same _ Reg.fabStartStatusWait 4,
      ?_, ?_⟩
    · rw [role_commit, role_setF _ _ (by decide), role_logEv]; rfl
    · rw [team_commit, team_setF _ _ (by decide), team_logEv]; rfl
  case waits =>
    intro s b hat hteam hsolo horder
    have hwait : ¬ (team s != teamNegotiating) = true := by simp [hteam]
    have hshut : ¬ (isSet s Reg.rlCfgSoloOpen || s.start.soloOrdered) = true := by simp [hsolo, horder]
    exact exec_negotiateTimeout hat rfl ((if_neg hwait).trans (if_neg hshut))
  case late =>
    intro s b hat hteam
    exact exec_negotiateTimeout hat rfl (if_pos (bne_iff_ne.mpr hteam))
  case solo =>
    intro s b hat hteam hsolo
    have hwait : ¬ (team s != teamNegotiating) = true := by simp [hteam]
    have hopen : (isSet s Reg.rlCfgSoloOpen || s.start.soloOrdered) = true := by simp [hsolo]
    refine ⟨_, exec_negotiateTimeout hat rfl ((if_neg hwait).trans (if_pos hopen)), ?_,
      getF_setF_same _ Reg.rlStatusState teamSingle⟩
    rw [role_commit, openSingle, setTeam, role_setF _ _ (by decide)]
    exact getF_setF_same _ Reg.rlStatusRole roleSingle
  case early =>
    intro s u h n stamp d p hwf hin hsec hlt hbuf
    refine needs_eq_next hwf ((onFrame_of_taken _ hin).trans ((if_pos hsec).trans ?_))
    simp only [hbuf, List.nil_append]
    rw [installReady_of_early (s := { u with rope.catchBuf := [(n, d, p, stamp)] }) rfl hlt, catchupEnd_of_waiting rfl]
  case due =>
    intro s u h n stamp d p hwf hin hsec hle hbuf hst
    refine needs_eq_next hwf ((onFrame_of_taken _ hin).trans ((if_pos hsec).trans ?_))
    simp only [hbuf, List.nil_append]
    rw [installReady_of_due (s := { u with rope.catchBuf := [(n, d, p, stamp)] }) rfl hle hst]
  case recopied =>
    intro s u h n stamp d p hwf hin hsec hlead
    exact needs_eq_next hwf ((onFrame_of_taken _ hin).trans ((if_neg (by simp [hsec])).trans (if_pos hlead)))
  case control => exact fun s u h c hwf hin => needs_eq_next hwf (onFrame_of_taken _ hin)
  case titles => exact fun s l => rfl
  case return_ =>
    intro s u h hwf hin hrole hteam
    exact needs_eq_next hwf ((onFrame_of_taken _ hin).trans (if_pos (by simp [hrole, hteam])))
  case noReturn =>
    intro s u h hwf hin hteam
    exact needs_eq_next hwf ((onFrame_of_taken _ hin).trans (if_neg (by simp [hteam])))
  case holdoff =>
    intro s b hat hsec hteam hen hpref hclk
    refine needs_eq_next rfl ?_
    simp only [hat]
    exact if_pos (by simp [hsec, hteam, hen, hpref, hclk])
  case noHoldoff =>
    intro s hat
    exact needs_eq_next rfl (by rw [hat])
  case noConn =>
    intro s i b hat hconns
    exact holdTimeExpiry_of_noMsg hat rfl (show ∀ x ∈ s.conns, _ by rw [hconns]; simp)
  case noMsg => exact fun s i b hat hnone => holdTimeExpiry_of_noMsg hat rfl hnone
  case noHold =>
    intro s i hat
    exact needs_eq_next rfl (by rw [hat])
  case single =>
    intro s i b ci msn k m r hat hconns hmsgs hst
    refine needs_eq_next rfl ?_
    simp only [hat, reach, hconns, List.foldl_cons, List.foldl_nil, hmsgs, hst, if_true]
  case alone =>
    intro s hrole hloud hteam
    refine needs_eq_next rfl ((if_pos (by simp [hrole, hloud])).trans ?_)
    have hnot : ropeSynced s = false := by simp [ropeSynced, hteam]
    simp [hnot, hteam]
  case marked =>
    intro s hrole hloud hteam hhand u
    refine needs_eq_next rfl ((if_pos (by simp [hrole, hloud])).trans ?_)
    have hsync : ropeSynced s = true := by simp [ropeSynced, hrole, hteam]
    have hkeep : team u = teamRoped := (team_order s _).trans hteam
    simp only [hsync, hhand, Option.isNone_none, Bool.and_self, if_true]
    exact congrArg saveMap (if_pos (beq_iff_eq.mpr hkeep))
  case notLead => exact fun s hrole => needs_eq_next rfl (if_neg (by simp [hrole]))

end Sys2Proof.Machine
end

section
/-! PROOFS. The acceptance of commands, their timers, and the queries (14). -/

namespace Sys2Proof.Machine

/-! ## Acceptance -/

/-- A reply over I3C changes the I3C target alone. -/
theorem deliver_i3c (s : State) (r : Reply) :
    deliver s .i3c r = { s with i3c.replies := s.i3c.replies ++ [(r.final, r)], i3c.ibiPending := s.i3c.ibi } := rfl

/-- The ticket of a command that passes, accepted with a key at a time. -/
def newTicket (ch : Chan) (b : Bytes) (key : Option Bytes) (since : Nat) : Ticket :=
  { op := (cmdHdr b).op, level := (cmdHdr b).level, mgmt := (cmdHdr b).mgmt, ident := (cmdHdr b).ident, tag := (cmdHdr b).tag,
    fresh := (cmdHdr b).fresh, par := bsub b 32 (cmdHdr b).plen, chan := ch, key, since, aux := [] }

/-- A command that passes waits with its ticket. -/
theorem frontEnd_of_accepted {s u : State} {ch : Chan} {b : Bytes} {v : Verdict} (hacc : acceptCmd s ch b = (u, v))
    (hdrop : v.drop = false) (hreply : v.reply = none) (hok : v.status = scOk) : frontEnd s ch b none = { u with
      cmd.tickets := tset u.cmd.tickets u.cmd.nextTicket (newTicket ch b v.key u.timebase),
      cmd.nextTicket := u.cmd.nextTicket + 1 } := by
  unfold frontEnd
  simp only [hacc, hdrop, hreply, hok, Bool.false_eq_true, if_false, ne_eq, not_true_eq_false]
  rfl

/-- A command that is refused gets its status. -/
theorem frontEnd_of_refused {s u : State} {ch : Chan} {b : Bytes} {v : Verdict} (hacc : acceptCmd s ch b = (u, v))
    (hdrop : v.drop = false) (hreply : v.reply = none) (hbad : v.status ≠ scOk) :
    frontEnd s ch b none = deliver u ch {
      status := v.status, op := (cmdHdr b).op, tag := (cmdHdr b).tag, detail := v.detail,
      responder := u.pins.twinId % 2 + role u * 2, auth := v.key.map fun k => (k, (cmdHdr b).fresh) } := by
  unfold frontEnd
  simp only [hacc, hdrop, hreply, Bool.false_eq_true, if_false]
  exact if_pos hbad

/-! ## The timers of commands -/

theorem sendPending_of_i3c {s : State} {t : Nat} {tk : Ticket} (hget : tget s.cmd.tickets t = some tk)
    (hnew : tk.pendingSent = false) (hchan : tk.chan = .i3c) : sendPending s t = { s with
      cmd.tickets := tset s.cmd.tickets t { tk with pendingSent := true },
      i3c.replies := s.i3c.replies ++ [(false, mkReply s tk scPending 0 [] false)], i3c.ibiPending := s.i3c.ibi } := by
  unfold sendPending
  rw [hget]
  simp only [hnew, Bool.false_eq_true, if_false, hchan]
  rfl

theorem sendPending_of_sent {s : State} {t : Nat} {tk : Ticket} (hget : tget s.cmd.tickets t = some tk)
    (hsent : tk.pendingSent = true) : sendPending s t = s := by
  unfold sendPending
  rw [hget]
  exact if_pos hsent

/-- The commands that a PENDING covers besides its own. -/
def joinedTo (s : State) (t : Nat) : List Nat :=
  (s.tables.regions.flatMap fun x => if x.2.revokers.contains t then x.2.revokers else []) ++
    s.tables.objects.flatMap fun x => if x.2.st == .deleting && x.2.waiters.contains t then x.2.waiters else []

/-- The state in which a command is answered PENDING: 100 ms after it came, its region marked. -/
def pendingAt (s : State) (t : Nat) (tk : Ticket) : State :=
  { reach s (tk.since + ms 100) with
    tables.regions := s.tables.regions.map fun x =>
      (x.1, if x.2.revokers.contains t then { x.2 with pendingSent := true } else x.2) }

theorem pendingNow_of_executing {s : State} {t : Nat} {tk : Ticket} (hget : tget s.cmd.tickets t = some tk)
    (hst : tk.st = .executing) (hnew : tk.pendingSent = false) : pendingNow s t =
      (joinedTo s t).foldl sendPending (sendPending (pendingAt s t tk) t) := by
  unfold pendingNow
  rw [hget]
  simp only [hnew, hst, Bool.or_self, Bool.false_eq_true, if_false]
  rfl

/-- Settles O49: each step of acceptance answers for itself, and each timer for its ticket. -/
theorem acceptance : Obligations.Acceptance := by
  unfold Obligations.Acceptance
  refine ⟨?format, ?opcode, ?channel, ?level, ?hmac, ?fresh, ?refused, ?held, ?mgmt, ?whole, ?full, ?badCheck, ?pending,
    ?joined, ?timer, ?once, ?noGuide, ?taken⟩
  case format =>
    intro s ch b off h
    simp only [acceptCmd, h]
  case opcode =>
    intro s ch b h hop
    simp only [acceptCmd, h, hop]
  case channel =>
    intro s ch b lvl chans h hop hch
    simp only [acceptCmd, h, hop, hch, Bool.not_false, if_true]
  case level =>
    intro s ch b lvl chans h hop hch hlvl
    have hacc : acceptCmd s ch b = (s, { status := scAuthority, detail := needsLevel s (cmdHdr b) (bsub b 32 (cmdHdr b).plen) lvl }) := by
      simp only [acceptCmd, h, hop, hch, Bool.not_true, Bool.false_eq_true, if_false, hlvl, if_true]
    rw [hacc]
    exact ⟨rfl, rfl⟩
  case hmac =>
    intro s ch b k lvl chans h hop hch hlvl hne hkey hbad
    simp [acceptCmd, h, hop, hch, Nat.not_lt.mpr hlvl, hne, hkey, hbad]
  case fresh =>
    intro s ch b k lvl chans h hop hch hlvl hne hkey hgood hold
    simp [acceptCmd, h, hop, hch, Nat.not_lt.mpr hlvl, hne, hkey, hgood, hold]
  case refused =>
    intro s b v hacc hdrop hreply hbad
    rw [frontEnd_of_refused hacc hdrop hreply hbad, deliver_i3c]
    exact ⟨rfl, List.map_append, rfl, rfl⟩
  case held =>
    intro s u ch b v hacc hdrop hreply hok
    rw [frontEnd_of_accepted hacc hdrop hreply hok]
    exact ⟨_, tget_tset_same .., rfl, rfl, rfl, rfl, rfl, rfl⟩
  case mgmt => exact fun s p hwf => needs_eq_next hwf rfl
  case whole =>
    intro s num msn sub m hm hty hst hchk hout
    simp [mgmtTake, hm, hty, hst, hchk, Nat.not_le.mpr hout]
  case full =>
    intro s num msn sub m hm hty hst hchk hout
    simp [mgmtTake, hm, hty, hst, hchk, hout]
  case badCheck =>
    intro s num msn sub m k hm hty hst hchk hbad
    simp [mgmtTake, hm, hty, hst, hchk, hbad]
  case pending =>
    intro s t tk hget hst hnew hchan hreg hobj
    have hnone : joinedTo s t = [] := by
      refine List.append_eq_nil_iff.mpr ⟨List.flatMap_eq_nil_iff.mpr fun x hx => if_neg ?_,
        List.flatMap_eq_nil_iff.mpr fun x hx => if_neg ?_⟩
      · simpa using hreg x hx
      · simp [hobj x hx]
    have hstep := pendingNow_of_executing hget hst hnew
    rw [hnone, List.foldl_nil, sendPending_of_i3c (s := pendingAt s t tk) hget hnew hchan] at hstep
    exact ⟨_, _, needs_eq_next rfl hstep, rfl, rfl, rfl, tget_tset_same .., Nat.le_max_right ..⟩
  case joined =>
    intro s t w i tk tw r hget hst hnew hchan hne hgetw hneww hchanw hreg hrev hobj
    have hjoin : joinedTo s t = [t, w] := by simp [joinedTo, hreg, hrev, hobj]
    have hstep := pendingNow_of_executing hget hst hnew
    have hfirst := sendPending_of_i3c (s := pendingAt s t tk) hget hnew hchan
    rw [hjoin, List.foldl_cons, List.foldl_cons, List.foldl_nil, hfirst,
      sendPending_of_sent (t := t) (tk := { tk with pendingSent := true }) (tget_tset_same ..) rfl] at hstep
    have hgetw' : tget (tset (pendingAt s t tk).cmd.tickets t { tk with pendingSent := true }) w = some tw :=
      (tget_tset_ne _ _ hne.symm).trans hgetw
    rw [sendPending_of_i3c hgetw' hneww hchanw] at hstep
    refine ⟨_, _, _, needs_eq_next rfl hstep, List.append_assoc .., rfl, rfl, rfl, rfl, ?_⟩
    have hmap : s.tables.regions.map (fun x =>
        (x.1, if x.2.revokers.contains t then { x.2 with pendingSent := true } else x.2)) =
        [(i, { r with pendingSent := true })] := by simp [hreg, hrev]
    exact hmap
  case timer => exact fun s t => needs_eq_next rfl rfl
  case once =>
    intro s t tk hget hsent
    exact needs_eq_next rfl (by simp [pendingNow, hget, hsent])
  case noGuide =>
    intro s t tk hget hst hb hl
    exact needs_eq_next rfl (by simp [Machine.noGuide, hget, hst, hb, hl])
  case taken =>
    intro s t tk hget hst
    exact needs_eq_next rfl (by simp [Machine.noGuide, hget, hst])

/-! ## Queries -/

/-- A waiting command of an opcode that `f` answers. -/
theorem onTicket_next {s : State} {t op : Nat} {tk : Ticket} {f : Ticket → State} {u : State} (h : Waits s t op tk)
    (hf : f tk = u) : needs true s (onTicket s t op f) = .next (commit s u) :=
  needs_eq_next rfl ((onTicket_of_waits h f).trans hf)

theorem owns_of_mgmt {tk : Ticket} (h : tk.mgmt = true) (n : Nat) : tk.owns n = true := by simp [Ticket.owns, h]

theorem sees_of_mgmt {tk : Ticket} (h : tk.mgmt = true) (s : State) (n g : Nat) : sees s tk n g = true := by
  simp [sees, owns_of_mgmt h]

theorem mgmtOnly_of_mgmt {tk : Ticket} (h : tk.mgmt = true) (s : State) (t : Nat) (f : State) : mgmtOnly s tk t f = f := if_pos h

theorem slotInScope_of_mgmt {tk : Ticket} (h : tk.mgmt = true) (s : State) (n : Nat) : slotInScope s tk n = true := by
  simp [slotInScope, h]

theorem onObject_of_mgmt {s : State} {tk : Ticket} {t n : Nat} {o : Obj} (h : tk.mgmt = true) (ho : objOf s n = some o)
    (f : Obj → State) : onObject s tk t n f = f o := by simp [onObject, ho, owns_of_mgmt h]

theorem onQueue_of_mgmt {s : State} {tk : Ticket} {t q : Nat} {x : Queue} (h : tk.mgmt = true) (hx : queueOf s q = some x)
    (f : Queue → State) : onQueue s tk t q f = f x := by simp [onQueue, hx, owns_of_mgmt h]

/-- A final answer over I3C, of a command that holds no brake store. -/
theorem answer_i3c_eq {s : State} {t : Nat} {tk : Ticket} (st d : Nat) (b : Bytes) (hget : tget s.cmd.tickets t = some tk)
    (hchan : tk.chan = .i3c) (hop : tk.op / 256 ≠ 11) : answer s t st d b = { s with
      cmd.tickets := tdel s.cmd.tickets t, i3c.replies := s.i3c.replies ++ [(true, mkReply s tk st d b true)],
      i3c.ibiPending := s.i3c.ibi } := by
  simp only [answer, hget, finishTicket, endTicket_of_not_brake s t hop, deliver, hchan]
  rfl

/-- Settles O51: the reply to a query is what its table lists, read from the state as it stands. -/
theorem queries : Obligations.Queries := by
  unfold Obligations.Queries
  refine ⟨fun s t st d b tk => answer_i3c_eq st d b, fun s t tk hm => ?tables, fun s t tk hm => ?logs⟩
  case tables =>
    refine ⟨fun h => onTicket_next h rfl, fun h => onTicket_next h rfl, ?ident, ?identConns, ?region, ?group, ?conn, ?chain,
      ?object, ?topo, fun h => onTicket_next h rfl, ?session, ?freeSlot, ?slot, ?ctx, ?rope, ?ropeConns,
      fun h => onTicket_next h rfl, fun h => onTicket_next h rfl, ?noDie, ?die, fun h => ⟨_, onTicket_next h rfl⟩,
      fun h => onTicket_next h rfl, ?noFault⟩
    case ident =>
      intro n i h hi hconns
      exact onTicket_next h (by simp [owns_of_mgmt hm, hi, hconns])
    case identConns =>
      intro n i h hi
      exact onTicket_next h (by simp [owns_of_mgmt hm, hi])
    case region =>
      intro k r h hr
      exact onTicket_next h (by simp [hr, sees_of_mgmt hm])
    case group =>
      intro n g h hg
      exact onTicket_next h (by simp [hg, owns_of_mgmt hm])
    case conn =>
      intro n c h hc
      exact onTicket_next h (by simp [hc, owns_of_mgmt hm])
    case chain => exact fun q x h hx => onTicket_next h (onQueue_of_mgmt hm hx _)
    case object => exact fun n o h ho => onTicket_next h (onObject_of_mgmt hm ho _)
    case topo =>
      intro n x h hx
      exact onTicket_next h (by simp [hx, owns_of_mgmt hm])
    case session =>
      intro n c i k h hc hk
      exact onTicket_next h (by simp [hc, owns_of_mgmt hm, hk])
    case freeSlot =>
      intro n h hn hk
      exact onTicket_next h ((if_neg (Nat.not_le.mpr hn)).trans (by simp [slotInScope_of_mgmt hm, hk]))
    case slot =>
      intro n k h hn hk
      exact onTicket_next h ((if_neg (Nat.not_le.mpr hn)).trans (by simp [slotInScope_of_mgmt hm, hk]))
    case ctx =>
      intro n h hn
      exact ⟨_, onTicket_next h ((mgmtOnly_of_mgmt hm ..).trans (if_neg (Nat.not_le.mpr hn))), by simp⟩
    case rope =>
      intro h hconns
      exact onTicket_next h (by simp [hconns])
    case ropeConns =>
      intro h
      have hall : (s.conns.filter fun x => tk.owns x.2.ident) = s.conns :=
        List.filter_eq_self.mpr fun x _ => owns_of_mgmt hm _
      exact onTicket_next h (by rw [hall])
    case noDie =>
      intro h hdies
      exact onTicket_next h (by simp [hdies])
    case die =>
      intro n d h hdies
      exact onTicket_next h (by simp [hdies])
    case noFault =>
      intro h hmark hrows hsoft
      exact onTicket_next h (by simp only [hmark, hrows, hsoft, markedBytes]; rfl)
  case logs =>
    refine ⟨?logRead, ?frozen, ?telemetry, ?ladder, fun h => onTicket_next h rfl, ?image, ?brake, ?cairn⟩
    case logRead =>
      intro h h1 h63
      exact onTicket_next h ((mgmtOnly_of_mgmt hm ..).trans (if_neg (by omega)))
    case frozen =>
      intro h hn hfrozen
      have hmod : le tk.par 0 1 % 128 = le tk.par 0 1 := Nat.mod_eq_of_lt (by omega)
      refine onTicket_next h ((mgmtOnly_of_mgmt hm ..).trans ?_)
      simp only [hmod]
      exact (if_neg (by omega)).trans ((if_neg (by omega)).trans (if_neg (by simp [hfrozen])))
    case telemetry =>
      intro h
      exact onTicket_next h rfl
    case ladder =>
      intro h hfns
      exact onTicket_next h (by simp [hfns])
    case image =>
      intro n i h hpar hn hi himg
      have hmod : (128 + n) % 128 = n := by omega
      refine onTicket_next h ((mgmtOnly_of_mgmt hm ..).trans ?_)
      simp only [hpar, hmod]
      exact (if_neg (by omega)).trans ((if_pos (by omega)).trans ((if_neg (by omega)).trans (by rw [himg])))
    case brake =>
      intro h
      refine ⟨_, onTicket_next h rfl, ?_⟩
      simp only [List.append_assoc]
      exact List.take_left' (length_leBytes ..)
    case cairn =>
      intro h
      refine ⟨_, onTicket_next h rfl, ?_⟩
      simp only [List.append_assoc, regBytes, List.map_cons, List.map_nil, List.flatten_cons, List.flatten_nil, List.append_nil]
      exact List.take_left' (length_leBytes ..)

end Sys2Proof.Machine
end

section
/-! PROOFS. Commands on identities, keys, regions, access groups, landing buffers, connections, chain queues and ports (4, 14). -/

namespace Sys2Proof.Machine

/-- A command that has run for one twin alone is answered at once. -/
theorem conclude_of_alone {s : State} {t : Nat} {tk : Ticket} (hget : tget s.cmd.tickets t = some tk) (h : hasSecond s = false)
    (st d : Nat) (b : Bytes) (l : List Nat) : conclude s t false true st d b l = answer s t st d b := by
  have hord (x : OrderBody) : orderIf s x = (s, 0) := if_neg (by simp [h])
  simp only [conclude, answer, hget, if_true, hord, ite_self, Bool.false_eq_true, if_false]

theorem eraseDups_of_nodup {l : List Nat} (h : l.Nodup) : l.eraseDups = l := by
  induction l with
  | nil => rfl
  | cons a l ih =>
    obtain ⟨ha, hl⟩ := List.nodup_cons.mp h
    have hkeep : l.filter (fun b => ! b == a) = l :=
      List.filter_eq_self.mpr fun b hb => by simpa using fun hba : b = a => ha (hba ▸ hb)
    rw [List.eraseDups_cons, hkeep, ih hl]

/-- The configuration that is written to the cairn is no identity of the running part. -/
theorem cfgWrite_ids (s : State) (f : CfgCopy → CfgCopy) : (cfgWrite s f).ids = s.ids := by
  simp only [cfgWrite, apply_ite State.ids, ite_self]
  rfl

/-- Settles O52: each command does what its table says, once its checks have passed. -/
theorem identityAndRegionCommands : Obligations.IdentityAndRegionCommands := by
  unfold Obligations.IdentityAndRegionCommands
  refine ⟨?alone, ?identSet, ?ident, ?remove, ?removeOwner, ?removeNone, ?opKey, ?custKey, ?register, ?refusal, ?region, ?revoke,
    ?notOwner, ?group, ?landing, ?unland, ?close⟩
  case alone => exact fun s t st d b l tk hget h => conclude_of_alone hget h st d b l
  case identSet =>
    intro s t tk h hq
    exact onTicket_next h (if_neg (Nat.not_lt.mpr hq))
  case ident =>
    intro s b
    rw [setIdent, cfgWrite_ids]
    exact tget_tset_same ..
  case remove =>
    intro s t n tk h hn howner
    have hnone : (s.tables.regions.any fun x => x.2.owner == n) = false := by
      simpa using howner
    exact onTicket_next h ((if_neg (by simp [hn])).trans (by rw [hnone]))
  case removeOwner =>
    intro s t n tk x h hn hx howner
    have hsome : (s.tables.regions.any fun x => x.2.owner == n) = true :=
      List.any_eq_true.mpr ⟨x, hx, beq_iff_eq.mpr howner⟩
    exact onTicket_next h ((if_neg (by simp [hn])).trans (by rw [hsome]))
  case removeNone =>
    intro s t n tk h hn
    exact onTicket_next h (if_pos (by simp [hn]))
  case opKey => exact fun s t tk h hsel => onTicket_next h (if_pos hsel)
  case custKey => exact fun s t tk h hsel => onTicket_next h ((if_neg (by omega)).trans (if_pos hsel))
  case register =>
    intro s t k tk h href hkey
    exact onTicket_next h (by simp only [href, hkey])
  case refusal =>
    intro s t tk x h href
    exact onTicket_next h (by simp only [href])
  case region => exact fun s k b => tget_tset_same ..
  case revoke =>
    intro s t k tk r h hr hown
    refine ⟨fun hsent => onTicket_next h ?_, fun hsent => onTicket_next h ?_⟩
    · simp only [hr, hown, hsent, Bool.not_true, Bool.false_eq_true, if_false]
    · simp only [hr, hown, hsent, Bool.not_true, Bool.false_eq_true, if_false, if_true]
  case notOwner =>
    intro s t k tk r h hr hown
    exact onTicket_next h (by simp only [hr, hown, Bool.not_false, if_true])
  case group =>
    intro s t g l tk h h1 hlt hnone hl hnd
    have hall : (l.filter fun m => decide (m < 4096)) = l := List.filter_eq_self.mpr fun m hm => decide_eq_true (hl m hm)
    refine onTicket_next h ((if_neg (by omega)).trans ?_)
    simp only [hnone, hall, eraseDups_of_nodup hnd, Bool.not_true, Bool.false_eq_true, if_false]
  case landing =>
    intro s t k len num tk c h hchan hc hk1 hk2 hl1 hl2 hroom
    have hnum : tk.carrier = num := by simp [Ticket.carrier, hchan]
    refine onTicket_next h ?_
    simp only [hnum]
    exact (if_neg (by simp [hc])).trans ((if_neg (by omega)).trans (if_neg (by simp [Nat.not_le.mpr hroom])))
  case unland =>
    intro s t k num tk h hchan hhas
    have hnum : tk.carrier = num := by simp [Ticket.carrier, hchan]
    refine onTicket_next h ?_
    simp only [hnum]
    exact if_neg (by simp [hhas])
  case close =>
    intro s t n tk c h hc hown hopen
    exact onTicket_next h (by simp only [hc, hown, hopen, Bool.not_true, Bool.false_eq_true, if_false, if_true])

/-! ## Chain queues, triggers and ports -/

/-- A chain queue whose owner sends the command. -/
theorem onQueue_of_owner {s : State} {tk : Ticket} {t q : Nat} {x : Queue} (hx : queueOf s q = some x)
    (h : tk.owns x.owner = true) (f : Queue → State) : onQueue s tk t q f = f x := by simp [onQueue, hx, h]

theorem chainPost_of_room {s : State} {t q : Nat} {l : List Bytes} {x : Queue} {tk : Ticket} (h : Waits s t 0x020B tk)
    (hx : queueOf s q = some x) (hown : tk.owns x.owner = true) (h1 : 1 ≤ l.length) (h63 : l.length ≤ 63)
    (hlen : ∀ w ∈ l, w.length = 64) (hroom : x.used + l.length ≤ x.depth) (hend : x.repeatMode = false ∨ x.endSlot = none) :
    exec (.chainPost t q l) s = .next (commit s (chainNext (conclude { postWrs s q l with
      cmd.tickets := tmod (postWrs s q l).cmd.tickets t fun k => { k with par := l.flatten } } t true true scOk 0 [] [q]) q)) := by
  have hgood : (l.any fun w => decide (w.length ≠ 64)) = false := by simpa using hlen
  refine onTicket_next h ((onQueue_of_owner hx hown _).trans ((if_neg ?_).trans ((if_neg (by omega)).trans (if_neg ?_))))
  · rw [hgood]
    rintro (h0 | h63' | hfalse)
    · omega
    · omega
    · exact Bool.false_ne_true hfalse
  · obtain hend | hend := hend <;> simp [hend]

/-- Settles O54: chain queues, triggers and ports as their commands leave them. -/
theorem chainAndPortCommands : Obligations.ChainAndPortCommands := by
  unfold Obligations.ChainAndPortCommands
  refine ⟨?create, ?postOne, ?post, ?tooMany, ?reset, ?idle, ?delete, ?running, ?bind, ?unbind, ?port, ?restore, ?range⟩
  case create =>
    intro s t q own oc d rp rep tk h hown hq ho hoc hrp hrp' hd hfree
    exact onTicket_next h ((if_neg (by simp [hown])).trans ((if_neg (by omega)).trans ((if_neg (by simp [hd])).trans
      (if_neg (by simp [hfree])))))
  case postOne =>
    intro s t q w x tk h hx hown hw hroom hrep
    have hpost := chainPost_of_room (l := [w]) h hx hown (Nat.le_refl 1) (show 1 ≤ 63 by decide) (by simpa using hw) hroom
      (.inl hrep)
    rw [List.flatten_singleton] at hpost
    exact hpost
  case post => exact fun s t q l x tk h hx hown h1 h63 hlen hroom hend => chainPost_of_room h hx hown h1 h63 hlen hroom hend
  case tooMany =>
    intro s t q l x tk h hx hown hover
    refine onTicket_next h ((onQueue_of_owner hx hown _).trans ?_)
    rw [if_pos hover, ite_self]
  case reset =>
    intro s t q x tk h hx hown hst hrun
    exact onTicket_next h ((onQueue_of_owner hx hown _).trans (if_neg (by simp [hst, hrun])))
  case idle =>
    intro s q x hx hst hrep
    refine ⟨_, tget_tmod_same _ hx, ?_⟩
    simp only [hst, hrep, beq_self_eq_true, if_true, and_self]
  case delete =>
    intro s t q x tk h hx hown hst
    exact onTicket_next h ((onQueue_of_owner hx hown _).trans (if_neg (by simp [hst])))
  case running =>
    intro s t q x tk h hx hown hst
    exact onTicket_next h ((onQueue_of_owner hx hown _).trans (if_pos (by simp [hst])))
  case bind =>
    intro s t tag q g x tk h hx hown h1 htag hg hfree
    exact onTicket_next h ((onQueue_of_owner hx hown _).trans ((if_neg (by omega)).trans (if_neg (by simp [hfree]))))
  case unbind =>
    intro s t tag b x tk h hb hx hown
    refine onTicket_next h ?_
    simp only [hb]
    exact onQueue_of_owner hx hown _
  case port =>
    intro s u t l tk h hl hu
    have hgood : (l.any fun x => ! portReg x.1) = false := by simpa using hl
    refine onTicket_next h ((if_neg (by simp [hgood])).trans ?_)
    simp only [hu, List.foldl_nil]
  case restore =>
    intro s u t l r tk h hl hr hu
    have hgood : (l.any fun x => ! portReg x.1) = false := by simpa using hl
    have hin : (r.any fun k => decide (32 ≤ k)) = false := by simpa using hr
    refine onTicket_next h ((if_neg (by rw [hgood, hin]; decide)).trans ?_)
    simp only [hu]
  case range =>
    intro s t l tk h hnone
    refine onTicket_next h ?_
    simp only [hnone, ite_self]

end Sys2Proof.Machine
end

section
/-! PROOFS. Commands on objects, topos, summit extents, the range, roots, key slots, contexts and the rope team (5, 9, 10, 11, 14). -/

namespace Sys2Proof.Machine

/-! ## Objects -/

/-- An object whose owner sends the command. -/
theorem onObject_of_owner {s : State} {tk : Ticket} {t n : Nat} {o : Obj} (ho : objOf s n = some o)
    (h : tk.owns o.owner = true) (f : Obj → State) : onObject s tk t n f = f o := by simp [onObject, ho, h]

/-- A topo whose owner sends the command. -/
theorem onTopo_of_owner {s : State} {tk : Ticket} {t n : Nat} {x : Topo} (hx : tget s.tables.topos n = some x)
    (h : tk.owns x.owner = true) (f : Topo → State) : onTopo s tk t n f = f x := by simp [onTopo, hx, h]

/-- A slab that is on its way up, waited for, in a topo's window or pinned stays where it is. -/
theorem evictOne_of_inUse {s : State} {n : Nat} (t i : Nat) (hst : (slabOf s n).st = .clean)
    (huse : hasParked s n = true ∨ inWindow s n = true ∨ slabPin s n = true) : evictOne t (s, i) n = (s, i + 1) := by
  obtain h | h | h := huse <;> simp [evictOne, hst, h]

theorem evictOne_of_clean {s : State} {n : Nat} (t i : Nat) (hst : (slabOf s n).st = .clean) (hpark : hasParked s n = false)
    (hwin : inWindow s n = false) (hpin : slabPin s n = false) : evictOne t (s, i) n = (evictSlab s n, i) := by
  simp [evictOne, hst, hpark, hwin, hpin]

theorem evictOne_of_dirty {s : State} {n : Nat} (t i : Nat) (hst : (slabOf s n).st = .dirty) (hpark : hasParked s n = false)
    (hwin : inWindow s n = false) (hpin : slabPin s n = false) : evictOne t (s, i) n =
      (addJob (setSlab s n { slabOf s n with evictAfter := (slabOf s n).evictAfter ++ [t] }) 6 (.destage n), i) := by
  simp [evictOne, hst, hpark, hwin, hpin]

/-- Settles O55: objects, topos, summit extents and the range as their commands leave them. -/
theorem objectAndTopoCommands : Obligations.ObjectAndTopoCommands := by
  unfold Obligations.ObjectAndTopoCommands
  refine ⟨?create, ?place, ?evict, ?evictUnbuilt, ?dirty, ?window, ?clean, ?trim, ?trimUnbuilt, ?deleteLate, ?delete, ?publish,
    ?published, ?topo, ?step, ?topoCommit, ?topoDelete, ?advance, ?reload, ?invalidate, ?config, ?formatted⟩
  case create =>
    intro s t n base tk h hown h0 h64 hcls hmir hn hbase hfit
    refine onTicket_next h ((if_neg (by simp [hown])).trans ((if_neg (by omega)).trans ((if_neg (by omega)).trans
      ((if_neg (by omega)).trans ?_))))
    simp only [hn, hbase]
    exact if_neg (by simp [hfit])
  case place =>
    intro s t n c o tk h ho hown hc hst hfit
    exact onTicket_next h ((onObject_of_owner ho hown _).trans ((if_neg (by omega)).trans ((if_neg (by simp [hst])).trans
      (if_neg (by simp [hfit])))))
  case evict =>
    intro s t n a len o tk h ho hown hin hbuilt
    refine onTicket_next h ((onObject_of_owner ho hown _).trans ((if_neg (by simp [hin])).trans ?_))
    simp only [hbuilt]
  case evictUnbuilt =>
    intro s t n a len o tk l h ho hown hin hbuilt hl
    refine onTicket_next h ((onObject_of_owner ho hown _).trans ((if_neg (by simp [hin])).trans ?_))
    obtain ⟨m, l, rfl⟩ := List.exists_cons_of_ne_nil hl
    simp only [hbuilt]
  case dirty =>
    intro s t n i x hx hst hpark hwin hpin
    subst hx
    exact evictOne_of_dirty t i hst hpark hwin hpin
  case window => exact fun s t n i hst hwin => evictOne_of_inUse t i hst (.inr (.inl hwin))
  case clean => exact fun s t n k hx hpark hwin hpin => evictOne_of_clean t 0 (by rw [hx]) hpark hwin hpin
  case trim =>
    intro s t n a len o tk h ho hown hst ha hlen h0 hend hbuilt
    refine onTicket_next h ((onObject_of_owner ho hown _).trans ((if_neg (by simp [hst])).trans ((if_neg (by omega)).trans ?_)))
    simp only [hbuilt]
  case trimUnbuilt =>
    intro s t n a len o tk l h ho hown hst ha hlen h0 hend hbuilt hl
    refine onTicket_next h ((onObject_of_owner ho hown _).trans ((if_neg (by simp [hst])).trans ((if_neg (by omega)).trans ?_)))
    obtain ⟨m, l, rfl⟩ := List.exists_cons_of_ne_nil hl
    simp only [hbuilt]
  case deleteLate =>
    intro s t n w o tk tw h ho hown hst hw htw hsent
    refine onTicket_next h ((onObject_of_owner ho hown _).trans ((if_neg (by simp [hst])).trans ?_))
    simp only [hw, List.any_cons, List.any_nil, htw, Option.map_some, Option.getD_some, hsent, Bool.or_false, if_true]
  case delete =>
    intro s t n o tk h ho hown hst hw
    refine onTicket_next h ((onObject_of_owner ho hown _).trans ((if_neg (by simp [hst])).trans ?_))
    simp only [hw, List.any_nil, Bool.false_eq_true, if_false]
  case publish =>
    intro s t o tk h ho hown href
    refine onTicket_next h ((onObject_of_owner ho hown _).trans ?_)
    simp only [href]
  case published =>
    intro s n o b hst
    exact (if_neg (by simp [hst])).trans (if_pos (.inl (by simp [hst])))
  case topo =>
    intro s t tk h hown hn hlook htrail hc1 hc2 hfree
    exact onTicket_next h ((if_neg (by simp [hown])).trans ((if_neg (by omega)).trans ((if_neg (by omega)).trans
      ((if_neg (by omega)).trans ((if_neg (by omega)).trans (if_neg (by simp [hfree])))))))
  case step =>
    intro s t n x tk h hx hown hopen hk hc1 hc2 hext hroom
    refine onTicket_next h ((onTopo_of_owner hx hown _).trans ((if_neg (by simp [hopen])).trans ((if_neg (by omega)).trans
      ((if_neg (by omega)).trans ?_))))
    simp only [hext]
    exact if_neg (by omega)
  case topoCommit =>
    intro s t n x tk h hx hown hopen hsound
    exact onTicket_next h ((onTopo_of_owner hx hown _).trans ((if_neg (by simp [hopen])).trans (if_neg (by simp [hsound]))))
  case topoDelete => exact fun s t n x tk h hx hown => onTicket_next h (onTopo_of_owner hx hown _)
  case advance =>
    intro s t n k x tk h hx hown hcom hk u
    exact onTicket_next h ((onTopo_of_owner hx hown _).trans ((if_neg (by simp [hcom])).trans (if_neg (by omega))))
  case reload =>
    intro s t n a len o tk h ho hown hcls hin
    exact onTicket_next h ((onObject_of_owner ho hown _).trans ((if_neg (by simp [hcls])).trans (if_neg (by simp [hin]))))
  case invalidate =>
    intro s t a len tk h hm h0 hend
    refine onTicket_next h ((if_neg (by omega)).trans (if_neg ?_))
    rw [Bool.not_eq_true', Bool.not_eq_false]
    refine List.all_eq_true.mpr fun n _ => ?_
    split
    · exact owns_of_mgmt hm _
    · exact hm
  case config =>
    intro s u t n w tk h hroot hways hreg hstage
    refine onTicket_next h ?_
    simp only [hroot, Option.filter_none, hways, Bool.false_and, Bool.false_eq_true, if_false, hreg, if_neg hstage]
  case formatted =>
    intro s t n w r tk h hroot hne
    refine onTicket_next h ?_
    simp only [hroot, Option.filter_some, bne_iff_ne.mpr hne, if_true]

/-! ## Roots, key slots, contexts and the rope team -/

theorem stepSlot_of_slot {s : State} {n : Nat} {k : KeySlot} (hk : tget s.key.slots n = some k) :
    stepSlot s n = setSlot s n { k with genMax := k.genMax + 1 } := by simp only [stepSlot, hk]

theorem role_working (s : State) (t : Nat) (aux : List Nat) : role (working s t aux) = role s := rfl

/-- An unseal that nothing stands against writes to an unsealed open object of the part alone. -/
theorem unsealTarget_of_none {s : State} {obj unit n a b dst : Nat} (h : unsealRefusal s obj unit n a b dst = none) :
    ∃ r d, regionOf s b = some r ∧ objOf s r.obj = some d ∧ d.sealed_ = none ∧ d.st = .opened ∧ d.mirror = mirUnroped := by
  unfold unsealRefusal at h
  split at h
  case h_2 => cases h
  rename_i o ra rb ho ha hb
  split at h
  case h_2 => cases h
  rename_i si d hsi hd
  split at h
  case isTrue => cases h
  split at h
  case isTrue => cases h
  rename_i hgood
  simp only [not_or, not_not] at hgood
  obtain ⟨hmir, hsealed, hst⟩ := hgood
  exact ⟨rb, d, hb, hd, by simpa using hsealed, hst, hmir⟩

/-- A register-writing command whose values are in range. -/
theorem configReg_of_taken {s u : State} {off : Nat} {w : BitVec 64} (h : regCommand s off w.toNat = some u) (t : Nat) :
    configReg s t off w = answer u t scOk := by simp only [configReg, h]

/-- Settles O56: roots, key slots, sealed content, contexts and the rope team as their commands leave them. -/
theorem keyAndRopeCommands : Obligations.KeyAndRopeCommands := by
  unfold Obligations.KeyAndRopeCommands
  refine ⟨?load, ?badBlob, ?unload, ?bound, ?step, ?stepped, ?keyConfig, ?unsealOne, ?target, ?unsealed, ?refused, ?preset, ?running,
    ?fixed, ?lead, ?second, ?notRoped, ?returnEn, ?solo, ?soloNow, ?open_, ?ropeConfig⟩
  case load =>
    intro s t n r tk h hn hroot hfree
    refine onTicket_next h ((if_neg (by omega)).trans ?_)
    simp only [hroot, hfree, Bool.false_eq_true, if_false]
  case badBlob =>
    intro s t tk h hn hroot
    refine onTicket_next h ((if_neg (by omega)).trans ?_)
    simp only [hroot]
  case unload =>
    intro s t n tk h hn hhas hfree
    exact onTicket_next h ((if_neg (by omega)).trans ((if_neg (by simp [hhas])).trans (if_neg (by simp [hfree]))))
  case bound =>
    intro s t n tk h hn hhas hbound
    exact onTicket_next h ((if_neg (by omega)).trans ((if_neg (by simp [hhas])).trans (if_pos hbound)))
  case step =>
    intro s t n k tk h hn hm hk htitle hgen
    refine onTicket_next h ((if_neg (by omega)).trans ((if_neg (by simp [slotInScope_of_mgmt hm])).trans ?_))
    simp only [hk]
    exact if_neg (by simp [htitle, hgen])
  case stepped =>
    intro s n k hk
    rw [stepSlot_of_slot hk]
    exact ⟨_, tget_tset_same .., rfl, rfl, rfl⟩
  case keyConfig => exact fun s u t w tk h hreg => onTicket_next h (configReg_of_taken hreg t)
  case unsealOne => exact fun s t obj unit a b dst tk h hnone => onTicket_next h (by simp only [hnone])
  case target => exact fun s obj unit n a b dst hnone => unsealTarget_of_none hnone
  case unsealed => exact fun s t obj unit n a b dst tk h hnone => onTicket_next h (by simp only [hnone])
  case refused => exact fun s t obj unit n a b dst k tk h hsome hk => onTicket_next h (by simp only [hsome, if_neg hk])
  case preset =>
    intro s t c own n ch x tk h hm h16 hc hown hpar
    refine onTicket_next h ((mgmtOnly_of_mgmt hm _ _ _).trans ((if_neg (by omega)).trans ((if_neg (by omega)).trans ?_)))
    simp only [hpar]
    rfl
  case running =>
    intro s t c own p ch x r tk h hm h16 hc hown hpar
    refine onTicket_next h ((mgmtOnly_of_mgmt hm _ _ _).trans ((if_neg (by omega)).trans ((if_neg (by omega)).trans ?_)))
    simp only [hpar]
    rfl
  case fixed =>
    intro s t c own n ch tk h hm hc hown
    exact onTicket_next h ((mgmtOnly_of_mgmt hm _ _ _).trans ((if_neg (by omega)).trans (if_pos hc)))
  case lead =>
    intro s t tk h hm hteam hrole hfree
    refine onTicket_next h ((mgmtOnly_of_mgmt hm _ _ _).trans ((if_neg (by simp [hteam, hfree])).trans (if_neg ?_)))
    rw [isSecond, role_working, show role { s with rope.handoverTicket := some t } = role s from rfl, hrole]
    decide
  case second =>
    intro s t tk h hm hteam hrole hfree
    refine onTicket_next h ((mgmtOnly_of_mgmt hm _ _ _).trans ((if_neg (by simp [hteam, hfree])).trans (if_pos ?_)))
    rw [isSecond, role_working, show role { s with rope.handoverTicket := some t } = role s from rfl, hrole]
    decide
  case notRoped => exact fun s t tk h hm hteam => onTicket_next h ((mgmtOnly_of_mgmt hm _ _ _).trans (if_pos (.inl hteam)))
  case returnEn => exact fun s t tk h hm hv => onTicket_next h ((mgmtOnly_of_mgmt hm _ _ _).trans (if_neg (by omega)))
  case solo =>
    intro s t tk h hopen hteam hwait
    refine onTicket_next h ((if_neg (by simp [hopen, hteam])).trans ?_)
    exact congrArg (answer · t scOk) (if_neg hwait)
  case soloNow =>
    intro s t tk h hopen hteam hwait
    refine onTicket_next h ((if_neg (by simp [hopen, hteam])).trans ?_)
    exact congrArg (answer · t scOk) (if_pos hwait)
  case open_ => exact fun s t tk h hopen => onTicket_next h (if_pos (by simp [hopen]))
  case ropeConfig => exact fun s u t w tk h hreg => onTicket_next h (configReg_of_taken hreg t)

end Sys2Proof.Machine
end

section
/-! PROOFS. Commands on power, domains, logs, notifications, camp, the valley, the firmware banks, the stored configuration, the
ladder and the brakes (12 to 16). -/

namespace Sys2Proof.Machine

/-! ## Power, domains, pitch logs, routing -/

theorem namedLogs_of_lt {n : Nat} (h : n < 40) : namedLogs n = [n] := by
  rw [namedLogs, if_neg (by omega), if_pos h]

/-- A log that was frozen records again (R413). -/
theorem frozen_thawLog {s : State} {n : Nat} (h : (plogOf s n).frozen = true) : (plogOf (thawLog s n) n).frozen = false := by
  have hlog : plogOf { s with plog := tset s.plog n { plogOf s n with frozen := false, missed := 0, thawAt := 0 } } n =
      { plogOf s n with frozen := false, missed := 0, thawAt := 0 } := by simp [plogOf]
  rw [thawLog, if_neg (by simp [h]), plogOf_plogAdd_same, hlog]
  rfl

/-- A domain switch of a domain that may be switched. -/
theorem domainSwitch_of_free {s : State} {t d : Nat} {b : Bool} {tk : Ticket} (h : Waits s t 0x0606 tk) (hd : d < 127)
    (hrule : switchRule s d b = .free) : exec (.domainSwitch t d b) s = .next (commit s (switchDomain s t d b)) :=
  onTicket_next h ((if_neg (by omega)).trans ((if_neg (by omega)).trans (by simp only [hrule])))

/-- Settles O57: power, domains, pitch logs and routing as their commands leave them. -/
theorem powerAndLogCommands : Obligations.PowerAndLogCommands := by
  unfold Obligations.PowerAndLogCommands
  refine ⟨?shutdown, ?notService, ?vcore, ?vcoreRange, ?thermal, ?thermalRange, ?seq, ?domOff, ?domOn, ?way, ?unmet, ?guide, ?never,
    ?factory, ?fixed, ?freeze, ?thaw, ?freezeAll, ?thawAll, ?auto, ?route, ?noRoute⟩
  case shutdown => exact fun s t tk h hm hst => onTicket_next h ((mgmtOnly_of_mgmt hm _ _ _).trans (if_pos hst))
  case notService => exact fun s t tk h hm hst => onTicket_next h ((mgmtOnly_of_mgmt hm _ _ _).trans (if_neg hst))
  case vcore => exact fun s t r tk h hr => onTicket_next h (if_neg (by omega))
  case vcoreRange => exact fun s t r tk h hr => onTicket_next h (if_pos hr)
  case thermal => exact fun s u t w tk h hreg => onTicket_next h (configReg_of_taken hreg t)
  case thermalRange => exact fun s t w tk h hreg => onTicket_next h (by simp only [configReg, hreg])
  case seq => exact fun s u t w tk h hreg => onTicket_next h (configReg_of_taken hreg t)
  case domOff =>
    intro s t d tk h hd hrule h42 h9 hon
    rw [domainSwitch_of_free h hd hrule, switchDomain, if_neg Bool.false_ne_true, if_neg (by simp [hon]), if_neg (by omega),
      if_neg h9]
  case domOn =>
    intro s t d tk h hd hrule hoff
    rw [domainSwitch_of_free h hd hrule, switchDomain, if_pos rfl, if_neg (by simp [hoff])]
  case way =>
    intro s t d tk h h42 h57 hrule hon
    rw [domainSwitch_of_free h (by omega) hrule, switchDomain, if_neg Bool.false_ne_true, if_neg (by simp [hon]),
      if_pos ⟨h42, h57⟩]
  case unmet =>
    exact fun s t d b tk h hd hrule =>
      onTicket_next h ((if_neg (by omega)).trans ((if_neg (by omega)).trans (by simp only [hrule])))
  case guide =>
    intro s d h11 h41 hidle
    rw [switchRule, if_neg (by omega), if_neg (by omega), if_neg (by omega), if_neg (by omega), if_pos h41, if_neg (by simp [hidle])]
  case never =>
    exact fun s t d b tk h hd hrule =>
      onTicket_next h ((if_neg (by omega)).trans ((if_neg (by omega)).trans (by simp only [hrule])))
  case factory => exact fun s t b tk h hlevel => onTicket_next h ((if_neg (by omega)).trans (if_pos ⟨rfl, hlevel⟩))
  case fixed =>
    refine fun s b => ⟨rfl, ?_, fun hteam => ?_⟩
    · simp [switchRule]
    · simp [switchRule, hteam]
  case freeze =>
    intro s t n tk h hm hn
    have hlog : plogOf (freezeLog s n) n = { plogOf s n with frozen := true, thawAt := s.timebase + sec 10 } := by
      simp [plogOf, freezeLog]
    refine ⟨onTicket_next h ((mgmtOnly_of_mgmt hm _ _ _).trans ?_), by rw [hlog], by rw [hlog]⟩
    rw [namedLogs_of_lt hn]
    rfl
  case thaw =>
    intro s t n tk h hm hn
    refine ⟨onTicket_next h ((mgmtOnly_of_mgmt hm _ _ _).trans ?_), frozen_thawLog⟩
    rw [namedLogs_of_lt hn]
    rfl
  case freezeAll => exact fun s t tk h hm => onTicket_next h ((mgmtOnly_of_mgmt hm _ _ _).trans (if_neg (by decide)))
  case thawAll => exact fun s t tk h hm => onTicket_next h ((mgmtOnly_of_mgmt hm _ _ _).trans (if_neg (by decide)))
  case auto => exact fun s n hwf hfrozen => needs_eq_next hwf (if_pos hfrozen)
  case route =>
    exact fun s t src q tk h hsrc hq => onTicket_next h (if_neg (by simp [hsrc, hq]))
  case noRoute =>
    exact fun s t src tk h hsrc => onTicket_next h (if_neg (by
      obtain hsrc | hsrc := hsrc <;> simp [hsrc]))

/-! ## Camp, the valley, firmware and configuration -/

/-- The copy of the configuration that is in force. -/
def cfgNewest (s : State) : Option CfgCopy := if s.cairn.inForce = 0 then s.cairn.cfg0 else s.cairn.cfg1

/-- The copy of the configuration that the next write takes. -/
def cfgOlder (s : State) : Option CfgCopy := if s.cairn.inForce = 0 then s.cairn.cfg1 else s.cairn.cfg0

theorem cfgWrite_inForce {s : State} (h : s.cairn.weak = []) (f : CfgCopy → CfgCopy) :
    (cfgWrite s f).cairn.inForce = if s.cairn.inForce = 0 then 1 else 0 := by
  have hok (a : Nat) : (sectorsWritten s a 1).2 = true := by simp [sectorsWritten, h]
  by_cases h0 : s.cairn.inForce = 0
  · simp only [cfgWrite, h0, if_true, hok]
  · simp only [cfgWrite, if_neg h0, if_true, hok]

/-- A copy whose sector takes the program is in force with the next sequence number, and the one before it is kept. -/
theorem cfgWrite_of_sound {s : State} (hforce : s.cairn.inForce < 2) (h : s.cairn.weak = []) (f : CfgCopy → CfgCopy) :
    ∃ c, cfgNewest (cfgWrite s f) = some c ∧ c.seq = ((cfgNewest s).map (·.seq)).getD 0 + 1 ∧
      cfgOlder (cfgWrite s f) = cfgNewest s := by
  have hok (a : Nat) : (sectorsWritten s a 1).2 = true := by simp [sectorsWritten, h]
  have hseq (x : Option CfgCopy) (y : CfgCopy) (hy : y.seq = 0) : (x.getD y).seq + 1 = (x.map (·.seq)).getD 0 + 1 := by
    cases x with
    | none => exact congrArg (· + 1) hy
    | some x => rfl
  obtain h0 | h1 : s.cairn.inForce = 0 ∨ s.cairn.inForce = 1 := by omega
  · simp only [cfgNewest, cfgOlder, cfgWrite, h0, if_true, hok, Nat.one_ne_zero, if_false]
    exact ⟨_, rfl, hseq _ _ rfl, rfl⟩
  · simp only [cfgNewest, cfgOlder, cfgWrite, h1, if_true, hok, Nat.one_ne_zero, if_false, Nat.zero_ne_one]
    exact ⟨_, rfl, hseq _ _ rfl, rfl⟩

/-- A configuration that is newer than the other copy has been saved. -/
theorem configSaved_of_newer {s : State} {c : CfgCopy} (t : Nat) (hnew : cfgNewest s = some c)
    (hold : ∀ x ∈ cfgOlder s, x.seq ≤ c.seq) : configSaved t s = answer s t scOk := by
  rw [cfgNewest] at hnew
  cases hother : cfgOlder s with
  | none =>
    rw [cfgOlder] at hother
    simp only [configSaved, hnew, hother]
  | some x =>
    have hle := hold x hother
    rw [cfgOlder] at hother
    simp only [configSaved, hnew, hother]
    exact if_neg (Nat.not_lt.mpr hle)

theorem bankRunning_csBankVerify (s : State) (b : Nat) (i : BankImage) : bankRunning (csBankVerify s b i) = bankRunning s := by
  unfold csBankVerify setBank2
  split
  · split <;> rfl
  · rfl

theorem setBank2_setBank2 (s : State) (b : Nat) (x y : Bank) : setBank2 (setBank2 s b x) b y = setBank2 s b y := by
  unfold setBank2
  split <;> rfl

theorem csStatus_setBank2 (s : State) (b v : Nat) (x : Bank) : csStatus (setBank2 s b x) v = setBank2 (csStatus s v) b x := by
  unfold setBank2
  split <;> rfl

theorem bankOf_setBank2 (s : State) (b : Nat) (x : Bank) : bankOf (setBank2 s b x) b = x := by
  unfold bankOf setBank2
  split <;> rfl

/-- A bank that does not run is committed. -/
theorem csCommit_of_other {s : State} {b : Nat} (hb : b ≤ 1) (hrun : bankRunning s ≠ some b) :
    csCommit s (.bank b) true = csStatus (setBank2 s b { bankOf s b with committed := true }) 0 := by
  simp only [csCommit, if_neg (show ¬ 2 ≤ b by omega), if_neg hrun, if_true]

/-- A verified image's bank is committed with the version of its header. -/
theorem csCommit_verified {s : State} {b : Nat} {i : BankImage} (hok : bankOk s i = true) (hb : b ≤ 1)
    (hrun : bankRunning s ≠ some b) : csCommit (csBankVerify s b i) (.bank b) true =
      csStatus (setBank2 s b { secVersion := i.secVersion, build := i.build, committed := true }) 0 := by
  have hrun' : bankRunning (csBankVerify s b i) ≠ some b := (bankRunning_csBankVerify s b i).trans_ne hrun
  rw [csCommit_of_other hb hrun', csBankVerify, if_pos hok]
  simp only [csStatus_setBank2, bankOf_setBank2, setBank2_setBank2]
  rfl

/-- Settles O59: camp, the valley, the banks and the stored configuration as their commands leave them. -/
theorem mediaCommands : Obligations.MediaCommands := by
  unfold Obligations.MediaCommands
  refine ⟨?scrub, ?camp, ?campFactory, ?retire, ?valley, ?write, ?writeBusy, ?verify, ?verifyBad, ?selectSame, ?select, ?commit_,
    ?commitBusy, ?save, ?saved, ?turn⟩
  case scrub => exact fun s u t w tk h hreg => onTicket_next h (congrArg scrubAsk (configReg_of_taken hreg t))
  case camp =>
    intro s u t a b c tk h hen hreg
    refine onTicket_next h ((if_neg (by simp [hen])).trans ?_)
    simp only [hreg]
  case campFactory =>
    exact fun s t a b c tk h hen hbit hlevel => onTicket_next h (if_pos (by simp [hen, hbit, hlevel]))
  case retire => exact fun s t ch sub rk bk row cpa tk h hrow => onTicket_next h (by simp only [hrow])
  case valley => exact fun s u t w tk h hreg => onTicket_next h (configReg_of_taken hreg t)
  case write =>
    intro s t tk h hbank hrow hend hrun u
    refine ⟨fun hst => onTicket_next h ?_, fun hst => onTicket_next h ?_⟩
    · exact (if_neg (by omega)).trans ((if_neg (by omega)).trans ((if_neg hrun).trans (if_neg hst)))
    · exact (if_neg (by omega)).trans ((if_neg (by omega)).trans ((if_neg hrun).trans (if_pos hst)))
  case writeBusy =>
    exact fun s t tk h hbank hrow hend hrun =>
      onTicket_next h ((if_neg (by omega)).trans ((if_neg (by omega)).trans (if_pos hrun)))
  case verify =>
    intro s t b i tk h hb hrun
    refine onTicket_next h ((if_neg (by omega)).trans ?_)
    by_cases hok : bankOk s i = true
    · have hcommit := csCommit_verified hok hb hrun
      have hver : (csBankVerify s b i).cairn.status = 0 := by rw [csBankVerify, if_pos hok]; rfl
      simp only [hver, hcommit, ne_eq, not_true_eq_false, if_false, if_pos hok]
      rfl
    · have hver : csBankVerify s b i = csStatus s 5 := if_neg hok
      simp only [hver, if_neg hok]
      rfl
  case verifyBad =>
    intro s t b i tk h hb hmargin
    have hbad : bankOk s i = false := by simp [bankOk, hmargin]
    have hver : csBankVerify s b i = csStatus s 5 := if_neg (by simp [hbad])
    refine onTicket_next h ((if_neg (by omega)).trans ?_)
    simp only [hver]
    rfl
  case selectSame =>
    intro s t b tk h hb hpref
    refine onTicket_next h ((if_neg (by omega)).trans ?_)
    simp only [if_pos hpref]
  case select =>
    intro s t b tk h hb hpref u
    refine onTicket_next h ((if_neg (by omega)).trans ?_)
    simp only [if_neg hpref]
    rfl
  case commit_ =>
    intro s t n tk h hrun hopen hother
    refine onTicket_next h ?_
    simp only [hrun]
    exact if_neg (by simp [hopen, hother])
  case commitBusy =>
    intro s t n tk h hrun hother hold
    refine onTicket_next h ?_
    simp only [hrun]
    exact if_pos (by simp [hother, hold])
  case save => exact fun s t tk h => onTicket_next h rfl
  case saved =>
    intro s t f hforce hweak
    obtain ⟨c, hnew, hseq, hold⟩ := cfgWrite_of_sound hforce hweak f
    refine configSaved_of_newer t hnew fun x hx => ?_
    rw [hold] at hx
    rw [hseq, hx]
    exact Nat.le_succ _
  case turn =>
    intro s f hweak
    rw [cfgWrite_inForce hweak]
    split <;> omega

/-! ## The ladder and the brakes -/

/-- A camp channel or a link of the rope that the management principal names. -/
theorem onFn_of_mgmt {s : State} {t cls : Nat} {tk : Ticket} (hm : tk.mgmt = true) (hcls : le tk.par 0 1 = cls)
    (hthere : cls = 2 ∧ le tk.par 2 2 < 16 ∨ cls = 7 ∧ le tk.par 2 2 < 2) (f : Nat → Nat → State) :
    onFn s t tk f = f cls (le tk.par 2 2) := by
  have hscope (i : Nat) : fnScope s tk cls i = true := by simp [fnScope, hm]
  simp only [onFn, hcls, hscope]
  obtain ⟨rfl, hi⟩ | ⟨rfl, hi⟩ := hthere
  · exact (if_neg (by decide)).trans ((if_neg (Nat.not_le.mpr hi)).trans ((if_neg (by simp)).trans (if_neg (by simp [fnThere]))))
  · exact (if_neg (by decide)).trans ((if_neg (Nat.not_le.mpr hi)).trans ((if_neg (by simp)).trans (if_neg (by simp [fnThere]))))

/-- Settles O60: the ladder and the brakes as their commands leave them. -/
theorem ladderAndBrakeCommands : Obligations.LadderAndBrakeCommands := by
  unfold Obligations.LadderAndBrakeCommands
  refine ⟨?retry, ?noClass, ?join, ?rope, ?camp, ?reset, ?third, ?cycle, ?cycleBusy, ?quiesce, ?resume, ?quiet, ?fence, ?hostPlain,
    ?host, ?region, ?regionOff, ?fenced⟩
  case retry =>
    intro s t tk h hm hcls hi hrung
    refine onTicket_next h ((onFn_of_mgmt hm hcls (.inl ⟨rfl, hi⟩) _).trans ?_)
    exact (if_neg (by simp [hrung])).trans (if_neg (by decide))
  case noClass => exact fun s t tk h hcls => onTicket_next h (if_pos hcls)
  case join =>
    intro s t tk h hm hcls hi hrung
    exact onTicket_next h ((onFn_of_mgmt hm hcls (.inl ⟨rfl, hi⟩) _).trans (if_pos hrung))
  case rope =>
    intro s t tk h hm hcls hi k hrung
    exact onTicket_next h ((onFn_of_mgmt hm hcls (.inr ⟨rfl, hi⟩) _).trans ((if_neg (by simpa using hrung)).trans
      (if_neg (by simp [fnGone]))))
  case camp =>
    intro s t tk h hm hcls hi k hrung hthere
    exact onTicket_next h ((onFn_of_mgmt hm hcls (.inl ⟨rfl, hi⟩) _).trans ((if_neg (by simpa using hrung)).trans
      (if_neg (by simp [fnGone, hthere]))))
  case reset =>
    exact fun s t tk h hcan hst hfew => onTicket_next h ((if_neg (by simp [hcan, hst])).trans (if_neg (by omega)))
  case third =>
    exact fun s t tk h hcan hst hmany hauto => onTicket_next h ((if_neg (by simp [hcan, hst])).trans ((if_pos hmany).trans (if_pos hauto)))
  case cycle => exact fun s t tk h hcan => onTicket_next h (if_pos hcan)
  case cycleBusy => exact fun s t tk h hcan => onTicket_next h (if_neg (by simp [hcan]))
  case quiesce =>
    intro s t tk h hm hsub hact hthere
    refine onTicket_next h ((mgmtOnly_of_mgmt hm _ _ _).trans ((if_neg (by omega)).trans ((if_neg (by omega)).trans
      ((if_neg hthere).trans ?_))))
    rw [if_pos hact]
  case resume =>
    intro s t tk h hm hsub hact hthere
    refine onTicket_next h ((mgmtOnly_of_mgmt hm _ _ _).trans ((if_neg (by omega)).trans ((if_neg (by omega)).trans
      ((if_neg hthere).trans ?_))))
    rw [if_neg (by omega)]
  case quiet =>
    intro s n hn hup hconns
    rw [quiesce, hup, if_neg (by decide), subPathsDown]
    simp only [hconns, List.foldl_nil]
    rw [subState, getF_of_sendView (sendView_portEvent (by simp [setSub]) n 0x0302 0) (quiet_subFld n hn)]
    exact subState_setSub _ n (by decide)
  case fence =>
    intro s t tk c h hc hown
    refine onTicket_next h ?_
    simp only [hc]
    exact if_neg (by simp [hown])
  case hostPlain =>
    intro s t tk h hm hact hflag hid hconns
    refine onTicket_next h ((if_neg (by simp [owns_of_mgmt hm])).trans ((if_neg (by omega)).trans ((if_neg (by simp [hid])).trans ?_)))
    simp only [hact, hflag, hconns, if_true]
    rfl
  case host =>
    intro s t tk h hown hid n cs up
    refine ⟨fun hact hflag => onTicket_next h ?_, fun hact hflag => onTicket_next h ?_, fun hact hflag => onTicket_next h ?_⟩
    · refine (if_neg (by simp [hown])).trans ((if_neg (by omega)).trans ((if_neg (by simp [hid])).trans ?_))
      simp only [hact, hflag, if_true, Bool.false_eq_true, if_false]
      rfl
    · refine (if_neg (by simp [hown])).trans ((if_neg (by omega)).trans ((if_neg (by simp [hid])).trans ?_))
      simp only [hact, hflag, if_true]
      rfl
    · refine (if_neg (by simp [hown])).trans ((if_neg (by omega)).trans ((if_neg (by simp [hid])).trans ?_))
      simp only [hact, hflag, Bool.false_eq_true, if_false]
      rfl
  case region =>
    intro s t tk r h hr hown hact hroom
    refine onTicket_next h ?_
    simp only [hr]
    refine (if_neg (by simp [hown])).trans ((if_neg (by omega)).trans ((if_neg (by simp; omega)).trans ?_))
    rw [hact]
    rfl
  case regionOff =>
    intro s t tk r h hr hown hact
    refine onTicket_next h ?_
    simp only [hr]
    refine (if_neg (by simp [hown])).trans ((if_neg (by omega)).trans ((if_neg (by simp [hact])).trans ?_))
    rw [hact]
    rfl
  case fenced =>
    intro s ch b lvl chans hform hop hchan hlevel hneeds hhost hfenced
    have hlate : acceptLate s (cmdHdr b) none = { status := scOk, drop := true } := if_pos (by simp [hhost, hfenced])
    have hacc : acceptCmd s ch b = (s, { status := scOk, drop := true }) := by
      simp only [acceptCmd, hform, hop, hchan, hlevel, hneeds, hlate, Bool.not_true, Bool.false_eq_true, if_false, if_true,
        Nat.lt_irrefl]
    unfold frontEnd
    simp only [hacc, if_true]

end Sys2Proof.Machine
end
